-- ==== Sys2Proof/Word.lean ====
section
/-!
DEFINITION. Sys2Proof/Word.lean: the word types of the Korez and their plainest arithmetic.
Fields and multi-byte values are little-endian, bit 0 least significant (spec 00_scope R4).
-/

set_option Elab.async false

namespace Sys2Proof

/-- One byte of memory. -/
abbrev Byte := BitVec 8

/-- One 32-bit word: a lane of a word set, a cabinet word, a register (00 R9). -/
abbrev Word := BitVec 32

/-- One 64-bit value: a lane of the modular path, a 64-bit register (00 R9). -/
abbrev Quad := BitVec 64

/-- A word set: 256 words, lane `i` at position `i` (03 "The stream and its stations"). Lanes past the end of
the list read as 0, so every list is some word set. -/
abbrev WordSet := List Word

end Sys2Proof
end

