-- ==== Sys2Proof/Syntax.lean ====
section
/-!
DEFINITION. Sys2Proof/Syntax.lean: the commands of the Korez, one constructor of `Instr` for each row of
spec/opcode_table.json, in the table's order. A row that is a command of Table 16-6 carries its parameters of that
table and a header (who sent it, TAG, flags); a row that is a register access carries the value written; a row that
is an event carries what the outside decides (a message's fields, a measured value, whether a tag verified).
-/

set_option Elab.async false

namespace Sys2Proof

/-- Where a command packet came from: a queue pair 0-63 (16 Queue pairs) or the mailbox (16 R346). -/
inductive Src where
  | qp (q : BitVec 6)
  | mbox
  deriving DecidableEq, Repr

/-- The header of a command packet (16 Table 16-3) less its OPCODE, which the constructor names. -/
structure Hdr where
  src   : Src
  tag   : BitVec 16
  irq   : Bool
  fence : Bool
  deriving DecidableEq, Repr

/-- What another module of the fabric answers while a command of this module runs (17 R368, R378): whether it
acknowledges at all, whether it already holds 1,024 announced windows, its HUB_ID.GALLERIES, whether it has a tour
loaded or accepted or an atomic range or REDUCE window open, its ALIGNED bit and its time domain. -/
structure Peer where
  answers     : Bool
  windowsFull : Bool
  galleries   : BitVec 6
  busy        : Bool
  aligned     : Bool
  domain      : BitVec 32
  deriving DecidableEq, Repr

/-- What the other end of a key agreement sends (17 R362, 12 R263): its ephemeral public key of 133 bytes, its signature of 132
bytes over that key, and whether the signature and certificate chain of a link's neighbour verify against the Osnoger root. -/
structure KeyOffer where
  key       : List Byte
  signature : List Byte
  chainOk   : Bool
  deriving DecidableEq, Repr

/-- What the tag of a received frame shows (17 R363): it verifies, or it fails, with what the neighbour then offers should the link
agree new keys. -/
inductive FrameTag where
  | verified
  | failed (offer : KeyOffer)
  deriving DecidableEq, Repr

/-- What a fabric port that loses its partner or lanes has left (17 R360), and what the neighbour offers when it trains again. -/
structure PortLoss where
  lanes : Nat
  offer : KeyOffer
  deriving DecidableEq, Repr

/-- What a time message measures (17 R377): the offset and the round trip, in units of 0.25 ns. -/
structure TimeMeasured where
  offset    : BitVec 16
  roundTrip : Nat
  deriving DecidableEq, Repr

/-- What the outside contributes to the end of a long command (16 R350): the parts that failed (galleries or stacks that did
not lock or train, ports, loan windows that their remote module did not acknowledge), the groups of a restore whose members do not
answer (bit k: slot k), whether other modules agreed, and the key offers, by port (PORTS_ENABLE), by 2 x member + direction
(GROUP_FORM), or by 8 x slot + 2 x member + direction (CHECKPOINT_RESTORE). -/
structure WorkOutcome where
  failed  : BitVec 64
  groups  : BitVec 8
  heard   : Bool
  offers  : List (Nat × KeyOffer)
  deriving DecidableEq, Repr

/-- Bytes that the driver wrote into host memory before a doorbell (16 R342, 13 R270): an address and the bytes from
it on. -/
abbrev HostWrites := List (Nat × List Byte)

/-- How HUB_TIME_SET is written (02 Table 02-4): whole, or one half. -/
inductive TimeWrite where
  | full (v : Quad)
  | low  (v : Word)
  | high (v : Word)
  deriving DecidableEq, Repr

/-- An access of a memory port: a read, or a write of a value. -/
inductive Access (α : Type) where
  | read
  | write (v : α)
  deriving DecidableEq, Repr

/-- The identity of a fabric packet's work at the owner of a window (17 R370, R374). A write tells the descriptor it belongs
to, by the sender's serial number, with that descriptor's LENGTH and SET_READY (17 R372). -/
inductive PacketKind where
  | read  (bytes : Nat)
  | write (data : List Byte) (serial length : Nat) (setReady : Bool)
  | swap  (redOp : BitVec 8) (compare : Quad) (value : Quad)
  deriving DecidableEq, Repr

/-- A fabric packet (17 R364). -/
structure Packet where
  dst    : BitVec 14
  src    : BitVec 14
  epoch  : BitVec 8
  hops   : Nat
  window : BitVec 6
  offset : Nat
  kind   : PacketKind
  deriving DecidableEq, Repr

/-- An opening message (12 R264). `tagOk` says whether its AES-256-GCM tag verifies under the channel key. -/
structure Opening where
  groupId : BitVec 32
  sender  : BitVec 2
  seq     : Nat
  tourId  : Quad
  gallery : BitVec 5
  region  : BitVec 6
  offset  : Nat
  data    : List WordSet
  tagOk   : Bool
  deriving DecidableEq, Repr

/-- The interface at which a bus error arose (13 Table 13-15). -/
inductive BusIface where
  | cxl | hbm | vault | fabric
  deriving DecidableEq, Repr

/-- How an access of a burst to the fabric or the host ends (13 Table 13-7, 17 R370). -/
inductive BurstAck where
  | ok | unreachable | stale
  deriving DecidableEq, Repr

/-- An SPDM request as the responder distinguishes them (19 R411, R412, R423), with the two IDE_KM messages that start and stop the
IDE streams of the host link inside a session (16 Table 16-1). -/
inductive SpdmReq where
  | getVersion | getCapabilities | negotiate | getDigests | getCertificate
  | challenge | getMeasurements (index : BitVec 8) (signed : Bool)
  | keyExchange | finish (session : BitVec 2) | heartbeat (session : BitVec 2)
  | keyUpdate (session : BitVec 2) | endSession (session : BitVec 2) | ideSetGo (session : BitVec 2) | ideSetStop (session : BitVec 2)
  | other (code : BitVec 8)
  deriving DecidableEq, Repr

/-- The transport of an MCTP message (16 R359): PCIe vendor-defined messages, or SMBus with the address it goes to and whether its
PEC byte fits. -/
inductive MctpVia where
  | pcie
  | smbus (address : BitVec 7) (pecOk : Bool)
  deriving DecidableEq, Repr

/-- An MCTP control message (16 R359); on SMBus also the assignment of an address by ARP. -/
inductive MctpMsg where
  | setEndpointId (eid : BitVec 8) | getEndpointId | getVersionSupport | getMessageTypes | arpAssign (address : BitVec 7)
  | other (code : BitVec 8)
  deriving DecidableEq, Repr

/-- The thermal sensor classes (20 Table 20-6) and the rails (20 Table 20-1) are named by number in table order. -/
abbrev RailNo := Nat

/-- The commands: one constructor per row of spec/opcode_table.json. -/
inductive Instr where
  -- 01xx
  | identify (h : Hdr)
  | galleriesStart (h : Hdr)
  | galleriesStop (h : Hdr)
  | hbmTrain (h : Hdr) (stks : BitVec 8)
  | moduleResetGalleries (h : Hdr)
  | moduleResetDevice (h : Hdr)
  -- 02xx
  | catalogueCreate (h : Hdr) (addr : Quad)
  | regionDeclare (h : Hdr) (gallery region mode feed sealed : BitVec 8) (baseRow rows wblk : BitVec 16)
  | regionRelease (h : Hdr) (gallery region : BitVec 8)
  | regionFill (h : Hdr) (gallery region : BitVec 8) (value : Word)
  | regionFillDone (work : Nat)
  | objectRegister (h : Hdr) (catIndex : Word) (entryAddr paramAddr : Quad) (paramBytes : BitVec 16)
  | objectUpdate (h : Hdr) (catIndex : Word) (entryAddr : Quad)
  | objectRelease (h : Hdr) (catIndex count : Word)
  | costTableLoad (h : Hdr) (addr : Quad)
  | restorationEnable (h : Hdr) (scratch : Quad)
  | restorationDisable (h : Hdr)
  | atomicOpen (h : Hdr) (addr : Quad) (length q : Word)
  | atomicClose (h : Hdr) (range stack : BitVec 8)
  | generatorFill (h : Hdr) (destKind flags gallery region : BitVec 8) (count : Word) (addr seed lidxBase : Quad)
  -- 03xx
  | tourLoad (h : Hdr) (srcKind : BitVec 8) (addr : Quad) (bytes : Word)
  | tourLoadDone (work : Nat)
  | tourUnload (h : Hdr) (tourId : Quad)
  | tourSubmit (h : Hdr) (tourId notBefore deadlineLimit : Quad)
  | restoreSubmit (h : Hdr) (input output lut keyRefresh keyExtract keyPack : Word) (notBefore deadlineLimit : Quad)
      (slotsLog outLimbs policy : BitVec 8)
  | tourQuery (h : Hdr) (tourId : Quad)
  -- 04xx
  | keyRegister (h : Hdr) (catIndex : Word) (space : BitVec 8) (addr paramAddr : Quad) (paramBytes : BitVec 16)
  | vaultOpen (h : Hdr)
  | vaultClose (h : Hdr)
  | extentRelease (h : Hdr) (first count : Word)
  | extentQuery (h : Hdr) (first count : Word) (addr : Quad)
  | vaultSanitize (h : Hdr)
  | patrolSet (h : Hdr) (enable threshold : BitVec 8)
  -- 05xx
  | portsEnable (h : Hdr) (ports : BitVec 8)
  | timeJoin (h : Hdr) (domain : Word) (root : BitVec 16)
  | timeLeave (h : Hdr)
  | windowOpen (h : Hdr) (window access : BitVec 8) (remote : BitVec 16) (kind gallery region : BitVec 8)
      (addr length : Quad) (peer : Peer)
  | windowAnnounce (owner : BitVec 14) (window : BitVec 6) (access : BitVec 2) (length : Nat) (reduce : Bool)
  | windowClose (h : Hdr) (window : BitVec 8)
  | groupForm (h : Hdr) (groupId : Word) (slot selfIndex parties : BitVec 8) (members : BitVec 48) (idKeysAddr : Quad)
  | groupDissolve (h : Hdr) (slot : BitVec 8)
  | groupRegionRegister (h : Hdr) (slot gallery region : BitVec 8)
  | groupRegionRemove (h : Hdr) (slot gallery region : BitVec 8)
  | lockstepSet (h : Hdr) (partner : BitVec 16) (enable : BitVec 8) (peer : Peer)
  -- 06xx
  | checkpointTake (h : Hdr) (kind scope target window : BitVec 8) (firstExtent : Word) (peer : Peer)
  | checkpointStage
  | checkpointDrainDone (partnerLost : Bool)
  | checkpointRestore (h : Hdr) (firstExtent : Word)
  | migrateFence (h : Hdr) (epoch : BitVec 8) (timeout : Word)
  | fenceDone
  -- 07xx
  | drbgInstantiate (h : Hdr)
  | drbgFill (h : Hdr) (gallery region flags noiseBits : BitVec 8) (count q : Word)
  | debugEnter (h : Hdr) (authAddr : Quad)
  | debugLeave (h : Hdr) (authAddr : Quad)
  | debugDisable (h : Hdr) (authAddr : Quad)
  | firmwareWrite (h : Hdr) (slot : BitVec 8) (addr : Quad) (bytes : Word)
  | modmul (h : Hdr) (addr : Quad)
  | modexp (h : Hdr) (addr : Quad)
  | p521Keygen (h : Hdr) (addr : Quad)
  | p521Ecdh (h : Hdr) (addr : Quad)
  | p521Sign (h : Hdr) (addr : Quad)
  | p521Verify (h : Hdr) (addr : Quad)
  -- 08xx
  | monitorConfig (h : Hdr) (unit source binShift : BitVec 8) (offset : Word)
  | monitorSnapshot (h : Hdr) (space : BitVec 8) (addr : Quad)
  | longCommandDone (work : Nat) (outcome : WorkOutcome)
  -- host interface
  | qpDoorbell (q : BitVec 6) (tail : Word) (writes : HostWrites)
  | qpCommandTake (q : BitVec 6) (peer : Peer)
  | qpEnable (q : BitVec 6) (value : Word)
  | mboxGo (value : Word) (peer : Peer)
  | timeSet (w : TimeWrite)
  | hubShareWrite (value : Word)
  | tgStart (stack : BitVec 3) (value : Word)
  | tgDone (stack : BitVec 3) (mismatches : List Nat)
  | arithInjectArm (gallery : BitVec 5) (value : Word)
  | invigilatorEnable (gallery : BitVec 5) (value : Word)
  | admitLimitWrite (value : Word)
  -- DMA
  | dmaDoorbell (ch : BitVec 6) (tail : Word) (writes : HostWrites)
  | dmaChEnable (ch : BitVec 6) (value : Word)
  | dmaAbort (ch : BitVec 6) (value : Word)
  | creditAdd (ch : BitVec 6) (value : Word)
  | engineResume (value : Word)
  | dmaCopy (ch : BitVec 6)
  | dmaReduce (ch : BitVec 6)
  | dmaRequest (line : BitVec 8) (count : Nat)
  | dmaBurst (ch : BitVec 6) (ack : BurstAck)
  | dmaCompletion (ch : BitVec 6)
  | engineStop (iface : BusIface) (addr : Quad)
  | hubPortAccess (gallery : BitVec 5) (pa : Nat) (cycle : Nat) (acc : Access Word)
  | hubBurst (addr : Nat) (slot : BitVec 6) (acc : Access (List Byte))
  -- BAR and register accesses
  | bar2Access (offset : Nat) (size : Nat) (acc : Access Quad)
  | registerWrite (offset : Nat) (size : Nat) (value : Quad)
  | registerReadClear (offset : Nat) (size : Nat)
  -- the sequencers
  | tourStart (tourId : Quad)
  | readinessSample (tourId : Quad)
  | stepLaunch (gallery : BitVec 5)
  | lateArrivalDiscard (gallery : BitVec 5)
  | stepEnd (gallery : BitVec 5)
  | tourOverrun (tourId : Quad)
  | holdLimitExceeded (tourId : Quad)
  | tourEnd (tourId : Quad)
  | islandLockLoss (island : BitVec 6)
  | bridgeFlitLoss (dir10 : Bool) (inFlight : List (Quad × BitVec 5))
  | bridgeRetrain (due : List (Quad × BitVec 5))
  -- memory and Vault
  | lineRewrite (line : Nat)
  | atomicUpdate (addr : Nat) (redOp : BitVec 8) (operand compare : Quad)
  | extentCommit (extent : BitVec 20)
  | programFail (extent : BitVec 20)
  | patrolRead (extent : BitVec 20) (correctedBits : Nat) (uncorrectable : Bool)
  | extentRelocate (extent : BitVec 20) (copied : BitVec 21)
  | openPassDone
  -- fabric
  | frameReceive (port : BitVec 3) (tag : FrameTag)
  | linkRekey (port : BitVec 3) (offer : KeyOffer)
  | packetArrival (p : Packet)
  | packetForward (p : Packet)
  | openingMessage (m : Opening)
  | timeMessage (domain : Word) (rootTick : Nat) (measured : TimeMeasured)
  | timeHoldover
  | lockstepSummary (tourId : Quad) (window : Nat) (remoteTour : Quad) (remote : List (Nat × List Quad))
  | lockstepComplete (tourId : Quad)
  | partnerLost
  -- randomness, health, power
  | esHealthFail (repetition : Bool)
  | riskEvaluation (thermalMargin : Int)
  | profileExcess (inputWatts : Nat)
  | powerInputRise (badRails : List RailNo)
  | powerInputLoss
  | pwrSense (closed : Bool)
  | boot (readErrorA readErrorB : Bool)
  | perst (asserted : Bool)
  | functionLevelReset
  | thermalAbort
  | powerFault
  | emergencyClear
  | droop (rail : RailNo)
  | thermWarn
  | shutdown
  | spdmRequest (r : SpdmReq) (payload : List Byte)
  | mctpMessage (via : MctpVia) (m : MctpMsg)
  | captureSample (source : BitVec 8) (value : Int)
  | cxlMemAccess (addr : Nat) (cached : Bool) (acc : Access (List Byte))
  | bridgeRetrainDone
  | spdmHeartbeatLoss (session : BitVec 2)
  | fabricPortDown (port : BitVec 3) (loss : PortLoss)
  | cxlLinkRetrain
  | refreshRateChange (stack : BitVec 3) (hot : Bool)
  deriving DecidableEq, Repr

end Sys2Proof
end

