-- ==== Sys2Proof/Decode.lean ====
section
/-!
DEFINITION. Sys2Proof/Decode.lean: commands spelled by words. No row of spec/opcode_table.json gives bits: a command of
Table 16-6 is a 64-byte packet (Machine/Operands.lean reads it), a register access or an event has no word at all.
-/

set_option Elab.async false

namespace Sys2Proof

/-- The command that a word of `nbits` bits spells by the table's bits: none, since no row gives bits. -/
def decodeTableWord (_nbits _w : Nat) : Option Instr := none

end Sys2Proof
end

