-- ==== Sys2Proof/Config.lean ====
section
/-!
DEFINITION. Sys2Proof/Config.lean: what the spec leaves open, as opaque constants (free values), and the secrets and
constants of one module that the spec gives no value for. Nothing in Lean can evaluate them: a statement that mentions
one holds whatever its value is (log entry 8).
-/

set_option Elab.async false

namespace Sys2Proof

/-- The free value number `i` of width `w`: one unstated value for each index, applied to `State.freeCount`. -/
opaque Config.freeValue : (w : Nat) → Nat → BitVec w

/-- The primitive 2N-th root of a modulus that the Docent's Restoration template uses, from the modulus and log2 N: the
spec leaves the choice among the roots open (05 R99). -/
opaque Config.rootOf : Nat → Nat → Nat

/-- Bit block `i` of 512 bits from the entropy source (12 R252): its noise is not described by any function. -/
opaque Config.entropy : Nat → BitVec 512

/-- The scalar of the module's identity key, in fuses reachable only by the big-number engine (19 R402). -/
opaque Config.identityScalar : BitVec 521

/-- The secret in fuses from which the Vault's wrapping key is derived (19 R402). -/
opaque Config.vaultSecret : BitVec 256

/-- What follows the label in the derivation of the Vault's wrapping key, context and length (19, after R402): its bytes are not stated. -/
opaque Config.wrapContext : List (BitVec 8)

/-- What wrapping adds to the two XTS keys, by the wrapping key (15 R327): the algorithm is not stated (log entry 149). -/
opaque Config.wrapMask : List (BitVec 8) → List (BitVec 8)

/-- The certificates of the Osnoger root and intermediate that the module shows with its own (19 Table 19-5). -/
opaque Config.upperCerts : List (BitVec 8)

/-- The public key that an X.509 v3 certificate certifies, as 133 bytes (19, after R402). -/
opaque Config.certKey : List (BitVec 8) → List (BitVec 8)

/-- The direction bit of the frames that port `k` sends (17 R363): which of the two directions of a link it names is not stated. -/
opaque Config.linkDirection : Nat → Bool

/-- The FixedInfo of a key derivation (17 R362, 12 R263): its bytes are not stated. Numbers 0 and 1 are those of a link's frames
with that direction bit, 16 + 3s + r that of the channel from member s to member r of a party group. -/
opaque Config.fixedInfo : Nat → List (BitVec 8)

/-- The root public key in ROM, as the 132 bytes X and Y of a P-521 point, little-endian (19 R404). -/
opaque Config.rootKey : Nat → BitVec 528

/-- The two reserved groups of 32 block stripes that hold the replicas of the Vault's map (15 R323): which they are is not stated. -/
opaque Config.mapGroup0 : Nat
opaque Config.mapGroup1 : Nat

/-- How many block stripes factory-marked blocks keep from being formed (15, after R330). -/
opaque Config.unformed : Nat

/-- What a byte of a slot reads as whose data can no longer be decrypted (15 R328): by the keys in force, the tick and the byte's
place in the medium. -/
opaque Config.lostByte : List (BitVec 8) → Nat → Nat → BitVec 8

/-- The SHA-512 digest of the ROM (19 Table 19-6). -/
opaque Config.romDigest : BitVec 512

end Sys2Proof
end

