-- ==== Sys2Proof/Machine/State.lean ====
section
/-!
DEFINITION. Sys2Proof/Machine/State.lean: the state of one Korez module as plain data, and its state after reset.
Every register, memory, queue and mode the spec names is here; INVENTORY.md lists each with its rule and reset value.
Fixed groups of like things are vectors; sparse memories are lists of (key, value) pairs in one canonical form
(keys strictly rising, no entry equal to the value an unlisted key reads as), see Machine/Ops.lean.
-/

set_option Elab.async false

namespace Sys2Proof.Machine

/-- A sparse memory: (key, value) pairs, keys strictly rising, no entry equal to the default value. -/
abbrev SMem (α : Type) := List (Nat × α)

/-- The faults of the model. The Korez reports every error as a status code, a poison mark or a flag of its own
state, so no meaning raises a fault; the type is kept for the interface. -/
inductive Fault where
  /-- Raised by no meaning: an access to a place the spec says does not exist. Safe. -/
  | noSuchPlace
  deriving DecidableEq, Repr

/-- The refusals of the model. -/
inductive Refusal where
  /-- Raised only by an arm of `exec` whose command has no meaning yet. Safe: the machine stops. -/
  | notModelled (mnemonic : String)
  deriving DecidableEq, Repr

/-! ### Fuses and boot flash (19 Tables 19-1, 19-2) -/

/-- The readable OTP fuses (19 Table 19-1). The key-port fields are opaque constants of Config. -/
structure Fuses where
  galleryMap    : BitVec 32
  svnBlown      : Nat
  debugDisabled : Bool
  deriving DecidableEq, Repr

/-! ### Module time (02) -/

/-- Module time and its discipline (02 Tables 02-2 to 02-5, 17 R376, R377). `cycle` counts the module cycles of the present
tick that have run (02 R26). -/
structure TimeSt where
  now          : Nat
  cycle        : Nat
  pendingSet   : Option Nat
  pendingLow   : Option Word
  offset       : BitVec 16
  setRefused   : Bool
  holdover     : Bool
  aligned      : Bool
  disciplined  : Bool
  refLock      : Bool
  domain       : Word
  root         : BitVec 14
  isRoot       : Bool
  joined       : Bool
  lastMessage  : Nat
  lastExchange : Nat
  steering     : Int
  islandLock   : Quad
  deriving DecidableEq, Repr

/-! ### Cabinets (04) -/

/-- One cabinet region: its geometry (04 Table 04-3) and its state (04 Table 04-4). `readyTick` is the tick in which
READY last became 1 (21 R445). -/
structure Region where
  baseRow    : BitVec 14
  rows       : BitVec 14
  mode2D     : Bool
  wblk       : BitVec 10
  poisonCode : BitVec 16
  feed       : BitVec 3
  ready      : Bool
  poisoned   : Bool
  isSealed   : Bool
  zeroizing  : Bool
  valid      : Bool
  readyTick  : Nat
  deriving DecidableEq, Repr

/-- The counters a gallery keeps for one tour-store bank (08 R177, Tables 08-9 to 08-11). -/
structure CounterSet where
  sat  : Vector Word 16
  nan  : Word
  sent : Vector Word 64
  deriving DecidableEq, Repr

/-- The state of a tour-store bank (10 Table 10-18). -/
inductive BankState where
  | free | loaded | accepted | active
  deriving DecidableEq, Repr

/-- One tour-store bank with its paired twiddle bank, tag file and counter set (10 R213, 05 R111, 06 "Bindings",
08 R177). -/
structure Bank where
  status    : BankState
  store    : SMem Byte
  twiddle  : SMem Word
  tags     : SMem Quad
  counters : CounterSet
  deriving DecidableEq, Repr

/-! ### A step under way (03) -/

/-- A value in the reduction tree: exact for integers, and whether anything saturated or gave a NaN (09 R199 to R201). -/
structure TapVal where
  v   : Int
  sat : Bool
  nan : Bool
  deriving DecidableEq, Repr

/-- A word set on its way through the stations: its iteration, the step cycle in which it entered Transform, its words
(64 bits from Multiply on in modular mode), the B word set beside it, the valid lanes and the kind. -/
structure Flight where
  k     : Nat
  enter : Nat
  ws    : List Nat
  b     : List Nat
  valid : List Bool
  fp    : Bool
  deriving DecidableEq, Repr

/-- What a cabinet read is for: operand A, operand B with its HOLD flag, or a copy of the cabinet engine to a word address. -/
inductive ReadFor where
  | opA
  | opB (hold : Bool)
  | copy (dst : Nat)
  deriving DecidableEq, Repr

/-- A word set, or a part of one (09 R207), that was read from cabinets: the step cycle of its issue, the owner of the banks,
the requester number (04 Table 04-2), the iteration or chunk, whether it is the last part, whether a lost flit took it (03 R67),
and its words as (lane, physical address, word). -/
structure ReadSent where
  cycle : Nat
  dest  : ReadFor
  owner : Nat
  req   : Nat
  k     : Nat
  last  : Bool
  lost  : Bool
  words : List (Nat × Nat × Nat)
  deriving DecidableEq, Repr

/-- A cabinet word set on its way to Transform: its step cycle of delivery, the owner of the banks it came from, and whether a
lost flit took it (03 R67). -/
structure Deliv where
  cycle : Nat
  isA   : Bool
  k     : Nat
  ws    : List Nat
  hold  : Bool
  owner : Nat
  lost  : Bool
  deriving DecidableEq, Repr

/-- Where a landing goes: cabinets of a gallery (by Outlet or by the engine), device memory, the relay stage, the window. -/
inductive LandTo where
  | cab (owner : Nat) (engine : Bool)
  | hbm (addr : Nat)
  | relay
  | window
  deriving DecidableEq, Repr

/-- A landing under way: its step cycle, where, its words as (physical address or index, value), the physical addresses that hold
padding (10 R223), its iteration or chunk, whether it is an engine fill's last chunk, and for a word set that it completes the
header and the 256 words that 17 R380 signs. -/
structure Land where
  cycle : Nat
  dest  : LandTo
  words : List (Nat × Nat)
  pads  : List Nat
  k     : Nat
  last  : Bool
  sig   : Option (Nat × List Nat)
  deriving DecidableEq, Repr

/-- A write-back of the Vector station (09 R188, R201). -/
structure WBack where
  cycle : Nat
  k     : Nat
  b     : Nat
  ws    : List Nat
  valid : List Bool
  taps  : List (Option TapVal)
  q     : Nat
  deriving DecidableEq, Repr

/-- A fault that a station raises: its step cycle, station, cause and status. -/
structure Flt where
  cycle   : Nat
  station : Nat
  cause   : Nat
  status  : BitVec 16
  deriving DecidableEq, Repr

/-- A row of the accumulator file as it was before an update that entered in step cycle `cycle` (09 R184), and whether it had
been written before (11 Table 11-5 cause 4). -/
structure RowBefore where
  cycle : Nat
  row   : Nat
  ws    : List Nat
  fresh : Bool
  deriving DecidableEq, Repr

/-- What is under way inside a step: word sets in the stations, reads and deliveries on their way, parts read so far, landings
and write-backs to come, faults raised for later cycles, recent accumulator rows, and the next iterations that take A and B
from a stream or the relay. -/
structure Pipe where
  fly     : List Flight
  reads   : List ReadSent
  dels    : List Deliv
  bufA    : List (Nat × Nat)
  bufB    : List (Nat × Nat)
  lands   : List Land
  wbacks  : List WBack
  faults  : List Flt
  accOld  : List RowBefore
  nA      : Nat
  nB      : Nat
  deriving DecidableEq, Repr

/-- A step in progress on a gallery: its tour, index, launch tick and duration (10 Table 10-5), and what is under way in it.
`base` is the tick from which its schedule counts (02 R29: the tour's effective start when it launched), `stopped` the status of
the fault or loss that stopped its issue (03 R61), `engine` the first and the last tick in which its cabinet engine runs
(04 R83), `secret` whether its image reads a sealed region (12 R257), `sign` whether it is signed (17 R380). -/
structure RunStep where
  tourId   : Quad
  index    : Nat
  launched : Nat
  duration : Nat
  base     : Nat
  stopped  : Option (BitVec 16)
  engine   : Option (Nat × Nat)
  secret   : Bool
  sign     : Bool
  pipe     : Pipe
  deriving DecidableEq, Repr

/-- A fault record of the arithmetic stations (05 Table 05-10). -/
structure ArithFault where
  stepCycle : BitVec 24
  lane      : BitVec 8
  step      : BitVec 16
  limb      : BitVec 7
  valid     : Bool
  station   : BitVec 2
  cause     : BitVec 4
  deriving DecidableEq, Repr

/-- A fault record of the stream-head check (06 Table 06-13). -/
structure KeyFault where
  stepCycle : BitVec 24
  binding   : BitVec 8
  step      : BitVec 16
  valid     : Bool
  cause     : BitVec 4
  deriving DecidableEq, Repr

/-- The status registers of a gallery: GAL_STATUS (03 Table 03-8), GAL_ARITH_* (05), GAL_KEY_* (06),
GAL_NARROW_STATUS (08), GAL_VEC_STATUS (09), GAL_INV_* (11), TOUR_STORE_STATUS (10). -/
structure GalRegs where
  step          : BitVec 16
  lateArrivals  : BitVec 8
  relayFwd      : Bool
  relayHead     : Bool
  inStep        : Bool
  clockOn       : Bool
  arithCheck    : BitVec 8
  arithRange    : BitVec 8
  arithFault    : ArithFault
  injectLane    : BitVec 8
  injectTarget  : BitVec 2
  injectArm     : Bool
  keyFault      : KeyFault
  keyMismatches : BitVec 8
  poisonedKeys  : BitVec 8
  planeLoads    : BitVec 8
  sampled       : BitVec 8
  listSteps     : BitVec 8
  tileSteps     : BitVec 8
  maskedSets    : BitVec 8
  stateClear    : Bool
  busyRefusals  : BitVec 8
  swaps         : BitVec 8
  deriving DecidableEq, Repr

/-- The Invigilator of a gallery (11 Tables 11-9, 11-10). `seen` holds the (step, cause) pairs already recorded in the
running tour, `noted` the (step, cause, word set or chunk) of the occurrences already counted in the running step (11 R243). -/
structure InvGal where
  mask    : BitVec 7
  enable  : Bool
  hazards : BitVec 24
  dropped : BitVec 8
  seen    : List (Nat × Nat)
  noted   : List (Nat × Nat × Nat)
  deriving DecidableEq, Repr

/-- CAB_STATUS (04 Table 04-5). -/
structure CabRegs where
  hubDefers      : BitVec 8
  sealedRefusals : BitVec 8
  poisonFaults   : BitVec 8
  engineBusy     : Bool
  zeroized       : Bool
  deriving DecidableEq, Repr

/-- Who last wrote an accumulator row, as the view it was written in (03 R59, 11 Table 11-5 cause 4). -/
inductive View where
  | narrow | modular
  deriving DecidableEq, Repr

/-- The working state of a gallery's stations: accumulator file in its two views (03 R59), pairing register (03 R54),
weight planes (08 R162), tile file and operand cache (09 R187), each keyed by row or entry x 256 + lane. `accView`
lists the rows written since the exchange, with the view that wrote each last. `slicesDone` lists the slices written
of planes 0 and 1 since the plane was last complete (08 Table 08-8). -/
structure Work where
  accN       : SMem Word
  accM       : SMem Quad
  accView    : List (Nat × View)
  pairing    : SMem Word
  plane0     : SMem Word
  plane1     : SMem Word
  slicesDone : List (Nat × Nat)
  tiles      : SMem Word
  opcache    : SMem Word
  written    : List (Nat × Nat)
  deriving DecidableEq, Repr

/-- A relay word set that reaches a gallery's relay stage: the module cycle of its arrival and of its release behind the die
bridge (0 where it crosses none), its 256 words, the device address it was read from, its HBM poison flag, and whether a lost
flit took it (03 R64, R65, R67, 06 R137). -/
structure RelayWord where
  cycle    : Nat
  bridge   : Nat
  words    : WordSet
  addr     : Option Nat
  poisoned : Bool
  lost     : Bool
  deriving DecidableEq, Repr

/-- A word set of an HBM stream on its way to a gallery: the module cycle of its arrival, its schedule, the device address, its
words, its poison flag, and whether a lost flit took it (14 R299, R305, 03 R67). -/
structure InboxWord where
  cycle    : Nat
  sched    : Nat
  addr     : Nat
  words    : WordSet
  poisoned : Bool
  lost     : Bool
  deriving DecidableEq, Repr

/-- A word set in the outbound window, with the tour that wrote it (13 R288, 12 R264). -/
structure WindowSet where
  tourId : Quad
  words  : WordSet
  deriving DecidableEq, Repr

/-- A fill of the Docent through a cabinet engine: the region, the value, its chunks (one bank row each) and how many have landed, and
whether it is the zero fill of a released sealed region (04 R92, R470). One that has landed stays until its DONE. -/
structure CabFill where
  region  : Nat
  value   : Word
  rows    : Nat
  chunk   : Nat
  release : Bool
  deriving DecidableEq, Repr

/-- One gallery (03 to 11). `fills` lists the fills of its cabinet engine, the oldest first, `inbox` holds stream word sets on their
way, `late` says that the next crossing released here has missed its handshake (02 R33, R34), `unready` marks the internal regions
that were not ready at the tour's start (11 Table 11-5). -/
structure Gallery where
  regs     : GalRegs
  inv      : InvGal
  cabRegs  : CabRegs
  active1  : Bool
  bank0    : Bank
  bank1    : Bank
  cab      : SMem Word
  regions  : Vector Region 64
  work     : Work
  run      : Option RunStep
  relay    : List RelayWord
  inbox    : List InboxWord
  window   : List WindowSet
  winDue   : Nat
  laneLast : Option Nat
  late     : Bool
  unready  : BitVec 64
  fills    : List CabFill
  deriving DecidableEq, Repr

/-- STR_BRIDGE_STATUS (03 Table 03-9) and what R67 counts. -/
structure Bridge where
  retrains    : BitVec 8
  laneRejects : BitVec 8
  flitLosses  : BitVec 8
  retraining  : Bool
  dir10Up     : Bool
  dir01Up     : Bool
  lossTicks   : List Nat
  startTick   : Nat
  deriving DecidableEq, Repr

/-- A word of a use of cabinet bank ports: its physical address, the word read or written, for a write the word held before, and
whether the write was the first of the tour (11 Table 11-5). -/
structure PortWord where
  pa    : Nat
  val   : Nat
  old   : Nat
  first : Bool
  deriving DecidableEq, Repr

/-- A recent use of cabinet bank ports by a step (03 R68, 04 R70, R71, R79, 11 R242): the gallery that owns the banks, read or
write, the module cycle, the requester number of 04 Table 04-2, the gallery and step that used them with its launch tick, the word
set or chunk, and its words. A use by the hub or by a fill of the Docent names gallery 32, which is no gallery's island. `dropped`
lists the words whose write lost its port (04 R80). -/
structure PortUse where
  owner     : Nat
  isWrite   : Bool
  cycle     : Nat
  requester : Nat
  gallery   : Nat
  step      : Nat
  launched  : Nat
  unit      : Nat
  words     : List PortWord
  dropped   : List Nat
  deriving DecidableEq, Repr

/-- A loan window (17 Tables 17-6, 17-7; epoch 18 R399). -/
structure LoanWindow where
  isOpen  : Bool
  remote  : BitVec 14
  region  : BitVec 6
  gallery : BitVec 5
  cabinet : Bool
  redOp   : BitVec 4
  reduce  : Bool
  access  : BitVec 2
  addr    : Nat
  length  : Nat
  epoch   : BitVec 8
  deriving DecidableEq, Repr

/-- An access of the hub that waits for a bank port (04 R81) or for READY to fall (10 R226): a word at the hub port, an access of
the debug window, a packet with the window that accepted it, or an opening message; `deferred` says that it has been held under
R81 before. An access of device memory waits for a hub slot (14 R301). -/
inductive HeldAccess where
  | word (gallery pa : Nat) (acc : Access Word) (deferred : Bool)
  | bar2 (gallery offset size : Nat) (acc : Access Quad) (deferred : Bool)
  | packet (p : Packet) (window : LoanWindow) (deferred : Bool)
  | opening (m : Opening) (deferred : Bool)
  | burst (addr : Nat) (acc : Access (List Byte))
  | cxl (addr : Nat) (cached : Bool) (acc : Access (List Byte))
  deriving DecidableEq, Repr

/-! ### Catalogue and Restoration (06, 07) -/

/-- The Catalogue's registers, the cost table and the parameter blocks kept by tag (06 Tables 06-11, 06-12, R131,
R473). -/
structure Catalogue where
  enabled        : Bool
  base           : Nat
  budgetRefusals : BitVec 8
  levelRefusals  : BitVec 8
  tagRefusals    : BitVec 8
  costLoaded     : Bool
  cost           : SMem (BitVec 16)
  blocks         : List (Quad × List Byte)
  deriving DecidableEq, Repr

/-- HUB_RST_SCRATCH and HUB_RST_STATUS (07 Tables 07-9, 07-10). `refill` says that B60-B63 are to be refilled with
zeros before the next Restoration tour is admitted (07 R153). -/
structure Restoration where
  scratch  : Nat
  runs     : BitVec 8
  autoRuns : BitVec 8
  faults   : BitVec 8
  running  : Bool
  enabled  : Bool
  refill   : Bool
  deriving DecidableEq, Repr

/-! ### Tours (02, 10, 16) -/

/-- A binding (10 Table 10-2). -/
structure Binding where
  cat    : Nat
  reads  : Bool
  writes : Bool
  deriving DecidableEq, Repr

/-- A primitive of the operation list (10 Table 10-2). -/
structure Prim where
  code  : Nat
  pres  : BitVec 4
  in0   : Nat
  in1   : Nat
  out   : Nat
  key   : Nat
  param : Nat
  deriving DecidableEq, Repr

/-- A relay span (10 Table 10-2). -/
structure Span where
  head      : Nat
  last      : Nat
  fedOutlet : Bool
  deriving DecidableEq, Repr

/-- A claimed half of a stack (11 R236, 14 R292). -/
structure Claim where
  stack : Nat
  half  : Bool
  deriving DecidableEq, Repr

/-- The Catalogue fields that the admission walk computes for an output entry (06 R129, R475). -/
structure WalkOut where
  cat        : Nat
  kind       : Nat
  components : Nat
  form       : Bool
  limbs      : Nat
  scaleExp   : Nat
  budget     : Nat
  exhausted  : Bool
  tag        : Quad
  logN       : Nat
  mode       : Nat
  ptMod      : Nat
  special    : Nat
  layout     : Nat
  deriving DecidableEq, Repr

/-- Where a tour's fault lies (16 Table 16-5 FAULT). -/
structure FaultAt where
  step      : Nat
  gallery   : Nat
  station   : Nat
  cause     : Nat
  stepCycle : Nat
  deriving DecidableEq, Repr

/-- The parameters of a Restoration tour (07 "Submitting a Restoration"). `autoIns` marks one inserted under 07 R155, with the tour
it precedes. `checks` holds the module ticks at which the streams of its three stages are compared, as (tick, stage), drawn at its
start: one for every batch of the second stage (log entry 55). -/
structure RestoreJob where
  input     : Nat
  output    : Nat
  lut       : List Nat
  inBits    : Nat
  outBits   : Nat
  keyR      : Nat
  keyX      : Nat
  keyP      : Nat
  slotsLog  : Nat
  outLimbs  : Nat
  autoIns   : Option Quad
  checks    : List (Nat × Nat)
  deriving DecidableEq, Repr

/-- What the samples of R41 found of one outside-fed region (64: the outbound window, 13 R289) that a step reads: the
tick of the first sample, the tick of the last sample when that found it ready, and the slack of 21 R445 once it was. -/
structure SampleRow where
  gallery : Nat
  step    : Nat
  owner   : Nat
  region  : Nat
  first   : Nat
  last    : Option Nat
  slack   : Option Int
  deriving DecidableEq, Repr

/-- The state of a tour (16 Table 16-6 TOUR_QUERY). -/
inductive TourState where
  | loaded | accepted | running | completed
  deriving DecidableEq, Repr

/-- A tour from its TOUR_LOAD (or its building by the Docent) to the reload of its banks. `status` is set when it is ended
early, with the tick edge `stopAt` at which its galleries stop, and `halted` once they have stopped; until then `endTick` is
the latest end of its steps so far. `next` counts the steps launched on each gallery, `samples` keeps the samples of R41, `slipLog`
lists each slip's compiled tick with the slip from then on, newest first (17 R380),
`waitFor` lists the Restorations inserted before it, `compared` counts its windows compared in lock-step, `away` marks the galleries
whose bank a later tour has exchanged away (10 R214), `kept` holds their counters as they stood then (21 R447), and `missed` lists
the regions that its end with DEADLINE_MISSED poisoned (02 R42). -/
structure Tour where
  tourId    : Quad
  state     : TourState
  loading   : Bool
  mask      : BitVec 32
  policy    : Nat
  budget    : Nat
  slack     : Nat
  hold      : Nat
  joint     : Bool
  bindings  : List Binding
  ops       : List Prim
  spans     : List Span
  watts     : List Nat
  package   : List Byte
  claims    : List Claim
  locked    : List Nat
  hdr       : Hdr
  opcode    : BitVec 16
  start     : Nat
  deadline  : Nat
  slips     : Vector Nat 4
  slipLog   : List (Nat × Nat)
  walk      : List WalkOut
  next      : Vector Nat 32
  status    : Option (BitVec 16)
  faultAt   : FaultAt
  endTick   : Nat
  stopAt    : Nat
  restore   : Option RestoreJob
  waitFor   : List Quad
  compared  : Nat
  samples   : List SampleRow
  halted    : Bool
  away      : BitVec 32
  kept      : List (Nat × CounterSet)
  missed    : List (Nat × Nat)
  deriving DecidableEq, Repr

/-! ### DMA (13) -/

/-- The endpoint kinds (13 Table 13-2). -/
inductive EndKind where
  | host | hbm | cabinet | vault | fabric | outwin
  deriving DecidableEq, Repr

/-- A DMA descriptor (13 Table 13-1), with endpoint kinds already read. -/
structure Desc where
  reduce   : Bool
  setReady : Bool
  irq      : Bool
  catLoad  : Bool
  credit   : Bool
  reqLine  : Nat
  burstLog : Nat
  tag      : Word
  src      : EndKind
  dst      : EndKind
  epoch    : BitVec 8
  redOp    : BitVec 8
  length   : Nat
  srcAddr  : Nat
  dstAddr  : Nat
  srcAux   : Word
  dstAux   : Word
  catIndex : Nat
  deriving DecidableEq, Repr

/-- The content of an extent as its slot held it when the read of the extent began, with the slot's uncorrectable codewords, and
whether no key decrypts it (15 R319, R328). -/
structure VRead where
  extent : Nat
  slot   : Nat
  lost   : Bool
  data   : SMem Byte
  bad    : List Nat
  deriving DecidableEq, Repr

/-- A descriptor in progress: bytes written so far, ticks waited, the last tick counted as a wait, the status of a
failure that ended it, the extent being read from the Vault, its serial number (17 R372), whether its next burst was held at a
bank port (04 R81), and whether it was aborted (13 R281). -/
structure Progress where
  desc     : Desc
  index    : Nat
  written  : Nat
  waits    : Nat
  lastWait : Option Nat
  status   : BitVec 16
  ended    : Bool
  vread    : Option VRead
  serial   : Nat
  held     : Bool
  aborted  : Bool
  deriving DecidableEq, Repr

/-- One DMA channel (13 Tables 13-8 to 13-12). `ringChange` says that a ring change is pending (Table 13-9). PEND_REQ,
CQ_FULL, WAITING and BUSY of DMA_CH_STATUS are read from the engine's request lines, the queue indices and `cur`. -/
structure Channel where
  ringLoc     : Bool
  ringAddr    : BitVec 46
  cqLoc       : Bool
  cqAddr      : BitVec 46
  vector      : BitVec 6
  cqLog       : BitVec 5
  ringLog     : BitVec 5
  irqEn       : Bool
  enable      : Bool
  tail        : BitVec 16
  head        : BitVec 16
  cqTail      : BitVec 16
  cqHead      : BitVec 16
  credit      : BitVec 24
  completions : BitVec 8
  errors      : BitVec 8
  phase       : Bool
  ringChange  : Bool
  cur         : Option Progress
  deriving DecidableEq, Repr

/-- The DMA engine (13 Tables 13-13, 13-15). `lines` counts the requests that each request line of Table 13-4 holds
(13 R273), `started` the descriptors started. -/
structure Engine where
  chans     : Vector Channel 64
  lines     : SMem Nat
  started   : Nat
  busErrors : BitVec 8
  stopped   : Bool
  errValid  : Bool
  errIface  : BitVec 8
  errAddr   : Quad
  deriving DecidableEq, Repr

/-! ### HBM (14) -/

/-- An open atomic range (14 R307): base, bytes, modulus, its SRAM content and the lines loaded poisoned. -/
structure AtomRange where
  base     : Nat
  length   : Nat
  q        : Word
  sram     : SMem Byte
  poisoned : List Nat
  deriving DecidableEq, Repr

/-- One HBM stack (14 Tables 14-10 to 14-15). `runMode` and `runPattern` are those of the generator run in progress. -/
structure Stack where
  corrected     : BitVec 16
  uncorrectable : BitVec 8
  ueValid       : Bool
  ueSource      : BitVec 4
  uePc          : BitVec 6
  ueLine        : BitVec 34
  atomSat       : BitVec 8
  atomNan       : BitVec 8
  tgDone        : Bool
  tgBusy        : Bool
  tgMode        : BitVec 2
  tgPattern     : BitVec 2
  runMode       : BitVec 2
  runPattern    : BitVec 2
  tgMask        : Quad
  tgErr         : Vector Word 64
  ranges        : Vector (Option AtomRange) 16
  deriving DecidableEq, Repr

/-- HBM as a whole (14 Tables 14-8, 14-9, R292, R304, R306). `weak` lists lines with one symbol in error, `dead` lines
that are uncorrectable; `fixes` lists corrected lines with the evaluation period of the correction (18 R388); `bursts`
lists the hub bursts of the last two ticks, as (slot counted from tick 0, line), for R301. -/
structure Hbm where
  hubEighth     : Bool
  shareRefusals : BitVec 8
  doubleRate    : BitVec 8
  trained       : BitVec 8
  mem           : SMem Byte
  weak          : List Nat
  dead          : List Nat
  fixes         : List (Nat × Nat)
  bursts        : List (Nat × Nat × Bool)
  stks        : Vector Stack 8
  deriving DecidableEq, Repr

/-! ### Host interface (16) -/

/-- A queue pair (16 Tables 16-9 to 16-11). `longs` counts its long commands without a DONE entry (16 R344, R352), `tours`
its accepted tours without a completion record (16 R344). NO_MASTER, RQ_WAIT, IDLE and RESERVED are read from these. -/
structure Qp where
  sqLoc        : Bool
  sqAddr       : BitVec 46
  rqLoc        : Bool
  rqAddr       : BitVec 46
  vector       : BitVec 6
  rqLog        : BitVec 5
  sqLog        : BitVec 5
  irqEn        : Bool
  enable       : Bool
  sqTail       : BitVec 16
  rqTail       : BitVec 16
  sqHead       : BitVec 16
  rqHead       : BitVec 16
  badDoorbells : BitVec 8
  badDoorbell  : Bool
  phase        : Bool
  longs        : Nat
  tours        : Nat
  deriving DecidableEq, Repr

/-- The work a long command has still to do when its REPLY has been written (16 R350). -/
inductive LongKind where
  | galleriesStart (idle : Bool)
  | hbmTrain (stks : BitVec 8)
  | catalogueCreate (addr : Nat)
  | regionFill (gallery region : Nat) (value : Word)
  | restorationEnable (scratch : Nat)
  | restorationDisable
  | atomicOpen (stack range : Nat)
  | atomicClose (stack range : Nat)
  | generatorFill (dest : EndKind) (setReady : Bool) (gallery region count addr : Nat) (seed lidx : Quad)
  | tourLoad (tourId : Quad) (status : BitVec 16) (detail : Word)
  | vaultOpen
  | vaultClose
  | extentRelease (first count : Nat)
  | vaultSanitize
  | portsEnable (ports : BitVec 8)
  | timeJoin (domain : Word) (root : Nat)
  | groupForm (slot : Nat) (groupId : Word) (self parties : Nat) (members : BitVec 48) (idKeys : List (List Byte))
  | lockstepSet (partner : Nat) (enable : Bool)
  | checkpointTake
  | checkpointRestore (first : Nat)
  | migrateFence (epoch : BitVec 8) (limit : Nat)
  | drbgInstantiate
  | drbgFill (gallery region : Nat) (setReady fresh : Bool) (noise : Nat) (q : Word) (count : Nat)
  | debugState (code : Nat) (status : BitVec 16)
  | firmwareWrite (slot1 : Bool) (image : List Byte)
  | pkOperation (addr : Nat) (status : BitVec 16) (result : List Byte) (cycles : Nat)
  | monitorSnapshot (hbm : Bool) (addr : Nat) (image : List Byte)
  deriving DecidableEq, Repr

/-- A long command whose DONE entry has not been written. -/
structure LongWork where
  hdr    : Hdr
  opcode : BitVec 16
  kind   : LongKind
  deriving DecidableEq, Repr

/-- The mailbox (16 Table 16-12). -/
structure Mbox where
  cmd   : BitVec 512
  reply : BitVec 256
  busy  : Bool
  deriving DecidableEq, Repr

/-- CXL_IRQ_ROUTE (16 Table 16-12). -/
structure IrqRoute where
  eventVec  : BitVec 6
  engineVec : BitVec 6
  mboxVec   : BitVec 6
  eventEn   : Bool
  engineEn  : Bool
  mboxEn    : Bool
  deriving DecidableEq, Repr

/-- CXL_LINK_STATUS (16 Table 16-12). -/
structure Link where
  retrains : BitVec 8
  ideFails : BitVec 8
  speed    : BitVec 4
  width    : BitVec 5
  flit256  : Bool
  ideOn    : Bool
  up       : Bool
  deriving DecidableEq, Repr

/-- The host port (16): configuration-space enables (`hdmEnabled` and `hdmEnabled1` of the two HDM decoders), the addresses of the
two BARs, queue pairs, mailbox, interrupts, the high-half read latches of 00 R11, by the offset of the high half, the debug
selector, the MSI-X table and pending bits, and the vectors raised, newest first. `readData` is the value the last register or
memory read returned to the host, `readPoison` whether it came with CXL data poison, and `hostLines` the device-memory lines the
host may hold in its caches (14 R302). -/
structure HostPort where
  busMaster  : Bool
  msixEnable : Bool
  hdmEnabled : Bool
  hdmEnabled1 : Bool
  bar0       : Quad
  bar2       : Quad
  qps        : Vector Qp 64
  mbox       : Mbox
  irq        : IrqRoute
  link       : Link
  dbgRefusals : BitVec 8
  dbgGallery : BitVec 5
  latches    : List (Nat × Word)
  msixTable  : SMem Word
  msixPending : Quad
  raised     : List (BitVec 6)
  readData   : List Byte
  readPoison : Bool
  longWork   : List LongWork
  hostLines  : List Nat
  deriving DecidableEq, Repr

/-! ### Fabric (17) and shares (12) -/

/-- A fabric port (17 Table 17-2, R362, R363): `sendKey` and `recvKey` are its AES-256 keys for the two directions, `offer` the
ephemeral public key and its signature that it sent to the other end, `frameTx` and `frameRx` its frame counters. -/
structure Port where
  retries   : BitVec 8
  authFails : BitVec 8
  retrains  : BitVec 8
  lanes     : BitVec 2
  keyed     : Bool
  up        : Bool
  enabled   : Bool
  tagFails  : List Nat
  frameTx   : Nat
  frameRx   : Nat
  keyEpoch  : Nat
  sendKey   : BitVec 256
  recvKey   : BitVec 256
  offer     : List Byte
  credits   : Nat
  deriving DecidableEq, Repr

/-- A route entry (17 Table 17-5). -/
structure Route where
  valid   : Bool
  minimal : BitVec 8
  dport   : BitVec 3
  deriving DecidableEq, Repr

/-- A window that another module announced to this one (17 R369). -/
structure Announced where
  owner  : BitVec 14
  window : BitVec 6
  access : BitVec 2
  length : Nat
  reduce : Bool
  deriving DecidableEq, Repr

/-- The signatures of one compiled tick of a tour in one gallery, before the final XOR: seven CRC-64 values, with the module
time of that tick (17 R380). -/
structure SigRow where
  tourId  : Quad
  gallery : Nat
  ctick   : Nat
  tick    : Nat
  sigs    : List Quad
  deriving DecidableEq, Repr

/-- Lock-step comparison (17 Tables 17-8, 17-9, R380 to R383). -/
structure LockStep where
  divergences : BitVec 8
  partner     : BitVec 14
  partnerLost : Bool
  divValid    : Bool
  enabled     : Bool
  divStep     : BitVec 16
  divStation  : BitVec 3
  divGallery  : BitVec 5
  divCtick    : Word
  divTick     : Quad
  sigs        : List SigRow
  diverged    : List (Quad × FaultAt)
  lost        : List Quad
  deriving DecidableEq, Repr

/-- A party group slot (12 Tables 12-7, 12-8, R263 to R266). `keys` holds the channel key to member i at 2i and the one from it at
2i + 1, `idKeys` the identity keys that the host supplied, `offers` the signed ephemeral keys sent to the members, in the order of
`keys`. -/
structure Group where
  groupId   : Word
  authFails : BitVec 8
  openings  : BitVec 8
  self      : BitVec 2
  parties   : BitVec 2
  failed    : Bool
  keyed     : Bool
  formed    : Bool
  members   : List Nat
  idKeys    : List (List Byte)
  offers    : List (List Byte)
  keys      : List Nat
  sendSeq   : List Nat
  expectSeq : List Nat
  regions   : List (Nat × Nat)
  deriving DecidableEq, Repr

/-- A packet that left, with its port and the nonce of its frame (17 R363). -/
structure SentPacket where
  port   : BitVec 3
  nonce  : List Byte
  packet : Packet
  deriving DecidableEq, Repr

/-- An opening message sent: the receiver's index, the message, its nonce, and its sealed payload with the tag (12 R264). -/
structure SentOpening where
  receiver : Nat
  message  : Opening
  nonce    : List Byte
  body     : List Byte
  tag      : List Byte
  deriving DecidableEq, Repr

/-- The fabric (17). `sent` lists the packets that left, `opened` the opening messages sent, `timeSent` the ports and ticks of the
time messages sent (17 R377), `answered` what the requesters of packets were answered, as (module, status, data), all newest first;
`landed` counts the bytes of a descriptor of 17 R372 that have landed, as (source module x 64 + window, serial number,
bytes). -/
structure Fabric where
  ports     : Vector Port 8
  lock      : Bool
  adaptive  : Bool
  module    : BitVec 14
  stale     : BitVec 8
  refused   : BitVec 8
  hopDrops  : BitVec 8
  routes    : SMem Route
  windows   : Vector LoanWindow 64
  announced : List Announced
  lockstep  : LockStep
  groups    : Vector Group 4
  sent      : List SentPacket
  opened    : List SentOpening
  timeSent  : List (BitVec 3 × Nat)
  answered  : List (BitVec 14 × BitVec 16 × List Byte)
  landed    : List (Nat × Nat × Nat)
  deriving DecidableEq, Repr

/-! ### What an image of a checkpoint says (18) -/

/-- An item that a checkpoint copies (18 R391, Table 18-4). -/
inductive CkptItem where
  | catalogue
  | object (index : Nat)
  | region (gallery region : Nat)
  deriving DecidableEq, Repr

/-- A data section of an image: its item, its place in the data extents, its HBM address (an object) and the geometry and
state of its region. -/
structure CkptSection where
  item   : CkptItem
  offset : Nat
  length : Nat
  addr   : Nat
  rgn    : Region
  deriving DecidableEq, Repr

/-- A tour package in an image, with its queue pair and TAG and, when the tour was accepted, S - Tc (Table 18-4). A
Restoration has its parameters in place of a package. -/
structure SavedTour where
  package : List Byte
  hdr     : Hdr
  offset  : Option Int
  policy  : Nat
  restore : Option RestoreJob
  deriving DecidableEq, Repr

/-- What the directory and the module-state section of an image say (Table 18-4). The spec gives them no byte layout, so the
model keeps what they mean beside their bytes (log entry 71). -/
structure ImageMeta where
  sections : List CkptSection
  qps      : Vector Qp 64
  tours    : List SavedTour
  counters : List (CounterSet × CounterSet)
  domain   : Word
  root     : BitVec 14
  joined   : Bool
  module   : BitVec 14
  routes   : SMem Route
  windows  : Vector LoanWindow 64
  groups   : Vector Group 4
  deriving DecidableEq, Repr

/-! ### The Vault (15) -/

/-- The states of an extent (15 Table 15-2). -/
inductive ExtState where
  | free | written | damaged | conflict
  deriving DecidableEq, Repr

/-- A map entry (15 Table 15-2) with the whole journal sequence of its last change. -/
structure MapEntry where
  seq      : Nat
  isSealed : Bool
  state    : ExtState
  slot     : BitVec 21
  deriving DecidableEq, Repr

/-- A journal record (15 Table 15-3). `entry` is the low word of the new map entry. -/
structure JournalRec where
  seq     : Nat
  extent  : Nat
  entry   : Word
  oldSlot : Word
  crc     : Word
  deriving DecidableEq, Repr

/-- A snapshot of the map, with the sequence of the last record it holds and whether its CRC is valid (15 R323, R324). -/
structure Snapshot where
  seq   : Nat
  map   : SMem MapEntry
  valid : Bool
  deriving DecidableEq, Repr

/-- A replica of the map: its snapshots and the journal records behind them, newest first (15 R323). -/
structure Replica where
  snapshots : List Snapshot
  records   : List JournalRec
  deriving DecidableEq, Repr

/-- A candidate slot of a CONFLICT extent (15 R325). -/
structure Candidate where
  extent   : Nat
  slot     : Nat
  isSealed : Bool
  deriving DecidableEq, Repr

/-- What the Vault's medium keeps across every reset (15 R322 to R332): the data of its slots (as the plaintext under the keys
that they were encrypted with, keyed slot x 2^23 + byte; log entry 142), the two replicas of the map, the journal sequence, the
bytes written, the block stripes formed, how often every stripe was erased and each of them beyond that, the slots programmed
since their stripe was last erased, the good stripes and those retired, the uncorrectable codewords (slot x 2,048 + unit), the
candidates of conflicts, the slots whose data no key decrypts, the two wrapped XTS keys (none before the first open), and what the
images of checkpoints say, by the bytes of their header extents from byte 64 on. -/
structure Medium where
  data         : SMem Byte
  replica0     : Replica
  replica1     : Replica
  seq          : Nat
  bytesWritten : Nat
  formed       : Nat
  eraseBase    : Nat
  erases       : SMem Nat
  programmed   : List Nat
  goodStripes  : Nat
  retired      : List Nat
  badUnits     : List Nat
  candidates   : List Candidate
  lost         : List Nat
  keys         : List Byte
  images       : List (List Byte × ImageMeta)
  deriving DecidableEq, Repr

/-- An extent write that has not committed: its extent, the slot programmed and whether the data is sealed (15 R317). -/
structure ExtWrite where
  extent   : Nat
  slot     : Nat
  isSealed : Bool
  channel  : Nat
  deriving DecidableEq, Repr

/-- The Vault (15 Tables 15-6 to 15-10). `openKeys` holds the two unwrapped XTS keys while the Vault is open (R327), `passLeft`
lists the extents the open pass has still to patrol, `relocs` the relocations that patrol started, as (extent, slot copied). -/
structure Vault where
  conflicts     : BitVec 8
  uncorrectable : BitVec 8
  progFails     : BitVec 8
  readOnly      : Bool
  openPass      : Bool
  sanitizing    : Bool
  rebuilding    : Bool
  isOpen        : Bool
  mediumOk      : Bool
  threshold     : BitVec 8
  relocations   : BitVec 8
  patrolEn      : Bool
  map           : SMem MapEntry
  openKeys      : List Byte
  inFlight      : List ExtWrite
  passLeft      : List Nat
  relocs        : List (Nat × Nat)
  wearRead      : Bool
  eraseRead     : Bool
  medium        : Medium
  deriving DecidableEq, Repr

/-! ### Health and checkpoints (18) -/

/-- What the Conservator's own taps counted in one evaluation period (18 R384). -/
structure Taps where
  ce : Nat
  ue : Nat
  rl : Nat
  uc : Nat
  rt : Nat
  tr : Nat
  dr : Nat
  af : Nat
  deriving DecidableEq, Repr

/-- The stages of a checkpoint in progress (18 R390 to R393). -/
inductive CkptStage where
  | idle | waitingCut | staging | draining | restoring
  deriving DecidableEq, Repr

/-- A checkpoint in progress: who ordered it (none: the Conservator), its parameters, the tours accepted before it, and from the cut on
the base of the Catalogue then, the sections still to stage and what the image will say. -/
structure CkptJob where
  hdr    : Option Hdr
  kind   : BitVec 8
  scope  : BitVec 8
  target : BitVec 8
  window : BitVec 8
  first  : Nat
  before : List Quad
  base   : Nat
  todo   : List CkptSection
  image  : Option ImageMeta
  deriving DecidableEq, Repr

/-- The Conservator, checkpoints and epochs (18 Tables 18-7 to 18-14). -/
structure Health where
  triggers    : BitVec 8
  skipped     : BitVec 8
  alert       : Bool
  armed       : Bool
  estimate    : BitVec 8
  parts       : Vector Byte 7
  alertTh     : BitVec 8
  ckptTh      : BitVec 8
  autoGap     : BitVec 8
  autoEn      : Bool
  cfg         : Quad
  stageSize   : BitVec 16
  stageBase   : BitVec 10
  completed   : BitVec 8
  failed      : BitVec 8
  stage       : CkptStage
  cut         : Nat
  job         : Option CkptJob
  epoch       : BitVec 8
  fencing     : Bool
  taps        : Taps
  history     : List Taps
  periods     : Nat
  lastAuto    : Option Nat
  deriving DecidableEq, Repr

/-! ### Randomness and security (12, 19) -/

/-- The DRBG and the entropy source's health (12 Tables 12-4 to 12-6, R252 to R254). -/
structure Drbg where
  reseeds      : BitVec 8
  fills        : BitVec 8
  error        : Bool
  reseeding    : Bool
  instantiated : Bool
  esOk         : Bool
  rctFails     : BitVec 8
  aptFails     : BitVec 8
  requests     : BitVec 21
  key          : BitVec 256
  v            : BitVec 128
  fresh        : Bool
  deriving DecidableEq, Repr

/-- An SPDM session (19 R411): `keys` holds its keys, one for each direction, zero when it has none (R423). -/
structure Session where
  inUse   : Bool
  keyed   : Bool
  updates : Nat
  keys    : BitVec 512
  deriving DecidableEq, Repr

/-- Boot, debug, engine and attestation state (19); `smbusAddr` is the address of the MCTP endpoint on SMBus (16 R359). -/
structure Security where
  bootSvn     : BitVec 7
  abDiffer    : Bool
  bReason     : BitVec 4
  aReason     : BitVec 4
  recovery    : Bool
  certOk      : Bool
  slotB       : Bool
  fwVersion   : Word
  unlockFails : BitVec 8
  sinceReset  : Bool
  debug       : Bool
  challenge   : BitVec 256
  pkFails     : BitVec 8
  selfFails   : BitVec 8
  pkBusy      : Bool
  pkCycles    : Quad
  sessions    : Vector Session 4
  spdmReply   : List Byte
  tourLog     : BitVec 512
  tourCount   : Nat
  mctpEid     : BitVec 8
  smbusAddr   : BitVec 7
  mctpReply   : List Byte
  deriving DecidableEq, Repr

/-! ### Power (20) and the energy profile (11) -/

/-- The power states (20 Table 20-2). -/
inductive PowerState where
  | off | sequencing | boot | recovery | idle | active | latchedOff
  deriving DecidableEq, Repr

/-- Power (20 Tables 20-7 to 20-12, R425, R438; 11 Table 11-4; 23 R458). -/
structure Power where
  state         : PowerState
  emergency     : Bool
  emergencyCode : BitVec 16
  vin           : BitVec 16
  pin           : BitVec 12
  limit         : BitVec 12
  powerFault    : Bool
  thermalAbort  : Bool
  thermWarn     : Bool
  droop         : Bool
  powerFaults   : BitVec 8
  thermalAborts : BitVec 8
  thermWarns    : BitVec 8
  droops        : BitVec 8
  resetCause    : BitVec 3
  attempts      : Nat
  senseClosed   : Bool
  perst         : Bool
  excessWindows : BitVec 8
  maxExcess     : BitVec 12
  deriving DecidableEq, Repr

/-! ### Monitors (21) and the hazard ring (11) -/

/-- A capture unit (21 Tables 21-4, 21-5) with a reconfiguration that waits for the next tick edge (21 R443). -/
structure Unit16 where
  offset   : Word
  binShift : BitVec 5
  source   : BitVec 8
  count    : Quad
  min      : Word
  max      : Word
  bins     : Vector Word 64
  pending  : Option (BitVec 8 × BitVec 5 × Word)
  deriving DecidableEq, Repr

/-- Monitors: capture units, stall counters, module totals (21), the hazard ring register (11 Table 11-8). -/
structure Monitors where
  units      : Vector Unit16 16
  stall      : Vector Quad 4
  satTotal   : Quad
  nanTotal   : Quad
  sentTotal  : Vector Quad 64
  setRefusals : BitVec 8
  invRecords : BitVec 16
  invBase    : BitVec 28
  invSeq     : Nat
  deriving DecidableEq, Repr

/-! ### The whole module -/

/-- The state of one Korez module, with the queue of the commands that wait. `hostMem` is the host's memory, outside
the module; `freeCount` is the index of the next free value; `booked` lists the tours that have completed, for whose galleries
and power the Registrar still holds the time up to their deadlines (02 R37, 20 R433; log entry 127). -/
structure State where
  pending   : List Instr
  freeCount : Nat
  hostMem   : SMem Byte
  fuses     : Fuses
  flash     : SMem Byte
  time      : TimeSt
  gals      : Vector Gallery 32
  bridge    : Bridge
  useLog    : List PortUse
  held      : List HeldAccess
  cat       : Catalogue
  rst       : Restoration
  tours     : List Tour
  booked    : List Tour
  dma       : Engine
  hbm       : Hbm
  vault     : Vault
  host      : HostPort
  fab       : Fabric
  health    : Health
  drbg      : Drbg
  sec       : Security
  power     : Power
  mon       : Monitors
  deriving DecidableEq, Repr

/-! ### The state after reset -/

/-- A region that is not declared (04 Tables 04-3, 04-4, reset values). -/
def Region.none : Region :=
  { baseRow := 0, rows := 0, mode2D := false, wblk := 0, poisonCode := 0, feed := 0, ready := false,
    poisoned := false, isSealed := false, zeroizing := false, valid := false, readyTick := 0 }

/-- Cleared counters (08 Tables 08-9 to 08-11). -/
def CounterSet.zero : CounterSet :=
  { sat := Vector.replicate 16 0, nan := 0, sent := Vector.replicate 64 0 }

/-- A free tour-store bank (10 Table 10-18), with twiddle words and tags zero (05 R111). -/
def Bank.empty : Bank :=
  { status := .free, store := [], twiddle := [], tags := [], counters := CounterSet.zero }

/-- The gallery registers at their reset values. -/
def GalRegs.reset : GalRegs :=
  { step := 0, lateArrivals := 0, relayFwd := false, relayHead := false, inStep := false, clockOn := false,
    arithCheck := 0, arithRange := 0,
    arithFault := { stepCycle := 0, lane := 0, step := 0, limb := 0, valid := false, station := 0, cause := 0 },
    injectLane := 0, injectTarget := 0, injectArm := false,
    keyFault := { stepCycle := 0, binding := 0, step := 0, valid := false, cause := 0 },
    keyMismatches := 0, poisonedKeys := 0, planeLoads := 0, sampled := 0, listSteps := 0, tileSteps := 0,
    maskedSets := 0, stateClear := false, busyRefusals := 0, swaps := 0 }

/-- Cleared working state of the stations (08 R164, 09 R191). -/
def Work.zero : Work :=
  { accN := [], accM := [], accView := [], pairing := [], plane0 := [], plane1 := [], slicesDone := [],
    tiles := [], opcache := [], written := [] }

/-- A gallery after a reset that affects it (20 Table 20-3, 04 R93). -/
def Gallery.reset : Gallery :=
  { regs := GalRegs.reset,
    inv := { mask := 0x7F, enable := false, hazards := 0, dropped := 0, seen := [], noted := [] },
    cabRegs := { hubDefers := 0, sealedRefusals := 0, poisonFaults := 0, engineBusy := false, zeroized := false },
    active1 := false, bank0 := Bank.empty, bank1 := Bank.empty, cab := [],
    regions := Vector.replicate 64 Region.none, work := Work.zero, run := .none, relay := [], inbox := [], window := [],
    winDue := 0, laneLast := .none, late := false, unready := 0, fills := [] }

/-- A DMA channel at its reset values (13 Tables 13-8 to 13-12). -/
def Channel.reset : Channel :=
  { ringLoc := false, ringAddr := 0, cqLoc := false, cqAddr := 0, vector := 0, cqLog := 4, ringLog := 4,
    irqEn := false, enable := false, tail := 0, head := 0, cqTail := 0, cqHead := 0, credit := 0,
    completions := 0, errors := 0, phase := true, ringChange := true, cur := .none }

/-- A stack at its reset values (14 Tables 14-10 to 14-15). -/
def Stack.reset : Stack :=
  { corrected := 0, uncorrectable := 0, ueValid := false, ueSource := 0, uePc := 0, ueLine := 0, atomSat := 0,
    atomNan := 0, tgDone := false, tgBusy := false, tgMode := 0, tgPattern := 0, runMode := 0, runPattern := 0,
    tgMask := 0,
    tgErr := Vector.replicate 64 0, ranges := Vector.replicate 16 .none }

/-- A queue pair at its reset values (16 Tables 16-9 to 16-11). -/
def Qp.reset : Qp :=
  { sqLoc := false, sqAddr := 0, rqLoc := false, rqAddr := 0, vector := 0, rqLog := 5, sqLog := 4, irqEn := false,
    enable := false, sqTail := 0, rqTail := 0, sqHead := 0, rqHead := 0, badDoorbells := 0, badDoorbell := false,
    phase := true, longs := 0, tours := 0 }

/-- A fabric port at its reset values (17 Table 17-2). -/
def Port.reset : Port :=
  { retries := 0, authFails := 0, retrains := 0, lanes := 0, keyed := false, up := false, enabled := false,
    tagFails := [], frameTx := 0, frameRx := 0, keyEpoch := 0, sendKey := 0, recvKey := 0, offer := [], credits := 0 }

/-- A loan window that is not open (17 Tables 17-6, 17-7). -/
def LoanWindow.closed : LoanWindow :=
  { isOpen := false, remote := 0, region := 0, gallery := 0, cabinet := false, redOp := 0, reduce := false,
    access := 0, addr := 0, length := 0, epoch := 0 }

/-- An unused group slot (12 Tables 12-7, 12-8). -/
def Group.empty : Group :=
  { groupId := 0, authFails := 0, openings := 0, self := 0, parties := 0, failed := false, keyed := false,
    formed := false, members := [], idKeys := [], offers := [], keys := [], sendSeq := [], expectSeq := [], regions := [] }

/-- The lock-step state at reset (17 Tables 17-8, 17-9). -/
def LockStep.reset : LockStep :=
  { divergences := 0, partner := 0, partnerLost := false, divValid := false, enabled := false, divStep := 0,
    divStation := 0, divGallery := 0, divCtick := 0, divTick := 0, sigs := [], diverged := [], lost := [] }

/-- The fabric at reset (17, 12; 20 Table 20-4: transmitters idle, MODULE 0, LOCK 0, routes invalid). -/
def Fabric.reset : Fabric :=
  { ports := Vector.replicate 8 Port.reset, lock := false, adaptive := false, module := 0, stale := 0, refused := 0,
    hopDrops := 0, routes := [], windows := Vector.replicate 64 LoanWindow.closed, announced := [],
    lockstep := LockStep.reset, groups := Vector.replicate 4 Group.empty, sent := [], opened := [], timeSent := [], answered := [], landed := [] }

/-- Nothing counted in a period (18 R384). -/
def Taps.zero : Taps := { ce := 0, ue := 0, rl := 0, uc := 0, rt := 0, tr := 0, dr := 0, af := 0 }

/-- The Conservator's registers at reset (18 Tables 18-7 to 18-14): ARMED 1, thresholds 0x80 and 0x40, AUTO_GAP 0x10,
AUTO_SCOPE 0x0F. -/
def Health.reset : Health :=
  { triggers := 0, skipped := 0, alert := false, armed := true, estimate := 0, parts := Vector.replicate 7 0,
    alertTh := 0x80, ckptTh := 0x40, autoGap := 0x10, autoEn := false, cfg := 0x00000000000F0000,
    stageSize := 0, stageBase := 0, completed := 0, failed := 0, stage := .idle, cut := 0, job := .none, epoch := 0,
    fencing := false, taps := Taps.zero, history := [], periods := 0, lastAuto := .none }

/-- A capture unit at reset (21 Tables 21-4, 21-5). -/
def Unit16.reset : Unit16 :=
  { offset := 0, binShift := 0, source := 0, count := 0, min := 0x7FFFFFFF, max := 0x80000000,
    bins := Vector.replicate 64 0, pending := .none }

/-- The monitors at reset (21 R441; 11 Table 11-8). -/
def Monitors.reset : Monitors :=
  { units := Vector.replicate 16 Unit16.reset, stall := Vector.replicate 4 0, satTotal := 0, nanTotal := 0,
    sentTotal := Vector.replicate 64 0, setRefusals := 0, invRecords := 0, invBase := 0, invSeq := 0 }

/-- Module time at reset (02 R25, Tables 02-2 to 02-5). -/
def TimeSt.reset : TimeSt :=
  { now := 0, cycle := 0, pendingSet := .none, pendingLow := .none, offset := 0, setRefused := false, holdover := false,
    aligned := false, disciplined := false, refLock := false, domain := 0, root := 0, isRoot := false,
    joined := false, lastMessage := 0, lastExchange := 0, steering := 0, islandLock := 0 }

/-- The bridge at reset (03 Table 03-9). -/
def Bridge.reset : Bridge :=
  { retrains := 0, laneRejects := 0, flitLosses := 0, retraining := false, dir10Up := false, dir01Up := false,
    lossTicks := [], startTick := 0 }

/-- The Catalogue's registers at reset (06 Tables 06-11, 06-12). -/
def Catalogue.reset : Catalogue :=
  { enabled := false, base := 0, budgetRefusals := 0, levelRefusals := 0, tagRefusals := 0, costLoaded := false,
    cost := [], blocks := [] }

/-- Restoration at reset (07 Tables 07-9, 07-10). -/
def Restoration.reset : Restoration :=
  { scratch := 0, runs := 0, autoRuns := 0, faults := 0, running := false, enabled := false, refill := false }

/-- The DMA engine at reset (13: every channel ENABLE 0, the engine neither stopped nor holding a record). -/
def Engine.reset : Engine :=
  { chans := Vector.replicate 64 Channel.reset, lines := [], started := 0, busErrors := 0, stopped := false, errValid := false, errIface := 0,
    errAddr := 0 }

/-- HBM at reset (14; 20 Table 20-4: stacks untrained, hub share 1/16). -/
def Hbm.reset : Hbm :=
  { hubEighth := false, shareRefusals := 0, doubleRate := 0, trained := 0, mem := [], weak := [], dead := [],
    fixes := [], bursts := [], stks := Vector.replicate 8 Stack.reset }

/-- The medium of a module that has never opened its Vault (DESIGN CHOICE, log entry 10). -/
def Medium.blank : Medium :=
  { data := [], replica0 := { snapshots := [], records := [] }, replica1 := { snapshots := [], records := [] }, seq := 0,
    bytesWritten := 0, formed := 40960, eraseBase := 0, erases := [], programmed := [], goodStripes := 40960, retired := [],
    badUnits := [], candidates := [], lost := [], keys := [], images := [] }

/-- The Vault at reset, on a given medium (15 Tables 15-6 to 15-10; 20 Table 20-4: closed, patrol enabled). -/
def Vault.resetOn (m : Medium) : Vault :=
  { conflicts := 0, uncorrectable := 0, progFails := 0, readOnly := false, openPass := false, sanitizing := false,
    rebuilding := false, isOpen := false, mediumOk := false, threshold := 0x48, relocations := 0, patrolEn := true,
    map := [], openKeys := [], inFlight := [], passLeft := [], relocs := [], wearRead := false, eraseRead := false, medium := m }

/-- CXL_LINK_STATUS at reset (16 Table 16-12). -/
def Link.reset : Link :=
  { retrains := 0, ideFails := 0, speed := 0, width := 0, flit256 := false, ideOn := false, up := false }

/-- The host port at reset (16; 20 Table 20-4: bus mastering off, MSI-X disabled, HDM decoders disabled). MSI-X vector
control words are masked (PRESUMED, log entry 11: PCIe's reset value). -/
def HostPort.reset : HostPort :=
  { busMaster := false, msixEnable := false, hdmEnabled := false, hdmEnabled1 := false, bar0 := 0, bar2 := 0, qps := Vector.replicate 64 Qp.reset,
    mbox := { cmd := 0, reply := 0, busy := false },
    irq := { eventVec := 0, engineVec := 0, mboxVec := 0, eventEn := false, engineEn := false, mboxEn := false },
    link := Link.reset, dbgRefusals := 0, dbgGallery := 0, latches := [], msixTable := [], msixPending := 0,
    raised := [], readData := [], readPoison := false, longWork := [], hostLines := [] }

/-- The DRBG at reset (12 Tables 12-4 to 12-6): not instantiated, working state zero (12 Table 12-3). -/
def Drbg.reset : Drbg :=
  { reseeds := 0, fills := 0, error := false, reseeding := false, instantiated := false, esOk := false, rctFails := 0,
    aptFails := 0, requests := 0, key := 0, v := 0, fresh := false }

/-- Boot and security state at reset (19 Tables 19-11 to 19-16, R413). The boot fields hold 0 until BOOT (DESIGN
CHOICE, log entry 2), the challenge 0 until BOOT draws it (DESIGN CHOICE, log entry 12). -/
def Security.reset : Security :=
  { bootSvn := 0, abDiffer := false, bReason := 0, aReason := 0, recovery := false, certOk := false, slotB := false, fwVersion := 0,
    unlockFails := 0, sinceReset := false, debug := false, challenge := 0, pkFails := 0, selfFails := 0,
    pkBusy := false, pkCycles := 0, sessions := Vector.replicate 4 { inUse := false, keyed := false, updates := 0, keys := 0 },
    spdmReply := [], tourLog := 0, tourCount := 0, mctpEid := 0, smbusAddr := 0x4C, mctpReply := [] }

/-- Power at reset (20 Tables 20-7 to 20-12): STATE BOOT, LIMIT 0x8FC (2,300 W). -/
def Power.reset : Power :=
  { state := .boot, emergency := false, emergencyCode := 0, vin := 0, pin := 0, limit := 0x8FC, powerFault := false,
    thermalAbort := false, thermWarn := false, droop := false, powerFaults := 0, thermalAborts := 0, thermWarns := 0,
    droops := 0, resetCause := 0, attempts := 0, senseClosed := true, perst := false, excessWindows := 0,
    maxExcess := 0 }

/-- The module right after a power-on reset, in BOOT, before the ROM has run (log entries 1 and 2). -/
def State.reset : State :=
  { pending := [], freeCount := 0, hostMem := [],
    fuses := { galleryMap := 0xFFFFFFFF, svnBlown := 0, debugDisabled := false },
    flash := [], time := TimeSt.reset, gals := Vector.replicate 32 Gallery.reset, bridge := Bridge.reset,
    useLog := [], held := [], cat := Catalogue.reset, rst := Restoration.reset, tours := [], booked := [], dma := Engine.reset,
    hbm := Hbm.reset, vault := Vault.resetOn Medium.blank, host := HostPort.reset, fab := Fabric.reset,
    health := Health.reset, drbg := Drbg.reset, sec := Security.reset, power := Power.reset, mon := Monitors.reset }

end Sys2Proof.Machine
end

