-- ==== Sys2Proof/Machine/Flags.lean ====
section
/-!
DEFINITION. Sys2Proof/Machine/Flags.lean: status codes, event counters and the access types of register fields.
-/

set_option Elab.async false

namespace Sys2Proof.Machine

/-! ### Status codes (16 Table 16-8) -/

def stOk : BitVec 16 := 0x0000
def stDeferred : BitVec 16 := 0x0001
def stBadOpcode : BitVec 16 := 0x0100
def stBadParam : BitVec 16 := 0x0101
def stNotReady : BitVec 16 := 0x0102
def stKeyMismatch : BitVec 16 := 0x0200
def stLevelUnderflow : BitVec 16 := 0x0201
def stBudgetExhausted : BitVec 16 := 0x0202
def stScaleMismatch : BitVec 16 := 0x0203
def stDeadlineMissed : BitVec 16 := 0x0300
def stLateRelease : BitVec 16 := 0x0301
def stTourOverrun : BitVec 16 := 0x0302
def stStoreBusy : BitVec 16 := 0x0303
def stRegionPoisoned : BitVec 16 := 0x0400
def stSealedAccess : BitVec 16 := 0x0401
def stAddressRange : BitVec 16 := 0x0402
def stDmaAborted : BitVec 16 := 0x0500
def stBusError : BitVec 16 := 0x0501
def stVaultUncorrectable : BitVec 16 := 0x0600
def stReplicaConflict : BitVec 16 := 0x0601
def stVaultFull : BitVec 16 := 0x0602
def stPkFail : BitVec 16 := 0x0700
def stAuthFail : BitVec 16 := 0x0701
def stUnreachable : BitVec 16 := 0x0800
def stStaleEpoch : BitVec 16 := 0x0801
def stDivergence : BitVec 16 := 0x0802
def stNotPortable : BitVec 16 := 0x0900
def stPowerFault : BitVec 16 := 0x0A00
def stThermalAbort : BitVec 16 := 0x0A01
def stResidueCheck : BitVec 16 := 0x0B00

/-- A status whose high byte is 0x00 reports acceptance, any other failure (00 R12). -/
def accepts (st : BitVec 16) : Bool := st.toNat / 256 == 0

/-! ### Event counters (00 R8) -/

/-- An 8-bit event counter advances by one and stops at 255. -/
def bump8 (c : BitVec 8) : BitVec 8 := if c = 255 then 255 else c + 1

/-- An 8-bit event counter advances by `n` and stops at 255. -/
def bumpBy8 (c : BitVec 8) (n : Nat) : BitVec 8 := BitVec.ofNat 8 (min 255 (c.toNat + n))

/-- A 16-bit event counter stops at 65,535 (14 Table 14-10). -/
def bump16 (c : BitVec 16) : BitVec 16 := if c = 0xFFFF then 0xFFFF else c + 1

/-- A 24-bit event counter stops at its largest value (11 Table 11-10). -/
def bump24 (c : BitVec 24) : BitVec 24 := if c = 0xFFFFFF then 0xFFFFFF else c + 1

/-- A 32-bit counter advances by `n` and stops at 2^32 - 1 (08 R177, 14 Table 14-15). -/
def bumpBy32 (c : Word) (n : Nat) : Word := BitVec.ofNat 32 (min 0xFFFFFFFF (c.toNat + n))

/-- A 64-bit counter advances by `n` and stops at 2^64 - 1 (21). -/
def bumpBy64 (c : Quad) (n : Nat) : Quad := BitVec.ofNat 64 (min 0xFFFFFFFFFFFFFFFF (c.toNat + n))

/-- A field of 1 bit of a register value. -/
def bitAt (v : Nat) (i : Nat) : Bool := v.testBit i

/-- The field [lo + w - 1 : lo] of a value read as one little-endian integer (00 R4). -/
def fieldAt (v lo w : Nat) : Nat := (v >>> lo) % 2 ^ w

/-- 1 or 0. -/
def bit01 (b : Bool) : Nat := if b then 1 else 0

/-- RW1C: a 1 written clears the bit, a 0 has no effect (00 Table 00-4). -/
def clear1 (cur : Bool) (written : Bool) : Bool := cur && !written

end Sys2Proof.Machine
end

