-- ==== Sys2Proof/Machine/Ops.lean ====
section
/-!
DEFINITION. Sys2Proof/Machine/Ops.lean: the named operations over State: sparse memories, bytes, the parts of the
module by number, HBM with its ECC and atomic ranges, host memory, interrupts, the entries the Docent writes, and the
clearing that resets and ends of tours share.
-/

set_option Elab.async false

namespace Sys2Proof.Machine

/-- What a meaning answers. -/
abbrev Out := Host.Outcome State Fault Refusal

/-! ### Sparse memories -/

/-- The value at key `k`; an unlisted key reads as `d`. -/
def smGet {α : Type} (d : α) (k : Nat) : SMem α → α
  | [] => d
  | p :: m => if p.1 = k then p.2 else smGet d k m

/-- Writes `v` at key `k`, keeping the canonical form: writing `d` removes the entry. -/
def smSet {α : Type} [DecidableEq α] (d : α) (k : Nat) (v : α) : SMem α → SMem α
  | [] => if v = d then [] else [(k, v)]
  | p :: m =>
    if k < p.1 then (if v = d then p :: m else (k, v) :: p :: m)
    else if k = p.1 then (if v = d then m else (k, v) :: m)
    else p :: smSet d k v m

/-- The pairs of values from key `k` on, less those equal to the default. -/
def smCells {α : Type} [DecidableEq α] (d : α) : Nat → List α → SMem α
  | _, [] => []
  | k, v :: vs => if v = d then smCells d (k + 1) vs else (k, v) :: smCells d (k + 1) vs

/-- Writes the values from key `k` on. -/
def smPut {α : Type} [DecidableEq α] (d : α) (k : Nat) (vs : List α) (m : SMem α) : SMem α :=
  m.filter (fun p => decide (p.1 < k)) ++ (smCells d k vs ++ m.filter (fun p => decide (k + vs.length ≤ p.1)))

/-- Writes `v` at the `n` keys from `k` on. -/
def smFill {α : Type} [DecidableEq α] (d : α) (k n : Nat) (v : α) (m : SMem α) : SMem α :=
  m.filter (fun p => decide (p.1 < k)) ++
    ((if v = d then [] else (List.range n).map (fun i => (k + i, v))) ++
      m.filter (fun p => decide (k + n ≤ p.1)))

/-- The part of a memory whose keys lie in `n` from `k` on. -/
def smSpan {α : Type} (k n : Nat) (m : SMem α) : SMem α := m.filter (fun p => decide (k ≤ p.1 ∧ p.1 < k + n))

/-- The `n` values from key `k` on. -/
def smRead {α : Type} (d : α) (k n : Nat) (m : SMem α) : List α :=
  let near := smSpan k n m
  (List.range n).map (fun i => smGet d (k + i) near)

/-- The canonical form of a sparse memory: keys strictly rising, no entry equal to the default. -/
abbrev SmWf {α : Type} (d : α) (m : SMem α) : Prop :=
  m.Pairwise (fun a b => a.1 < b.1) ∧ ∀ p ∈ m, p.2 ≠ d

/-! ### Vectors by number -/

/-- Element `i` of a fixed group; `d` outside it. -/
def vget {α : Type} {n : Nat} (v : Vector α n) (i : Nat) (d : α) : α := (v[i]?).getD d

/-- The group with element `i` replaced; unchanged when there is no element `i`. -/
def vset {α : Type} {n : Nat} (v : Vector α n) (i : Nat) (a : α) : Vector α n := v.setIfInBounds i a

/-- The group with element `i` changed by `f`. -/
def vmod {α : Type} {n : Nat} (v : Vector α n) (i : Nat) (d : α) (f : α → α) : Vector α n := vset v i (f (vget v i d))

/-! ### Bytes (00 R4: little-endian) -/

/-- The `n` bytes of a number, lowest first. -/
def leBytes : Nat → Nat → List Byte
  | 0, _ => []
  | n + 1, v => BitVec.ofNat 8 v :: leBytes n (v / 256)

/-- The number that a list of bytes holds. -/
def leNat : List Byte → Nat
  | [] => 0
  | b :: bs => b.toNat + 256 * leNat bs

/-- The `n`-byte field at offset `o` of a list of bytes. -/
def bytesAt (bs : List Byte) (o n : Nat) : Nat := leNat ((bs.drop o).take n)

/-- A list of bytes of exactly `n`: cut, or filled up with zeros. -/
def padTo (n : Nat) (bs : List Byte) : List Byte := (bs ++ List.replicate (n - bs.length) 0).take n

/-- A signed reading of the low `w` bits. -/
def sext (w v : Nat) : Int := (BitVec.ofNat w v).toInt

/-- The sum of a list. -/
def sumNat (l : List Nat) : Nat := l.foldl (· + ·) 0

/-- Division rounded up. -/
def ceilDiv (a b : Nat) : Nat := (a + b - 1) / b

/-- Applies `f` to every number below `n` in turn. -/
def foldRange {α : Type} (n : Nat) (f : Nat → α → α) (a : α) : α := (List.range n).foldl (fun x i => f i x) a

/-! ### The grade (00 R2, 03, 14 R292) -/

/-- Galleries of the grade: the enabled sites of the gallery map (00 Table 00-2, 22 R456). -/
def numGal (s : State) : Nat := ((List.range 32).filter (fun i => s.fuses.galleryMap.getLsbD i)).length

/-- Galleries per compute die (01 R14). -/
def perDie (s : State) : Nat := numGal s / 2

/-- The physical site of gallery Gk: the (k + 1)-th lowest set bit of the gallery map (22 R456). -/
def siteOf (s : State) (g : Nat) : Nat := ((List.range 32).filter (fun i => s.fuses.galleryMap.getLsbD i)).getD g 32

/-- The compute die of a gallery: sites 0 to 15 lie on die 0 (22 R456, 01 R14). -/
def dieOf (s : State) (g : Nat) : Nat := if siteOf s g < 16 then 0 else 1

/-- The die-local index of a gallery (04 Table 04-2). -/
def localIdx (s : State) (g : Nat) : Nat := if g < perDie s then g else g - perDie s

/-- Bytes of one stack: 72 GiB. -/
def stackBytes : Nat := 77309411328
/-- Bytes of one half of a stack: 36 GiB. -/
def halfBytes : Nat := 38654705664
/-- Bytes of device memory: 576 GiB. -/
def hbmBytes : Nat := 618475290624

/-- The stack of a device byte address (14 R292). -/
def stackOf (a : Nat) : Nat := a / stackBytes

/-- The half of its stack (14 R292). -/
def halfOf (a : Nat) : Nat := (a % stackBytes) / halfBytes

/-- The stack is local to die 0 for S0-S3, to die 1 for S4-S7 (03 Table 03-6). -/
def stackDie (k : Nat) : Nat := if k < 4 then 0 else 1

/-! ### Parts of the module by number -/

def galOf (s : State) (g : Nat) : Gallery := vget s.gals g Gallery.reset
def setGal (s : State) (g : Nat) (x : Gallery) : State := { s with gals := vset s.gals g x }
def modGal (s : State) (g : Nat) (f : Gallery → Gallery) : State := setGal s g (f (galOf s g))
def modRegs (s : State) (g : Nat) (f : GalRegs → GalRegs) : State :=
  modGal s g (fun x => { x with regs := f x.regs })
def modCabRegs (s : State) (g : Nat) (f : CabRegs → CabRegs) : State :=
  modGal s g (fun x => { x with cabRegs := f x.cabRegs })
def modInv (s : State) (g : Nat) (f : InvGal → InvGal) : State :=
  modGal s g (fun x => { x with inv := f x.inv })
def modWork (s : State) (g : Nat) (f : Work → Work) : State :=
  modGal s g (fun x => { x with work := f x.work })

def rgnOf (s : State) (g r : Nat) : Region := vget (galOf s g).regions r Region.none
def setRgn (s : State) (g r : Nat) (x : Region) : State :=
  modGal s g (fun y => { y with regions := vset y.regions r x })
def modRgn (s : State) (g r : Nat) (f : Region → Region) : State := setRgn s g r (f (rgnOf s g r))

def stkOf (s : State) (k : Nat) : Stack := vget s.hbm.stks k Stack.reset
def modStk (s : State) (k : Nat) (f : Stack → Stack) : State :=
  { s with hbm := { s.hbm with stks := vmod s.hbm.stks k Stack.reset f } }

def chanOf (s : State) (n : Nat) : Channel := vget s.dma.chans n Channel.reset
def modChan (s : State) (n : Nat) (f : Channel → Channel) : State :=
  { s with dma := { s.dma with chans := vmod s.dma.chans n Channel.reset f } }

def qpOf (s : State) (q : Nat) : Qp := vget s.host.qps q Qp.reset
def modQp (s : State) (q : Nat) (f : Qp → Qp) : State :=
  { s with host := { s.host with qps := vmod s.host.qps q Qp.reset f } }

def portOf (s : State) (k : Nat) : Port := vget s.fab.ports k Port.reset
def modPort (s : State) (k : Nat) (f : Port → Port) : State :=
  { s with fab := { s.fab with ports := vmod s.fab.ports k Port.reset f } }

def winOf (s : State) (w : Nat) : LoanWindow := vget s.fab.windows w LoanWindow.closed
def modWin (s : State) (w : Nat) (f : LoanWindow → LoanWindow) : State :=
  { s with fab := { s.fab with windows := vmod s.fab.windows w LoanWindow.closed f } }

def groupOf (s : State) (g : Nat) : Group := vget s.fab.groups g Group.empty
def modGroup (s : State) (g : Nat) (f : Group → Group) : State :=
  { s with fab := { s.fab with groups := vmod s.fab.groups g Group.empty f } }

def unitOf (s : State) (u : Nat) : Unit16 := vget s.mon.units u Unit16.reset
def modUnit (s : State) (u : Nat) (f : Unit16 → Unit16) : State :=
  { s with mon := { s.mon with units := vmod s.mon.units u Unit16.reset f } }

def modHost (s : State) (f : HostPort → HostPort) : State := { s with host := f s.host }
def modPower (s : State) (f : Power → Power) : State := { s with power := f s.power }
def modTaps (s : State) (f : Taps → Taps) : State := { s with health := { s.health with taps := f s.health.taps } }
def modVault (s : State) (f : Vault → Vault) : State := { s with vault := f s.vault }
def modTime (s : State) (f : TimeSt → TimeSt) : State := { s with time := f s.time }

/-! ### Request lines (13 Table 13-4, R273) -/

/-- Requests that a line holds. -/
def lineCount (s : State) (line : Nat) : Nat := smGet 0 line s.dma.lines

/-- `n` requests arrive on a line; none is lost. -/
def raiseLine (line n : Nat) (s : State) : State :=
  { s with dma := { s.dma with lines := smSet 0 line (lineCount s line + n) s.dma.lines } }

/-- A burst takes one request of its line. -/
def takeLine (line : Nat) (s : State) : State :=
  { s with dma := { s.dma with lines := smSet 0 line (lineCount s line - 1) s.dma.lines } }

/-- The request line of a gallery's outbound window. -/
def windowLine (g : Nat) : Nat := 0x20 + g

/-! ### Free values (log entry 8) -/

/-- The next free value of width `w`, with the index advanced. -/
def freeBits (w : Nat) (s : State) : BitVec w × State :=
  (Config.freeValue w s.freeCount, { s with freeCount := s.freeCount + 1 })

/-- `n` free bytes. -/
def freeBytes (n : Nat) (s : State) : List Byte × State :=
  let (v, s) := freeBits (8 * n) s
  (leBytes n v.toNat, s)

/-- Lock-step comparison as every refusal rule sees it: LOCKSTEP_SET counts from its REPLY (16 R351). -/
def lockstepOn (s : State) : Bool :=
  let last := s.host.longWork.foldl (fun b w => match w.kind with | .lockstepSet _ enable => some enable | _ => b) .none
  last.getD s.fab.lockstep.enabled

/-! ### Interrupts (16 R357) -/

/-- Word 3 of an MSI-X table entry is its vector control; bit 0 masks it. Masked after reset (log entry 11). -/
def vectorMasked (s : State) (v : Nat) : Bool := bitAt (smGet (0 : Word) (4 * v + 3) s.host.msixTable).toNat 0 == false

/-- Sends vector `v`: nothing while MSI-X is disabled; a masked vector becomes pending (16 R357, as PCIe defines). The
table keeps its mask bits inverted, so that a table with nothing written is masked. -/
def raiseVec (s : State) (v : BitVec 6) : State :=
  if s.host.msixEnable = false then s
  else if vectorMasked s v.toNat then
    modHost s (fun h => { h with msixPending := h.msixPending ||| (1 <<< v.toNat) })
  else modHost s (fun h => { h with raised := v :: h.raised })

/-- Raises the module event vector, when it is enabled. -/
def raiseEvent (s : State) : State := if s.host.irq.eventEn then raiseVec s s.host.irq.eventVec else s

/-- A change of PWR_STATE.STATE raises EVENT_VEC (20, after R440). -/
def setPowerState (s : State) (p : PowerState) : State :=
  if s.power.state = p then s else raiseEvent (modPower s (fun x => { x with state := p }))

/-! ### Host memory -/

def hostGet (s : State) (a n : Nat) : List Byte := smRead 0 a n s.hostMem
def hostPut (s : State) (a : Nat) (bs : List Byte) : State := { s with hostMem := smPut 0 a bs s.hostMem }

/-- What the driver wrote into host memory before a doorbell. -/
def hostPutAll (s : State) (ws : HostWrites) : State := ws.foldl (fun x w => hostPut x w.1 w.2) s

/-! ### HBM (14 R292, R302 to R308) -/

/-- The open atomic range of a stack that holds byte address `a`, by its number. -/
def findRange (s : State) (a : Nat) : Option (Nat × AtomRange) :=
  let st := stkOf s (stackOf a)
  (List.range 16).findSome? (fun i =>
    match vget st.ranges i .none with
    | some r => if r.base ≤ a ∧ a < r.base + r.length then some (i, r) else .none
    | .none => .none)

/-- The byte that device memory holds at `a`: in an open atomic range the SRAM serves it (14 R308). -/
def hbmByte (s : State) (a : Nat) : Byte :=
  match findRange s a with
  | some (_, r) => smGet 0 a r.sram
  | .none => smGet 0 a s.hbm.mem

/-- No atomic range is open in a stack. -/
def noRange (s : State) (k : Nat) : Bool := (stkOf s k).ranges.toList.all (·.isNone)

/-- The `n` bytes of device memory from `a` on. -/
def hbmGet (s : State) (a n : Nat) : List Byte :=
  if noRange s (stackOf a) && noRange s (stackOf (a + n)) then smRead 0 a n s.hbm.mem
  else (List.range n).map (fun i => hbmByte s (a + i))

/-- The `n`-byte number at `a`. -/
def hbmNat (s : State) (a n : Nat) : Nat := leNat (hbmGet s a n)

/-- Writes one byte where device memory holds it. -/
def hbmSetByte (s : State) (a : Nat) (b : Byte) : State :=
  match findRange s a with
  | some (i, r) =>
    modStk s (stackOf a) (fun st => { st with ranges := vset st.ranges i (some { r with sram := smSet 0 a b r.sram }) })
  | .none => { s with hbm := { s.hbm with mem := smSet 0 a b s.hbm.mem } }

/-- Writes bytes from `a` on, one by one. -/
def hbmSetBytes : Nat → List Byte → State → State
  | _, [], s => s
  | a, b :: bs, s => hbmSetBytes (a + 1) bs (hbmSetByte s a b)

/-- Writes bytes from `a` on where device memory holds them, at once when no atomic range is near. -/
def hbmPutBytes (a : Nat) (bs : List Byte) (s : State) : State :=
  if noRange s (stackOf a) && noRange s (stackOf (a + bs.length)) then
    { s with hbm := { s.hbm with mem := smPut 0 a bs s.hbm.mem } }
  else hbmSetBytes a bs s

/-- Fills `n` bytes with 0, outside atomic ranges. -/
def hbmZero (s : State) (a n : Nat) : State := { s with hbm := { s.hbm with mem := smFill 0 a n 0 s.hbm.mem } }

/-- Line number of a byte address. -/
def lineOf (a : Nat) : Nat := a / 64

/-- A hub access to a line that the host may cache snoops it first (14 R302). -/
def snoopLine (s : State) (line : Nat) : State :=
  modHost s (fun h => { h with hostLines := h.hostLines.filter (· ≠ line) })

/-- Records an uncorrectable line delivered poisoned (14 R304): the counter, the record when it is free, and the
Conservator's own tap. Which of the pair's two pseudo-channels failed is a free value. -/
def countUe (source line : Nat) (s : State) : State :=
  let k := stackOf (line * 64)
  let (pc, s) := freeBits 1 s
  let l := (line * 64 % halfBytes) / 64
  let pair := 16 * halfOf (line * 64) + l % 16
  let s := modTaps s (fun t => { t with ue := t.ue + 1 })
  modStk s k (fun st =>
    if st.ueValid then { st with uncorrectable := bump8 st.uncorrectable }
    else { st with uncorrectable := bump8 st.uncorrectable, ueValid := true, ueSource := BitVec.ofNat 4 source,
                   uePc := BitVec.ofNat 6 (2 * pair + pc.toNat), ueLine := BitVec.ofNat 34 line })

/-- Counts a corrected line (14 R304) and remembers its period for R388. -/
def countCe (line : Nat) (s : State) : State :=
  let s := modTaps s (fun t => { t with ce := t.ce + 1 })
  let s := { s with hbm := { s.hbm with fixes := (line, s.health.periods) :: s.hbm.fixes } }
  modStk s (stackOf (line * 64)) (fun st => { st with corrected := bump16 st.corrected })

/-- Reads a line for its ECC outcome (14 R304, R308): whether it is delivered poisoned. -/
def readLineEcc (source line : Nat) (s : State) : Bool × State :=
  match findRange s (line * 64) with
  | some (_, r) => (r.poisoned.contains line, s)
  | .none =>
    if s.hbm.dead.contains line then (true, countUe source line s)
    else if s.hbm.weak.contains line then (false, countCe line s)
    else (false, s)

/-- A line of a byte range. -/
def inLines (a n line : Nat) : Bool := decide (a < line * 64 + 64) && decide (line * 64 < a + n)

/-- Lines of a byte range that are listed, each once. -/
def listedLines (ls : List Nat) (a n : Nat) : List Nat := (ls.filter (inLines a n)).eraseDups

/-- A hub access to a range snoops the lines that the host may cache (14 R302). -/
def snoopRange (a n : Nat) (s : State) : State :=
  modHost s (fun h => { h with hostLines := h.hostLines.filter (fun l => !inLines a n l) })

/-- Puts a number into its place in a rising list without repeats. -/
def insertRising (l : Nat) : List Nat → List Nat
  | [] => [l]
  | x :: xs => if l < x then l :: x :: xs else if l = x then x :: xs else x :: insertRising l xs

/-- The numbers of a list, rising and each once. -/
def sortRising : List Nat → List Nat
  | [] => []
  | l :: ls => insertRising l (sortRising ls)

/-- The ECC events of reading every line that `hit` picks, in order of their addresses (14 R304). -/
def eccLines (source : Nat) (hit : Nat → Bool) (s : State) : State :=
  let own := fun (l : Nat) => hit l && (findRange s (l * 64)).isNone
  let bad := sortRising (s.hbm.dead.filter own)
  let soft := sortRising (s.hbm.weak.filter (fun l => own l && !bad.contains l))
  soft.foldl (fun x l => countCe l x) (bad.foldl (fun x l => countUe source l x) s)

/-- The same for a hub access, which snoops the lines first (14 R302). -/
def noteLines (source : Nat) (hit : Nat → Bool) (s : State) : State :=
  eccLines source hit (modHost s (fun h => { h with hostLines := h.hostLines.filter (fun l => !hit l) }))

/-- The same for the lines of a range. -/
def noteRange (source a n : Nat) (s : State) : State := noteLines source (inLines a n) s

/-- A line of the range is delivered poisoned: uncorrectable, or so loaded into an atomic range. -/
def rangePoisoned (s : State) (a n : Nat) : Bool :=
  s.hbm.dead.any (fun l => inLines a n l && (findRange s (l * 64)).isNone) ||
    (List.range 8).any (fun k => (stkOf s k).ranges.toList.any (fun r =>
      match r with | some x => x.poisoned.any (inLines a n) | .none => false))

/-- A read of device memory by the Docent or by a DMA channel for itself: its ECC events count, and what a range with a poisoned line
delivers are free values (log entry 76). -/
def docentRead (a n : Nat) (s : State) : List Byte × State :=
  if rangePoisoned s a n then freeBytes n (noteRange 2 a n s) else (hbmGet s a n, noteRange 2 a n s)

/-- Reads `n` lines from line `l` on for their ECC outcomes; the first poisoned line is named. -/
def readLinesEcc (source : Nat) : Nat → Nat → State → Option Nat × State
  | 0, _, s => (.none, s)
  | n + 1, l, s =>
    let (bad, s) := readLineEcc source l (snoopLine s l)
    if bad then (some l, s) else readLinesEcc source n (l + 1) s

/-- A hub read of `n` bytes: its data up to the first poisoned line, that line, and the state. -/
def hubRead (s : State) (a n : Nat) : List Byte × Option Nat × State :=
  if n = 0 then ([], .none, s) else
  let (bad, s') := readLinesEcc 2 (lineOf (a + n - 1) - lineOf a + 1) (lineOf a) s
  match bad with
  | .none => (hbmGet s a n, .none, s')
  | some l => (hbmGet s a (l * 64 - a), some l, s')

/-- A write of part or all of one line (14 R306): a whole-line write replaces data and check symbols; a partial write
reads, modifies and writes the line, and leaves an uncorrectable line unchanged. A line loaded poisoned into an open atomic range keeps
its mark until the range has closed (18 Table 18-6). Answers whether it was written. -/
def hubWriteLine (s : State) (a : Nat) (bs : List Byte) : Bool × State :=
  let line := lineOf a
  let s := snoopLine s line
  match findRange s (line * 64) with
  | some (i, r) =>
    let put := fun (x : AtomRange) (y : State) => hbmPutBytes a bs
      (modStk y (stackOf a) (fun st => { st with ranges := vset st.ranges i (some x) }))
    if bs.length ≠ 64 ∧ r.poisoned.contains line then (false, s) else (true, put r s)
  | .none =>
    if bs.length = 64 then
      let s := { s with hbm := { s.hbm with weak := s.hbm.weak.filter (· ≠ line),
                                            dead := s.hbm.dead.filter (· ≠ line) } }
      (true, hbmPutBytes a bs s)
    else
      let (bad, s) := readLineEcc 2 line s
      if bad then (false, s)
      else
        let s := { s with hbm := { s.hbm with weak := s.hbm.weak.filter (· ≠ line) } }
        (true, hbmPutBytes a bs s)

/-- A hub write, line by line; stops at a line that a partial write may not change. Answers the bytes written. -/
def hubWriteFrom : Nat → Nat → List Byte → Nat → State → Nat × State
  | 0, _, _, done, s => (done, s)
  | fuel + 1, a, bs, done, s =>
    match bs with
    | [] => (done, s)
    | _ =>
      let n := 64 - a % 64
      let seg := bs.take n
      let (ok, s) := hubWriteLine s a seg
      if ok then hubWriteFrom fuel (a + seg.length) (bs.drop n) (done + seg.length) s else (done, s)

/-- A hub write of bytes from `a` on. -/
def hubWrite (s : State) (a : Nat) (bs : List Byte) : Nat × State := hubWriteFrom (bs.length + 1) a bs 0 s

/-- A long command of some kind is between its REPLY and its DONE. -/
def working (s : State) (p : LongKind → Bool) : Bool := s.host.longWork.any (fun w => p w.kind)

/-- The Vault is open, and no VAULT_CLOSE has its REPLY (16 R351). Until an open command completes nothing reaches the medium (15 R316). -/
def vaultOpenNow (s : State) : Bool := s.vault.isOpen && !working s (· == .vaultClose)

/-- The Vault counts as open for a refusal rule: from the REPLY of VAULT_OPEN on, until that of VAULT_CLOSE (16 R351). -/
def vaultDue (s : State) : Bool := (s.vault.isOpen || working s (· == .vaultOpen)) && !working s (· == .vaultClose)

/-- Stacks that a range of device bytes touches. -/
def rangeStacks (a n : Nat) : List Nat := (List.range (stackOf (a + n - 1) - stackOf a + 1)).map (stackOf a + ·)

/-- The stacks that a range of device bytes touches are all trained. -/
def hbmTrained (s : State) (a n : Nat) : Bool := (rangeStacks a n).all (fun k => s.hbm.trained.getLsbD k)

/-- Stacks that count as trained for every refusal rule: those trained, and those of an HBM_TRAIN from its REPLY on (16 R351). -/
def trainedOrDue (s : State) : BitVec 8 :=
  s.host.longWork.foldl (fun m w => match w.kind with | .hbmTrain k => m ||| k | _ => m) s.hbm.trained

/-- The stacks that a range of device bytes touches are trained as refusal rules see it (16 R351, R354). -/
def hbmUsable (s : State) (a n : Nat) : Bool := (rangeStacks a n).all (fun k => (trainedOrDue s).getLsbD k)

/-- Reads memory of either kind: a queue or payload in host memory or in HBM. -/
def locGet (s : State) (hbm : Bool) (a n : Nat) : List Byte := if hbm then hbmGet s a n else hostGet s a n

/-- A read of memory of either kind by the Docent or by a DMA channel for itself. -/
def locRead (hbm : Bool) (a n : Nat) (s : State) : List Byte × State := if hbm then docentRead a n s else (hostGet s a n, s)

/-- Writes memory of either kind. -/
def locPut (s : State) (hbm : Bool) (a : Nat) (bs : List Byte) : State :=
  if hbm then (hubWrite s a bs).2 else hostPut s a bs

/-! ### Entries the Docent writes (16 R341, R344, R346, R355) -/

/-- Header of Table 16-4, 8 bytes. -/
def entryHead (tag : BitVec 16) (phase : Bool) (kind qp : Nat) (st op : BitVec 16) : List Byte :=
  leBytes 2 tag.toNat ++ [BitVec.ofNat 8 (bit01 phase + 2 * kind), BitVec.ofNat 8 qp] ++
    leBytes 2 st.toNat ++ leBytes 2 op.toNat

def kindReply : Nat := 0
def kindA : Nat := 1
def kindB : Nat := 2
def kindDone : Nat := 3

/-- Reply entries of a queue pair: 2^RQ_LOG, with RQ_LOG held to 5 to 14 (16 Table 16-10). -/
def rqSize (Q : Qp) : Nat := 2 ^ max 5 (min 14 Q.rqLog.toNat)

/-- Submission entries of a queue pair: 2^SQ_LOG, with SQ_LOG held to 4 to 12 (16 Table 16-10). -/
def sqSize (Q : Qp) : Nat := 2 ^ max 4 (min 12 Q.sqLog.toNat)

/-- Writes one entry to the reply queue of queue pair `q` and raises its vector under R357. `body` is bytes 8 to 31. -/
def qpEntry (s : State) (q : Nat) (irq : Bool) (tag : BitVec 16) (kind : Nat) (st op : BitVec 16)
    (body : List Byte) : State :=
  let Q := qpOf s q
  let bs := entryHead tag Q.phase kind q st op ++ padTo 24 body
  let s := locPut s Q.rqLoc (Q.rqAddr.toNat * 64 + 32 * Q.rqTail.toNat) bs
  let t := (Q.rqTail.toNat + 1) % rqSize Q
  let s := modQp s q (fun x => { x with rqTail := BitVec.ofNat 16 t, phase := if t = 0 then !x.phase else x.phase })
  if Q.irqEn && (irq || !accepts st || kind == kindB || kind == kindDone) then raiseVec s Q.vector else s

/-- Writes the final entry of a mailbox command, clears BUSY and raises MBOX_VEC (16 R346, R357). Its PHASE bit is a
free value: the spec gives PHASE to reply queues alone. -/
def mboxEntry (s : State) (tag : BitVec 16) (st op : BitVec 16) (body : List Byte) : State :=
  let (ph, s) := freeBits 1 s
  let bs := entryHead tag (ph == 1) kindReply 0xFF st op ++ padTo 24 body
  let s := modHost s (fun h => { h with mbox := { h.mbox with reply := BitVec.ofNat 256 (leNat bs), busy := false } })
  if s.host.irq.mboxEn then raiseVec s s.host.irq.mboxVec else s

/-- What a command answers: its status, DETAIL, RESULT and, for an accepted long command, the work that remains. -/
structure Answer where
  status : BitVec 16
  detail : Nat
  result : List Byte
  work   : Option LongKind
  deriving DecidableEq, Repr

def ansOk : Answer := { status := stOk, detail := 0, result := [], work := .none }
def ansRes (r : List Byte) : Answer := { status := stOk, detail := 0, result := r, work := .none }
def ansFail (st : BitVec 16) : Answer := { status := st, detail := 0, result := [], work := .none }
def ansFailAt (st : BitVec 16) (d : Nat) : Answer := { status := st, detail := d, result := [], work := .none }
def ansLong (k : LongKind) : Answer := { status := stOk, detail := 0, result := [], work := some k }

/-- DETAIL of Table 16-4: step or primitive index, gallery, block. -/
def detailOf (step g block : Nat) : Nat := step % 65536 + 65536 * (g % 32) + 2097152 * (block % 16)

/-- Bytes 8 to 31 of a REPLY or DONE entry. RESULT is zero on refusal (16 Table 16-4). -/
def answerBody (a : Answer) : List Byte :=
  leBytes 4 a.detail ++ leBytes 4 0 ++ padTo 16 (if accepts a.status then a.result else [])

/-- Writes the REPLY of a command (16 R341, R346, R350). An accepted long command of the mailbox writes nothing yet:
its final entry comes with its DONE. -/
def writeReply (s : State) (h : Hdr) (op : BitVec 16) (a : Answer) : State :=
  match h.src, a.work with
  | .qp q, .none => qpEntry s q.toNat h.irq h.tag kindReply a.status op (answerBody a)
  | .qp q, some k =>
    let s := qpEntry s q.toNat h.irq h.tag kindReply a.status op (answerBody a)
    let s := modQp s q.toNat (fun x => { x with longs := x.longs + 1 })
    modHost s (fun p => { p with longWork := p.longWork ++ [{ hdr := h, opcode := op, kind := k }] })
  | .mbox, .none => mboxEntry s h.tag a.status op (answerBody a)
  | .mbox, some k =>
    modHost s (fun p => { p with longWork := p.longWork ++ [{ hdr := h, opcode := op, kind := k }] })

/-- Writes the DONE entry of a long command (16 R350; the mailbox's final entry, R346). -/
def writeDone (s : State) (h : Hdr) (op : BitVec 16) (a : Answer) : State :=
  match h.src with
  | .qp q =>
    let s := modQp s q.toNat (fun x => { x with longs := x.longs - 1 })
    qpEntry s q.toNat h.irq h.tag kindDone a.status op (answerBody a)
  | .mbox => mboxEntry s h.tag a.status op (answerBody a)

/-- The Docent serves commands: it has started and the module is powered (20 Table 20-2, R431). -/
def docentUp (s : State) : Bool := s.power.state == .idle || s.power.state == .active

/-- The Docent or the recovery image runs, so a command can end. -/
def firmwareRuns (s : State) : Bool := docentUp s || s.power.state == .recovery

/-- The hub is powered and out of reset (20 Table 20-2, R431). -/
def hubRuns (s : State) : Bool :=
  s.power.state != .off && s.power.state != .sequencing && s.power.state != .latchedOff && !s.power.perst

/-- In RECOVERY the recovery image accepts IDENTIFY, FIRMWARE_WRITE and MODULE_RESET through the mailbox and answers
every other command NOT_READY (19 R408). -/
def recoveryTakes (op : BitVec 16) : Bool := op == 0x0100 || op == 0x0703 || op == 0x0104

/-- One command of Table 16-6, taken and executed: its meaning `f` answers and changes the state, then its REPLY is
written. When no Docent runs, no command is taken and nothing happens (log entry 7). -/
def command (h : Hdr) (op : BitVec 16) (f : State → Answer × State) (s : State) : State :=
  if docentUp s then
    let r := f s
    writeReply r.2 h op r.1
  else if s.power.state = .recovery then
    match h.src with
    | .qp _ => s
    | .mbox =>
      if recoveryTakes op then
        let r := f s
        writeReply r.2 h op r.1
      else writeReply s h op (ansFail stNotReady)
  else s

/-- A host address while bus mastering is off is refused with NOT_READY (16 R354). -/
def hostReady (s : State) : Bool := s.host.busMaster

/-! ### Regions of the cabinets -/

/-- Words of a declared region: its physical addresses run from BASE_ROW x 256 on. -/
def rgnBase (r : Region) : Nat := r.baseRow.toNat * 256
def rgnWords (r : Region) : Nat := r.rows.toNat * 256

/-- Poisons a region with a status (04 R94): READY of an internal region falls (10 R227). -/
def poisonRgn (st : BitVec 16) (r : Region) : Region :=
  { r with poisoned := true, poisonCode := st, ready := if r.feed = 0 then false else r.ready }

/-- Clears POISONED; POISON_CODE reads 0 while POISONED is 0 (04 Table 04-4). -/
def unpoisonRgn (r : Region) : Region := { r with poisoned := false, poisonCode := 0 }

/-- READY becomes 1; `readyTick` keeps the tick of the last rise (21 R445). -/
def readyRgn (now : Nat) (r : Region) : Region :=
  if r.ready then r else { r with ready := true, readyTick := now }

/-- The declared region of a gallery that holds physical word `pa`. -/
def rgnAt (s : State) (g pa : Nat) : Option Nat :=
  (List.range 64).find? (fun j =>
    let r := rgnOf s g j
    r.valid && decide (rgnBase r ≤ pa) && decide (pa < rgnBase r + rgnWords r))

/-- Physical word of element (r, c) of a 2D region (04 R75). -/
def pa2D (rg : Region) (r c : Nat) : Nat :=
  (rg.baseRow.toNat + r * rg.wblk.toNat + c / 256) * 256 + (r + c) % 256

/-- Zero-fills the words of a region (04 R92). -/
def zeroRgnWords (s : State) (g j : Nat) : State :=
  let r := rgnOf s g j
  modGal s g (fun x => { x with cab := smFill 0 (rgnBase r) (rgnWords r) 0 x.cab })

/-- A cabinet word. -/
def cabWord (s : State) (g pa : Nat) : Word := smGet 0 pa (galOf s g).cab

/-! ### Tours -/

def tourOf (s : State) (id : Quad) : Option Tour := s.tours.find? (fun t => t.tourId == id)

/-- Changes the tour of that TOUR_ID. -/
def modTour (s : State) (id : Quad) (f : Tour → Tour) : State :=
  { s with tours := s.tours.map (fun t => if t.tourId == id then f t else t) }

/-- A tour that is loaded (from the REPLY of its load on, 16 R351), or accepted and not completed. -/
def tourLive (t : Tour) : Bool := t.state != .completed
def tourAccepted (t : Tour) : Bool := t.state == .accepted || t.state == .running
def anyLive (s : State) : Bool := s.tours.any tourLive || working s (fun k => match k with | .tourLoad .. => true | _ => false)
def anyAccepted (s : State) : Bool := s.tours.any tourAccepted

/-- A tour's galleries, in ascending order. -/
def maskList (m : BitVec 32) : List Nat := (List.range 32).filter (fun i => m.getLsbD i)

/-- A half of a stack claimed by a loaded or accepted tour (11 R236). -/
def halfClaimed (s : State) (k h : Nat) : Bool :=
  s.tours.any (fun t => tourLive t && t.claims.any (fun c => c.stack == k && c.half == decide (h = 1)))

/-! ### Resets (20 Table 20-3) -/

/-- Bytes of an extent, slots of a block stripe, and block stripes of the raw medium (15, before R314). -/
def extBytes : Nat := 8388608
def stripeSlots : Nat := 32
def stripeCount : Nat := 40960

/-- Bytes of extent writes that the Vault takes before MEAN_ERASES reaches 5,000 (15 R332). -/
def enduranceBytes : Nat := 44 * 10 ^ 15

/-- Erase counts beyond the common one, of the stripes in use. -/
def extraErases (m : Medium) : List Nat := (m.erases.filter (fun p => !m.retired.contains p.1)).map (·.2)

/-- MEAN_ERASES (15 Table 15-9). It does not reach 5,000 before 44 PB of extents have been written (R332; log entry 81). -/
def meanErases (m : Medium) : Nat :=
  let mean := m.eraseBase + (extraErases m).foldl (· + ·) 0 / max 1 m.goodStripes
  if m.bytesWritten < enduranceBytes then min mean 4999 else mean

/-- MAX_ERASES (15 Table 15-9). -/
def maxErases (m : Medium) : Nat := m.eraseBase + (extraErases m).foldl max 0

/-- The medium without the data of the slots that `gone` picks. -/
def dropData (gone : Nat → Bool) (m : Medium) : Medium := { m with data := m.data.filter (fun p => !gone (p.1 / extBytes)) }

/-- The medium once the extent writes in progress are given up: nothing of what they programmed stays readable (15 R318; 12 R268). -/
def abandonWrites (v : Vault) : Medium := dropData (fun k => v.inFlight.any (fun w => w.slot == k)) v.medium

/-- MEAN_ERASES of VLT_ERASE: 0 before the Vault has been opened (15, after Table 15-10). -/
def meanErasesRead (s : State) : Nat := if s.vault.eraseRead then meanErases s.vault.medium else 0

/-- First byte of a slot of the boot flash (19, before R404). -/
def slotBase (b : Bool) : Nat := if b then 0x1000000 else 0

/-- A held access that reaches no cabinet: a burst or a host access of device memory, or a packet. -/
def heldOutside (h : HeldAccess) : Bool :=
  match h with
  | .burst _ _ | .cxl _ _ _ | .packet .. => true
  | .word .. | .bar2 .. | .opening .. => false

/-- Every gallery, the die bridge's crossings and the record of cabinet uses, as a reset that affects galleries leaves
them; the zeroization of the cabinets has landed before a gallery clock can start (04 R93). -/
def clearGalleries (s : State) : State :=
  { s with gals := Vector.replicate 32 Gallery.reset, useLog := [], held := s.held.filter heldOutside, bridge := Bridge.reset,
           fab := { s.fab with groups := s.fab.groups.map (fun x => { x with regions := [] }) } }

/-- The Conservator, the DMA engine, Catalogue, keys and all that Table 20-3 groups with the Docent, at their reset
values, together with HBM, fabric and time: what power-on, PERST# and DEVICE resets share (20 R429, R432). `cause` goes
to PWR_RESET_CAUSE. The Vault medium, flash and fuses stay; so do the power-stage loops' state and what waits in the
queue of the model. Of the host port the link, the BAR addresses and the MSI-X table are for the caller; bus mastering, MSI-X and the
HDM decoders are off (R432; log entry 84). -/
def deviceReset (cause : BitVec 3) (s : State) : State :=
  { clearGalleries s with
    held := [], time := TimeSt.reset,
    cat := Catalogue.reset, rst := Restoration.reset, tours := [], booked := [], dma := Engine.reset,
    hbm := Hbm.reset, vault := { Vault.resetOn (abandonWrites s.vault) with wearRead := s.vault.wearRead },
    host := { HostPort.reset with bar0 := s.host.bar0, bar2 := s.host.bar2, link := s.host.link,
                                  msixTable := s.host.msixTable, msixPending := s.host.msixPending,
                                  raised := s.host.raised },
    fab := Fabric.reset, health := Health.reset, drbg := Drbg.reset,
    sec := { Security.reset with sinceReset := false },
    power := { Power.reset with vin := s.power.vin, pin := s.power.pin, limit := 0x8FC,
                                resetCause := cause, attempts := s.power.attempts,
                                senseClosed := s.power.senseClosed, perst := s.power.perst, state := .boot },
    mon := Monitors.reset }

end Sys2Proof.Machine
end

