-- ==== Sys2Proof/Machine/Image.lean ====
section
/-!
DEFINITION. Sys2Proof/Machine/Image.lean: reading a tour package, its images, steps, blocks and tables (10).
A reader `Rd` gives the number held in `n` bytes from an offset of an image.
-/

set_option Elab.async false

namespace Sys2Proof.Machine

/-- Reads `n` bytes at an offset as a little-endian number. -/
abbrev Rd := Nat → Nat → Nat

/-- Reads from a sparse store (a tour-store bank). -/
def storeRd (m : SMem Byte) : Rd := fun o n => leNat (smRead 0 o n m)

/-- Reads from bytes, offset by `base`. -/
def bytesRd (bs : Array Byte) (base : Nat) : Rd :=
  fun o n => leNat ((List.range n).map (fun i => bs.getD (base + o + i) 0))

/-- Reads twiddle words. -/
abbrev TwRd := Nat → Nat

/-! ### The image (10 Tables 10-3, 10-4) -/

def imgBytes (rd : Rd) : Nat := rd 0x10 4
def imgSteps (rd : Rd) : Nat := rd 0x14 4
def imgForm (rd : Rd) : Nat := rd 0x06 1
def imgTwWords (rd : Rd) : Nat := rd 0x1C 4

/-- A directory entry: TYPE, COUNT, offset. -/
structure DirEnt where
  type   : Nat
  count  : Nat
  offset : Nat
  deriving DecidableEq, Repr

/-- The table directory (10, after Table 10-3). -/
def imgDir (rd : Rd) : List DirEnt :=
  (List.range (rd 0x22 1)).map (fun i =>
    let e := rd (rd 0x18 4 + 8 * i) 8
    { type := fieldAt e 0 8, count := fieldAt e 8 16, offset := fieldAt e 32 32 })

/-- The first table of a type. -/
def imgTable (rd : Rd) (ty : Nat) : Option DirEnt := (imgDir rd).find? (fun d => d.type == ty)

/-- Modulus tables in directory order. -/
def imgModTabs (rd : Rd) : List DirEnt := (imgDir rd).filter (fun d => d.type == 3)

/-- A modulus table entry (05 Table 05-1). -/
structure ModEnt where
  q      : Nat
  mu     : Nat
  fold   : Nat
  k      : Nat
  logN   : Nat
  twBase : Nat
  deriving DecidableEq, Repr

def ModEnt.none : ModEnt := { q := 0, mu := 0, fold := 0, k := 0, logN := 0, twBase := 0 }

/-- Reads a modulus entry from its 16 bytes. -/
def modEntOf (e : Nat) : ModEnt :=
  { q := fieldAt e 0 32, mu := fieldAt e 32 32, fold := fieldAt e 64 32, k := fieldAt e 96 5,
    logN := fieldAt e 104 5, twBase := fieldAt e 111 17 }

/-- Entry `i` of modulus table `t`, when the image has it. -/
def imgModEnt (rd : Rd) (t i : Nat) : Option ModEnt :=
  match (imgModTabs rd)[t]? with
  | some d => if i < d.count then some (modEntOf (rd (d.offset + 16 * i) 16)) else .none
  | .none => .none

/-- A region entry (10 Table 10-16). -/
structure RgnEnt where
  region : Nat
  ras    : Bool
  feed   : Nat
  deriving DecidableEq, Repr

def imgRegions (rd : Rd) : List RgnEnt :=
  match imgTable rd 2 with
  | some d => (List.range d.count).map (fun i =>
      let e := rd (d.offset + 4 * i) 4
      { region := fieldAt e 0 6, ras := bitAt e 6, feed := fieldAt e 8 3 })
  | .none => []

/-- Entry `i` of a fixed-size table of a type, as a number of `sz` bytes. -/
def imgEntry (rd : Rd) (ty sz i : Nat) : Nat :=
  match imgTable rd ty with
  | some d => if i < d.count then rd (d.offset + sz * i) sz else 0
  | .none => 0

/-- Seed `i` (12 R248). -/
def imgSeed (rd : Rd) (i : Nat) : Nat := imgEntry rd 5 8 i

/-- Byte `lane` of lane table `i` (04 R89). -/
def laneTab (rd : Rd) (i lane : Nat) : Nat :=
  match imgTable rd 4 with
  | some d => if i < d.count then rd (d.offset + 256 * i + lane) 1 else 0
  | .none => 0

/-- A block list (09 Table 09-5) with its entries' offset in the image. -/
structure BlockList where
  region : Nat
  rate   : Nat
  count  : Nat
  pitch  : Nat
  at_    : Nat
  deriving DecidableEq, Repr

/-- Block lists lie one after the other, each as long as its COUNT says. -/
def blockListsFrom (rd : Rd) : Nat → Nat → List BlockList
  | 0, _ => []
  | n + 1, o =>
    let c := rd (o + 2) 2
    { region := rd o 1, rate := rd (o + 1) 1, count := c, pitch := rd (o + 4) 4, at_ := o + 16 } ::
      blockListsFrom rd n (o + 16 + 4 * c)

def imgLists (rd : Rd) : List BlockList :=
  match imgTable rd 7 with
  | some d => blockListsFrom rd d.count d.offset
  | .none => []

/-- OFFSET of entry `e` of a block list. -/
def listOffset (rd : Rd) (l : BlockList) (e : Nat) : Nat := fieldAt (rd (l.at_ + 4 * e) 4) 0 22

/-- A run of a stream schedule (14 Table 14-3). -/
structure Run where
  tick    : Nat
  count   : Nat
  slots   : Nat
  lineSet : Nat
  stride  : Int
  deriving DecidableEq, Repr

/-- A stream schedule (14 Table 14-3). -/
structure Sched where
  stack : Nat
  half  : Nat
  write : Bool
  runs  : List Run
  deriving DecidableEq, Repr

def readRun (rd : Rd) (o : Nat) : Run :=
  let e := rd o 32
  { tick := fieldAt e 0 32, count := fieldAt e 32 32, slots := fieldAt e 64 64, lineSet := fieldAt e 128 26,
    stride := sext 24 (fieldAt e 160 24) }

/-- Schedules lie one after the other, each as long as its RUNS says. -/
def schedsFrom (rd : Rd) : Nat → Nat → List Sched
  | 0, _ => []
  | n + 1, o =>
    let h := rd o 16
    let r := fieldAt h 32 16
    { stack := fieldAt h 0 3, half := fieldAt h 3 1, write := bitAt h 4,
      runs := (List.range r).map (fun i => readRun rd (o + 16 + 32 * i)) } :: schedsFrom rd n (o + 16 + 32 * r)

def imgScheds (rd : Rd) : List Sched :=
  match imgTable rd 8 with
  | some d => schedsFrom rd d.count d.offset
  | .none => []

/-- Slots set in a run's pattern, in ascending order. -/
def slotList (slots : Nat) : List Nat := (List.range 64).filter (fun i => bitAt slots i)

/-- A word set of a stream: its tick offset, slot and line set (14 R298). -/
structure StreamWord where
  tick    : Nat
  slot    : Nat
  lineSet : Int
  deriving DecidableEq, Repr

/-- Word set `i` of a run. -/
def runWord (r : Run) (i : Nat) : Option StreamWord :=
  let sl := slotList r.slots
  if i < r.count ∧ 0 < sl.length then
    some { tick := r.tick + i / sl.length, slot := sl.getD (i % sl.length) 0,
           lineSet := (r.lineSet : Int) + i * r.stride }
  else .none

/-- Word set `k` of a schedule, counted across its runs in entry order. -/
def schedWord : List Run → Nat → Option StreamWord
  | [], _ => .none
  | r :: rs, k => if k < r.count then runWord r k else schedWord rs (k - r.count)

/-- Device address of a word set of a schedule. -/
def streamAddr (sc : Sched) (w : StreamWord) : Nat :=
  sc.stack * stackBytes + sc.half * halfBytes + w.lineSet.toNat * 1024

/-- Cycle within its tick at which a slot begins (14 R293). -/
def slotCycle (slot : Nat) : Nat := (25 * slot + 15) / 16

/-! ### Steps (10 Tables 10-5 to 10-15) -/

/-- A step: its header fields and the blocks present, each block as one 256-bit number. -/
structure StepV where
  launch  : Nat
  dur     : Nat
  blocks  : Nat
  rdMask  : Nat
  wrMask  : Nat
  relMask : Nat
  loop    : Option Nat
  key     : Option Nat
  intake  : Option Nat
  xform   : Option Nat
  mul     : Option Nat
  acc     : Option Nat
  vec     : Option Nat
  out     : Option Nat
  engine  : Option Nat
  offset  : Nat
  deriving DecidableEq, Repr

/-- Bits set below bit `i`. -/
def popBelow (v i : Nat) : Nat := ((List.range i).filter (fun j => bitAt v j)).length

/-- The block of bit `i`, when BLOCKS has it. -/
def stepBlock (rd : Rd) (o blocks i : Nat) : Option Nat :=
  if bitAt blocks i then some (rd (o + 32 + 32 * popBelow blocks i) 32) else .none

/-- Reads the step at an offset. -/
def readStep (rd : Rd) (o : Nat) : StepV :=
  let h := rd o 32
  let b := fieldAt h 54 10
  { launch := fieldAt h 0 32, dur := fieldAt h 32 22, blocks := b, rdMask := fieldAt h 64 64,
    wrMask := fieldAt h 128 64, relMask := fieldAt h 192 64,
    loop := stepBlock rd o b 0, key := stepBlock rd o b 1, intake := stepBlock rd o b 2, xform := stepBlock rd o b 3,
    mul := stepBlock rd o b 4, acc := stepBlock rd o b 5, vec := stepBlock rd o b 6, out := stepBlock rd o b 7,
    engine := stepBlock rd o b 8, offset := o }

/-- Steps follow one another without gaps. -/
def stepsFrom (rd : Rd) : Nat → Nat → List StepV
  | 0, _ => []
  | n + 1, o => let st := readStep rd o; st :: stepsFrom rd n (o + 32 + 32 * popBelow st.blocks 9)

def imgStepList (rd : Rd) : List StepV := stepsFrom rd (imgSteps rd) 0x40

/-- Step number `i`, found from the start. -/
def stepAt (rd : Rd) : Nat → Nat → StepV
  | 0, o => readStep rd o
  | i + 1, o => stepAt rd i (o + 32 + 32 * popBelow (readStep rd o).blocks 9)

def imgStep (rd : Rd) (i : Nat) : StepV := stepAt rd i 0x40

/-! ### Loop and generators (10 R217) -/

/-- COUNT0 to COUNT5 plus one. -/
def loopCounts (lp : Nat) : List Nat := (List.range 6).map (fun l => fieldAt lp (16 * l) 16 + 1)
def loopK (lp : Nat) : Nat := (loopCounts lp).foldl (· * ·) 1
def loopLimbGen (lp : Nat) : Nat := fieldAt lp 96 16
def loopModular (lp : Nat) : Bool := bitAt lp 112
def loopModTab (lp : Nat) : Nat := fieldAt lp 113 2
def loopT0 (lp : Nat) : Nat := fieldAt lp 128 22
def loopIssue (lp : Nat) : Nat := fieldAt lp 160 16

/-- The level counters of iteration `k`. -/
def loopCtr : List Nat → Nat → List Nat
  | [], _ => []
  | c :: cs, k => k % c :: loopCtr cs (k / c)

/-- Value of a generator record under level counters (10 R217). -/
def genRecValue (g : Nat) (ctr : List Nat) : Int :=
  (List.range 6).foldl (fun v l => v + (ctr.getD l 0 : Int) * sext 24 (fieldAt g (32 + 24 * l) 24)) (fieldAt g 0 32 : Int)

/-- Value of generator `i`; 0xFFFF names the constant 0. -/
def genValue (rd : Rd) (i : Nat) (ctr : List Nat) : Int :=
  if i = 0xFFFF then 0 else genRecValue (imgEntry rd 1 32 i) ctr

/-- An address-like consumer of a generator value. -/
def genNat (rd : Rd) (i : Nat) (ctr : List Nat) : Nat := (genValue rd i ctr).toNat

/-! ### Block fields by name (10 Tables 10-9 to 10-15) -/

def inASrc (b : Nat) : Nat := fieldAt b 0 4
def inBSrc (b : Nat) : Nat := fieldAt b 4 4
def inAShape (b : Nat) : Nat := fieldAt b 8 4
def inBShape (b : Nat) : Nat := fieldAt b 12 4
def inAGal (b : Nat) : Nat := fieldAt b 16 5
def inBGal (b : Nat) : Nat := fieldAt b 21 5
def inBMode (b : Nat) : Nat := fieldAt b 26 2
def inARgn (b : Nat) : Nat := fieldAt b 32 6
def inBRgn (b : Nat) : Nat := fieldAt b 38 6
def inALanes (b : Nat) : Nat := fieldAt b 44 8
def inBLanes (b : Nat) : Nat := fieldAt b 52 8
def inAGen (b : Nat) : Nat := fieldAt b 64 16
def inAGen2 (b : Nat) : Nat := fieldAt b 80 16
def inBGen (b : Nat) : Nat := fieldAt b 96 16
def inBGen2 (b : Nat) : Nat := fieldAt b 112 16
def inPermE (b : Nat) : Nat := fieldAt b 128 18
def inPermLogN (b : Nat) : Nat := fieldAt b 146 5
def inLtabEn (b : Nat) : Bool := bitAt b 151
def inLtab (b : Nat) : Nat := fieldAt b 152 4
def inListGen (b : Nat) : Nat := fieldAt b 160 16
def inList (b : Nat) : Nat := fieldAt b 176 4
def inAStream (b : Nat) : Nat := fieldAt b 180 4
def inBStream (b : Nat) : Nat := fieldAt b 184 4
def inTilePitch (b : Nat) : Nat := fieldAt b 192 20
def inTileRate (b : Nat) : Nat := fieldAt b 212 1

def xfInverse (b : Nat) : Bool := bitAt b 0
def xfLogN (b : Nat) : Nat := fieldAt b 1 5
def xfPass (b : Nat) : Nat := fieldAt b 6 3
def xfRadix (b : Nat) : Nat := fieldAt b 9 3
def xfDpos (b : Nat) : Nat := fieldAt b 12 3
def xfSwap (b : Nat) : Bool := bitAt b 15
def xfGlane (b : Nat) : Bool := bitAt b 16
def xfGlshift (b : Nat) : Nat := fieldAt b 17 5
def xfGgen (b : Nat) : Nat := fieldAt b 32 16

def mulWide (b : Nat) : Bool := bitAt b 0
def mulFmtA (b : Nat) : Nat := fieldAt b 4 4
def mulFmtB (b : Nat) : Nat := fieldAt b 8 4
def mulAscale (b : Nat) : Nat := fieldAt b 12 8
def mulCpGen (b : Nat) : Nat := fieldAt b 32 16
def mulSliceGen (b : Nat) : Nat := fieldAt b 48 16

def accFlag (b : Nat) : Bool := bitAt b 0
def accWrap (b : Nat) : Bool := bitAt b 1
def accSatc (b : Nat) : Nat := fieldAt b 4 4
def accRowGen (b : Nat) : Nat := fieldAt b 32 16

def vecOp (b : Nat) : Nat := fieldAt b 0 8
def vecX (b : Nat) : Nat := fieldAt b 8 3
def vecY (b : Nat) : Nat := fieldAt b 11 3
def vecZ (b : Nat) : Nat := fieldAt b 14 3
def vecKind (b : Nat) : Bool := bitAt b 17
def vecNegexp (b : Nat) : Bool := bitAt b 18
def vecM1 (b : Nat) : Bool := bitAt b 19
def vecTap (b : Nat) : Nat := fieldAt b 20 2
def vecRacc (b : Nat) : Bool := bitAt b 22
def vecTranspose (b : Nat) : Bool := bitAt b 23
def vecWb (b : Nat) : Nat := fieldAt b 24 2
def vecSatc (b : Nat) : Nat := fieldAt b 26 4
def vecDescEn (b : Nat) : Bool := bitAt b 30
def vecDesc (b : Nat) : Nat := fieldAt b 32 4
def vecSeed (b : Nat) : Nat := fieldAt b 36 4
def vecImm (b : Nat) : Nat := fieldAt b 64 32
def vecAccGen (b : Nat) : Nat := fieldAt b 96 16
def vecT1Gen (b : Nat) : Nat := fieldAt b 112 16
def vecT2Gen (b : Nat) : Nat := fieldAt b 128 16
def vecOcGen (b : Nat) : Nat := fieldAt b 144 16
def vecRsGen (b : Nat) : Nat := fieldAt b 160 16
def vecWbGen (b : Nat) : Nat := fieldAt b 176 16
def vecTrGen (b : Nat) : Nat := fieldAt b 192 16
def vecTcGen (b : Nat) : Nat := fieldAt b 208 16

def outDest (b : Nat) : Nat := fieldAt b 0 4
def outShape (b : Nat) : Nat := fieldAt b 4 4
def outDgal (b : Nat) : Nat := fieldAt b 8 5
def outDrgn (b : Nat) : Nat := fieldAt b 13 6
def outLanes (b : Nat) : Nat := fieldAt b 19 8
def outNfmt (b : Nat) : Nat := fieldAt b 27 4
def outShift (b : Nat) : Nat := fieldAt b 32 5
def outRmode (b : Nat) : Nat := fieldAt b 37 2
def outSeed (b : Nat) : Nat := fieldAt b 39 4
def outSseed (b : Nat) : Nat := fieldAt b 43 4
def outRateLog (b : Nat) : Nat := fieldAt b 47 4
def outSatc (b : Nat) : Nat := fieldAt b 51 4
def outWhole (b : Nat) : Bool := bitAt b 55
def outStream (b : Nat) : Nat := fieldAt b 56 4
def outLocal (b : Nat) : Bool := bitAt b 60
def outOwnBase (b : Nat) : Nat := fieldAt b 64 22
def outOwnWords (b : Nat) : Nat := fieldAt b 96 22
def outGen (b : Nat) : Nat := fieldAt b 128 16
def outGen2 (b : Nat) : Nat := fieldAt b 144 16
def outLidxGen (b : Nat) : Nat := fieldAt b 160 16
def outListGen (b : Nat) : Nat := fieldAt b 176 16
def outList (b : Nat) : Nat := fieldAt b 192 4
def outTilePitch (b : Nat) : Nat := fieldAt b 196 20
def outTileRate (b : Nat) : Nat := fieldAt b 216 1

def keyBinding (b : Nat) : Nat := fieldAt b 0 8
def keyKind (b : Nat) : Nat := fieldAt b 8 8
def keyAutoA (b : Nat) : Nat := fieldAt b 16 18
def keyLevel (b : Nat) : Nat := fieldAt b 34 6
def keyLogN (b : Nat) : Nat := fieldAt b 40 5
def keyDnum (b : Nat) : Nat := fieldAt b 45 4
def keyData (b : Nat) : Nat := fieldAt b 49 7
def keySpecial (b : Nat) : Nat := fieldAt b 56 5
def keyHdrB (b : Nat) : Bool := bitAt b 61
def keyHdrIter (b : Nat) : Nat := fieldAt b 64 32

def engFill (b : Nat) : Bool := fieldAt b 0 2 == 1
def engCopy (b : Nat) : Bool := fieldAt b 0 2 == 2
def engStart (b : Nat) : Nat := fieldAt b 2 22
def engLen (b : Nat) : Nat := fieldAt b 32 22
def engValue (b : Nat) : Nat := fieldAt b 64 32
def engSrc (b : Nat) : Nat := fieldAt b 96 22
def engDst (b : Nat) : Nat := fieldAt b 128 22

/-- Step cycle of an engine operation's last landing (04 R83, R84). -/
def engLast (b : Nat) : Nat :=
  if engFill b then engStart b + ceilDiv (engDst b % 256 + engLen b) 256 else engStart b + ceilDiv (engLen b) 128 + 3

/-- The first and the last tick of an engine operation in a step launched at `launch`. -/
def engTicks (launch b : Nat) : Nat × Nat := (launch + engStart b / 100, launch + engLast b / 100)

/-! ### The compatibility form (10 R228 to R230) -/

/-- A long word: PRESENT, and TEMPLATE and ADDR of each slot present. -/
structure LongWord where
  present : Nat
  stop    : Bool
  slots   : List (Nat × Nat × Nat)
  deriving DecidableEq, Repr

/-- The long words of a step body, up to and with the one that has END set. -/
def longWords (rd : Rd) : Nat → Nat → List LongWord
  | 0, _ => []
  | n + 1, o =>
    let m := rd o 4
    let pr := fieldAt m 0 7
    let used := (List.range 7).filter (fun i => bitAt pr i)
    let lw : LongWord := { present := pr, stop := bitAt m 7, slots := used.map (fun i =>
      let w := rd (o + 4 + 4 * popBelow pr i) 4
      (i, fieldAt w 0 4, fieldAt w 4 22)) }
    if lw.stop then [lw] else lw :: longWords rd n (o + 4 + 4 * used.length)

/-- The template block of a slot, slot-major, 16 for each slot. -/
def templateBlock (rd : Rd) (slot t : Nat) : Nat := imgEntry rd 9 32 (16 * slot + t)

end Sys2Proof.Machine
end

