-- ==== Sys2Proof/Machine/Codes.lean ====
section
/-!
DEFINITION. Sys2Proof/Machine/Codes.lean: check codes and hashes: CRC-32C (10), CRC-64 of signatures (17 R380),
SHA-512 (06 R120, 18 Table 18-3, 19 R413) and the stochastic generator's mix (12 R247).
-/

set_option Elab.async false

namespace Sys2Proof.Machine

/-- One bit of a reflected CRC. -/
def crcBit {w : Nat} (poly : BitVec w) (c : BitVec w) : BitVec w :=
  if c.getLsbD 0 then (c >>> 1) ^^^ poly else c >>> 1

/-- One byte of a reflected CRC. -/
def crcByte {w : Nat} (poly : BitVec w) (c : BitVec w) (b : Byte) : BitVec w :=
  foldRange 8 (fun _ x => crcBit poly x) (c ^^^ b.setWidth w)

/-- CRC-32C (Castagnoli): reflected polynomial 0x82F63B78, initial value and final exclusive-or all ones (the parameters
are those of the named code, log entry 15). -/
def crc32c (bs : List Byte) : Nat := (~~~ bs.foldl (crcByte (w := 32) 0x82F63B78) 0xFFFFFFFF).toNat

/-! ### SHA-512 (FIPS 180-4, named by 06 R120; log entry 15) -/

def shaK : List (BitVec 64) := [
  0x428A2F98D728AE22, 0x7137449123EF65CD, 0xB5C0FBCFEC4D3B2F, 0xE9B5DBA58189DBBC,
  0x3956C25BF348B538, 0x59F111F1B605D019, 0x923F82A4AF194F9B, 0xAB1C5ED5DA6D8118,
  0xD807AA98A3030242, 0x12835B0145706FBE, 0x243185BE4EE4B28C, 0x550C7DC3D5FFB4E2,
  0x72BE5D74F27B896F, 0x80DEB1FE3B1696B1, 0x9BDC06A725C71235, 0xC19BF174CF692694,
  0xE49B69C19EF14AD2, 0xEFBE4786384F25E3, 0x0FC19DC68B8CD5B5, 0x240CA1CC77AC9C65,
  0x2DE92C6F592B0275, 0x4A7484AA6EA6E483, 0x5CB0A9DCBD41FBD4, 0x76F988DA831153B5,
  0x983E5152EE66DFAB, 0xA831C66D2DB43210, 0xB00327C898FB213F, 0xBF597FC7BEEF0EE4,
  0xC6E00BF33DA88FC2, 0xD5A79147930AA725, 0x06CA6351E003826F, 0x142929670A0E6E70,
  0x27B70A8546D22FFC, 0x2E1B21385C26C926, 0x4D2C6DFC5AC42AED, 0x53380D139D95B3DF,
  0x650A73548BAF63DE, 0x766A0ABB3C77B2A8, 0x81C2C92E47EDAEE6, 0x92722C851482353B] ++ [
  0xA2BFE8A14CF10364, 0xA81A664BBC423001, 0xC24B8B70D0F89791, 0xC76C51A30654BE30,
  0xD192E819D6EF5218, 0xD69906245565A910, 0xF40E35855771202A, 0x106AA07032BBD1B8,
  0x19A4C116B8D2D0C8, 0x1E376C085141AB53, 0x2748774CDF8EEB99, 0x34B0BCB5E19B48A8,
  0x391C0CB3C5C95A63, 0x4ED8AA4AE3418ACB, 0x5B9CCA4F7763E373, 0x682E6FF3D6B2B8A3,
  0x748F82EE5DEFB2FC, 0x78A5636F43172F60, 0x84C87814A1F0AB72, 0x8CC702081A6439EC,
  0x90BEFFFA23631E28, 0xA4506CEBDE82BDE9, 0xBEF9A3F7B2C67915, 0xC67178F2E372532B,
  0xCA273ECEEA26619C, 0xD186B8C721C0C207, 0xEADA7DD6CDE0EB1E, 0xF57D4F7FEE6ED178,
  0x06F067AA72176FBA, 0x0A637DC5A2C898A6, 0x113F9804BEF90DAE, 0x1B710B35131C471B,
  0x28DB77F523047D84, 0x32CAAB7B40C72493, 0x3C9EBE0A15C9BEBC, 0x431D67C49C100D4C,
  0x4CC5D4BECB3E42B6, 0x597F299CFC657E2A, 0x5FCB6FAB3AD6FAEC, 0x6C44198C4A475817]

def shaInit : List (BitVec 64) := [
  0x6A09E667F3BCC908, 0xBB67AE8584CAA73B, 0x3C6EF372FE94F82B, 0xA54FF53A5F1D36F1,
  0x510E527FADE682D1, 0x9B05688C2B3E6C1F, 0x1F83D9ABFB41BD6B, 0x5BE0CD19137E2179]

def rotr (x : BitVec 64) (n : Nat) : BitVec 64 := x.rotateRight n

/-- A big-endian 64-bit word of 8 bytes. -/
def beWord (bs : List Byte) : BitVec 64 := BitVec.ofNat 64 (bs.foldl (fun a b => a * 256 + b.toNat) 0)

/-- The `n` bytes of a number, highest first. -/
def beBytes (n v : Nat) : List Byte := (leBytes n v).reverse

/-- Extends the message schedule: the newest of its words first. -/
def shaSchedule : Nat → List (BitVec 64) → List (BitVec 64)
  | 0, w => w
  | n + 1, w =>
    let w2 := w.getD 1 0
    let w7 := w.getD 6 0
    let w15 := w.getD 14 0
    let w16 := w.getD 15 0
    let s0 := rotr w15 1 ^^^ rotr w15 8 ^^^ (w15 >>> 7)
    let s1 := rotr w2 19 ^^^ rotr w2 61 ^^^ (w2 >>> 6)
    shaSchedule n ((s1 + w7 + s0 + w16) :: w)

/-- The eight working variables. -/
structure ShaVars where
  a : BitVec 64
  b : BitVec 64
  c : BitVec 64
  d : BitVec 64
  e : BitVec 64
  f : BitVec 64
  g : BitVec 64
  h : BitVec 64

def shaRound (v : ShaVars) (kw : BitVec 64) : ShaVars :=
  let s1 := rotr v.e 14 ^^^ rotr v.e 18 ^^^ rotr v.e 41
  let ch := (v.e &&& v.f) ^^^ (~~~ v.e &&& v.g)
  let t1 := v.h + s1 + ch + kw
  let s0 := rotr v.a 28 ^^^ rotr v.a 34 ^^^ rotr v.a 39
  let mj := (v.a &&& v.b) ^^^ (v.a &&& v.c) ^^^ (v.b &&& v.c)
  { a := t1 + (s0 + mj), b := v.a, c := v.b, d := v.c, e := v.d + t1, f := v.e, g := v.f, h := v.g }

def shaBlock (H : List (BitVec 64)) (blk : List Byte) : List (BitVec 64) :=
  let w0 := (List.range 16).map (fun i => beWord ((blk.drop (8 * i)).take 8))
  let ws := (shaSchedule 64 w0.reverse).reverse
  let v0 : ShaVars := { a := H.getD 0 0, b := H.getD 1 0, c := H.getD 2 0, d := H.getD 3 0, e := H.getD 4 0,
                        f := H.getD 5 0, g := H.getD 6 0, h := H.getD 7 0 }
  let v := (List.zipWith (· + ·) shaK ws).foldl shaRound v0
  List.zipWith (· + ·) H [v.a, v.b, v.c, v.d, v.e, v.f, v.g, v.h]

def shaBlocks : Nat → List (BitVec 64) → List Byte → List (BitVec 64)
  | 0, H, _ => H
  | n + 1, H, bs => shaBlocks n (shaBlock H bs) (bs.drop 128)

/-- The SHA-512 digest, 64 bytes. -/
def sha512 (bs : List Byte) : List Byte :=
  let n := bs.length
  let blocks := (n + 17 + 127) / 128
  let padded := bs ++ [0x80] ++ List.replicate (blocks * 128 - 17 - n) 0 ++ beBytes 16 (8 * n)
  (shaBlocks blocks shaInit padded).foldr (fun w acc => beBytes 8 w.toNat ++ acc) []

/-! ### The stochastic generator (12 R247) -/

/-- mix(seed, lidx, d), all arithmetic modulo 2^64. -/
def mix (seed lidx : Quad) (d : BitVec 8) : Quad :=
  let x := seed ^^^ 0x6A3DE1C594B72F0B
  let x := x + lidx * 0xC2B73D19E4A86F35
  let x := x ^^^ (d.setWidth 64 * 0x0101010101010101)
  let x := (x ^^^ (x >>> 30)) * 0x8F1A6D2CB739E54B
  let x := (x ^^^ (x >>> 27)) * 0x5D3E91A7F6C2084D
  x ^^^ (x >>> 31)

/-- mix over numbers, as a number. -/
def mixNat (seed lidx d : Nat) : Nat := (mix (BitVec.ofNat 64 seed) (BitVec.ofNat 64 lidx) (BitVec.ofNat 8 d)).toNat

end Sys2Proof.Machine
end

