-- ==== Sys2Proof/Machine/Float.lean ====
section
/-!
DEFINITION. Sys2Proof/Machine/Float.lean: binary32 arithmetic under 09 R195 and 08 R168, by exact values rounded once.
-/

set_option Elab.async false

namespace Sys2Proof.Machine

/-- The value of a binary32 word: NaN, or (-1)^neg * m * 2^e; an infinite input reads as the largest finite value. -/
inductive FVal where
  | nan
  | num (neg : Bool) (m : Nat) (e : Int)
  deriving DecidableEq, Repr

/-- A binary32 result: its word, whether it saturated, whether it is a counted NaN result. -/
structure FRes where
  w   : Word
  sat : Bool
  nan : Bool
  deriving DecidableEq, Repr

def f32Nan : Word := 0x7FC00000
def f32Max : Word := 0x7F7FFFFF

def fDecode (w : Word) : FVal :=
  let neg := w.getLsbD 31
  let E := fieldAt w.toNat 23 8
  let F := fieldAt w.toNat 0 23
  if E = 255 then (if F = 0 then .num neg (2 ^ 24 - 1) 104 else .nan)
  else if E = 0 then .num neg F (-149)
  else .num neg (2 ^ 23 + F) ((E : Int) - 150)

/-- The word of a sign and a magnitude below 2^31. -/
def fPack (neg : Bool) (mag : Nat) : Word := BitVec.ofNat 32 (mag + if neg then 2 ^ 31 else 0)

/-- `m / 2^sh` rounded to nearest, ties to even. -/
def shiftRne (m sh : Nat) : Nat :=
  let q := m >>> sh
  let r := m % 2 ^ sh
  let h := 2 ^ sh
  if 2 * r > h then q + 1 else if 2 * r = h then q + q % 2 else q

/-- Rounds m * 2^e to nearest-even binary32; overflow gives the largest finite value and counts (09 R195). -/
def fRound (neg : Bool) (m : Nat) (e : Int) : FRes :=
  if m = 0 then { w := fPack neg 0, sat := false, nan := false } else
  let len : Int := Nat.log2 m + 1
  let q : Int := max (e + len - 24) (-149)
  let n : Nat := if q ≤ e then m <<< (e - q).toNat else shiftRne m (q - e).toNat
  let (n, q) := if n = 2 ^ 24 then (2 ^ 23, q + 1) else (n, q)
  if q > 104 then { w := fPack neg 0x7F7FFFFF, sat := true, nan := false }
  else if n < 2 ^ 23 then { w := fPack neg n, sat := false, nan := false }
  else { w := fPack neg ((q + 150).toNat * 2 ^ 23 + (n - 2 ^ 23)), sat := false, nan := false }

def fNanRes : FRes := { w := f32Nan, sat := false, nan := true }

/-- A signed value n * 2^e rounded; an exact zero takes the sign given. -/
def fRoundInt (n : Int) (e : Int) (zeroNeg : Bool) : FRes :=
  if n = 0 then { w := fPack zeroNeg 0, sat := false, nan := false } else fRound (decide (n < 0)) n.natAbs e

/-- The integer of a signed magnitude. -/
def signed (neg : Bool) (m : Nat) : Int := if neg then -(m : Int) else m

/-- Exact sum of two scaled magnitudes, rounded once. -/
def fSum (n1 : Bool) (m1 : Nat) (e1 : Int) (n2 : Bool) (m2 : Nat) (e2 : Int) : FRes :=
  let e := min e1 e2
  let a := signed n1 (m1 <<< (e1 - e).toNat)
  let b := signed n2 (m2 <<< (e2 - e).toNat)
  fRoundInt (a + b) e (n1 && n2)

def fAdd (x y : Word) : FRes :=
  match fDecode x, fDecode y with
  | .num n1 m1 e1, .num n2 m2 e2 => fSum n1 m1 e1 n2 m2 e2
  | _, _ => fNanRes

/-- Sign-flip. -/
def fNeg (x : Word) : Word := x ^^^ 0x80000000

def fSub (x y : Word) : FRes :=
  match fDecode x, fDecode y with
  | .num n1 m1 e1, .num n2 m2 e2 => fSum n1 m1 e1 (!n2) m2 e2
  | _, _ => fNanRes

def fMul (x y : Word) : FRes :=
  match fDecode x, fDecode y with
  | .num n1 m1 e1, .num n2 m2 e2 => fRound (n1 != n2) (m1 * m2) (e1 + e2)
  | _, _ => fNanRes

/-- X * Y + Z with one rounding. -/
def fFma (x y z : Word) : FRes :=
  match fDecode x, fDecode y, fDecode z with
  | .num n1 m1 e1, .num n2 m2 e2, .num n3 m3 e3 => fSum (n1 != n2) (m1 * m2) (e1 + e2) n3 m3 e3
  | _, _, _ => fNanRes

/-- Order of two numbers as values, with -0 below +0. -/
def fLess (n1 : Bool) (m1 : Nat) (e1 : Int) (n2 : Bool) (m2 : Nat) (e2 : Int) : Bool :=
  let e := min e1 e2
  let a := signed n1 (m1 <<< (e1 - e).toNat)
  let b := signed n2 (m2 <<< (e2 - e).toNat)
  if a = b then (n1 && !n2) else decide (a < b)

/-- The word of a decoded number: an infinite input is delivered as the largest finite value. -/
def fCanon (x : Word) : Word :=
  if x = 0x7F800000 then f32Max else if x = 0xFF800000 then fNeg f32Max else x

/-- minimumNumber (`wantMin`) or maximumNumber: with one NaN the other operand, with two a counted NaN (09 R195). -/
def fMinMax (wantMin : Bool) (x y : Word) : FRes :=
  match fDecode x, fDecode y with
  | .num n1 m1 e1, .num n2 m2 e2 =>
    let less := fLess n1 m1 e1 n2 m2 e2
    { w := fCanon (if less == wantMin then x else y), sat := false, nan := false }
  | .nan, .num _ _ _ => { w := fCanon y, sat := false, nan := false }
  | .num _ _ _, .nan => { w := fCanon x, sat := false, nan := false }
  | .nan, .nan => fNanRes

/-- int32 to FP32. -/
def fOfInt (x : Word) : FRes := fRoundInt x.toInt 0 false

/-- An integer clamped to int32. -/
def clamp32 (v : Int) : Int := max (-2147483648) (min 2147483647 v)

/-- The integer nearest to m * 2^e, ties to even, or cut toward zero. -/
def fIntegral (trunc : Bool) (neg : Bool) (m : Nat) (e : Int) : Int :=
  signed neg (if 0 ≤ e then m <<< e.toNat else if trunc then m >>> (-e).toNat else shiftRne m (-e).toNat)

/-- F2I: nearest-even, clamped with one saturation counted; NaN gives 0 and counts (09 R195). -/
def fToInt (x : Word) : FRes :=
  match fDecode x with
  | .nan => { w := 0, sat := false, nan := true }
  | .num n m e =>
    let v := fIntegral false n m e
    { w := BitVec.ofInt 32 (clamp32 v), sat := decide (clamp32 v ≠ v), nan := false }

/-- f2i_trunc of FSEG: toward zero, saturating without counting; a NaN gives 0. -/
def fTrunc (x : Word) : Int :=
  match fDecode x with
  | .nan => 0
  | .num n m e => clamp32 (fIntegral true n m e)

end Sys2Proof.Machine
end

