-- ==== Sys2Proof/Machine/Catalogue.lean ====
section
/-!
DEFINITION. Sys2Proof/Machine/Catalogue.lean: the Catalogue (06): its entries in HBM, provenance tags and parameter
blocks, the registration of objects and keys, the cost table.
-/

set_option Elab.async false

namespace Sys2Proof.Machine

/-! ### Entries (06 Table 06-1) -/

def kindFree : Nat := 0
def kindCipher : Nat := 1
def kindPlain : Nat := 2
def kindKey : Nat := 3
def kindTensor : Nat := 4
def kindLwe : Nat := 5

/-- A Catalogue entry by its fields. -/
structure CatEnt where
  epoch      : Nat
  kind       : Nat
  space      : Nat
  gallery    : Nat
  addr       : Nat
  bytes      : Nat
  scaleExp   : Nat
  components : Nat
  dnum       : Nat
  layout     : Nat
  mode       : Nat
  form       : Nat
  special    : Nat
  limbs      : Nat
  logN       : Nat
  poisoned   : Bool
  locked     : Bool
  loading    : Bool
  exhausted  : Bool
  budget     : Nat
  ptMod      : Nat
  tag        : Quad
  keyKind    : Nat
  levelMax   : Nat
  levelMin   : Nat
  autoA      : Nat
  software   : Quad
  crc        : Nat
  gen        : Nat
  deriving DecidableEq, Repr

/-- Reads an entry from its 64 bytes, taken as one number. -/
def readEnt (e : Nat) : CatEnt :=
  { epoch := fieldAt e 56 8, kind := fieldAt e 52 4, space := fieldAt e 48 4, gallery := fieldAt e 40 8,
    addr := fieldAt e 0 40, bytes := fieldAt e 64 40, scaleExp := fieldAt e 176 16, components := fieldAt e 168 4,
    dnum := fieldAt e 164 4, layout := fieldAt e 160 2, mode := fieldAt e 156 2, form := fieldAt e 155 1,
    special := fieldAt e 144 8, limbs := fieldAt e 136 8, logN := fieldAt e 128 5, poisoned := bitAt e 243,
    locked := bitAt e 242, loading := bitAt e 241, exhausted := bitAt e 240, budget := fieldAt e 224 16,
    ptMod := fieldAt e 192 32, tag := BitVec.ofNat 64 (fieldAt e 256 64), keyKind := fieldAt e 350 5,
    levelMax := fieldAt e 344 6, levelMin := fieldAt e 338 6, autoA := fieldAt e 320 18,
    software := BitVec.ofNat 64 (fieldAt e 384 64), crc := fieldAt e 480 32, gen := fieldAt e 448 32 }

/-- The eight words of an entry, less its CRC. -/
def entWords (x : CatEnt) : List Nat :=
  [ x.epoch % 256 * 2 ^ 56 + x.kind % 16 * 2 ^ 52 + x.space % 16 * 2 ^ 48 + x.gallery % 256 * 2 ^ 40 + x.addr % 2 ^ 40,
    x.bytes % 2 ^ 40,
    x.scaleExp % 65536 * 2 ^ 48 + x.components % 16 * 2 ^ 40 + x.dnum % 16 * 2 ^ 36 + x.layout % 4 * 2 ^ 32 +
      x.mode % 4 * 2 ^ 28 + x.form % 2 * 2 ^ 27 + x.special % 256 * 2 ^ 16 + x.limbs % 256 * 2 ^ 8 + x.logN % 32,
    bit01 x.poisoned * 2 ^ 51 + bit01 x.locked * 2 ^ 50 + bit01 x.loading * 2 ^ 49 + bit01 x.exhausted * 2 ^ 48 +
      x.budget % 65536 * 2 ^ 32 + x.ptMod % 2 ^ 32,
    x.tag.toNat,
    x.keyKind % 32 * 2 ^ 30 + x.levelMax % 64 * 2 ^ 24 + x.levelMin % 64 * 2 ^ 18 + x.autoA % 2 ^ 18,
    x.software.toNat, x.gen % 2 ^ 32 ]

/-- The 64 bytes of an entry, with its CRC set. -/
def entBytes (x : CatEnt) : List Byte :=
  let body := ((entWords x).flatMap (fun w => leBytes 8 w)).take 60
  body ++ leBytes 4 (crc32c body)

/-- Entries of the Catalogue. -/
def catCount : Nat := 262144

/-- A free entry: every field 0, GENERATION 0 (06 R472). -/
def freeEnt : CatEnt := readEnt 0

def entAddr (s : State) (i : Nat) : Nat := s.cat.base + 64 * i

/-- Entry `i`. -/
def catEnt (s : State) (i : Nat) : CatEnt := readEnt (hbmNat s (entAddr s i) 64)

/-- The CRC of entry `i` matches its bytes 0x00-0x3B. -/
def entCrcOk (s : State) (i : Nat) : Bool :=
  let bs := hbmGet s (entAddr s i) 64
  crc32c (bs.take 60) == leNat (bs.drop 60)

/-- The entry's line is delivered without poison and its CRC is sound. -/
def entSound (s : State) (i : Nat) : Bool := entCrcOk s i && !rangePoisoned s (entAddr s i) 64

/-- The Docent reads the lines of some Catalogue entries through hub slots: their ECC events count, lines that the host may cache are
snooped (14 R302, R304; log entry 76). -/
def readEnts (cats : List Nat) (s : State) : State := cats.foldl (fun x i => noteRange 2 (entAddr x i) 64 x) s

/-- Writes entry `i`, advancing its GENERATION and setting its CRC (06 R117). -/
def putEnt (i : Nat) (x : CatEnt) (s : State) : State :=
  (hubWriteLine s (entAddr s i) (entBytes { x with gen := ((catEnt s i).gen + 1) % 2 ^ 32 })).2

/-- Changes entry `i`. -/
def modEnt (i : Nat) (f : CatEnt → CatEnt) (s : State) : State := putEnt i (f (catEnt s i)) s

/-- A Catalogue exists: created, or being created (16 R351). -/
def catExists (s : State) : Bool :=
  s.cat.enabled || working s (fun k => match k with | .catalogueCreate _ => true | _ => false)

/-! ### Parameter blocks and tags (06 R120, Table 06-2) -/

def pbLogN (b : List Byte) : Nat := bytesAt b 0 1
def pbMode (b : List Byte) : Nat := bytesAt b 1 1
def pbD (b : List Byte) : Nat := bytesAt b 2 1
def pbS (b : List Byte) : Nat := bytesAt b 3 1
def pbDnum (b : List Byte) : Nat := bytesAt b 4 1
def pbT (b : List Byte) : Nat := bytesAt b 8 4
/-- Data modulus q_i, and special modulus p_i at index D + i. -/
def pbQ (b : List Byte) (i : Nat) : Nat := bytesAt b (16 + 4 * i) 4

/-- The fields of a block lie in Table 06-2 and its length fits them (06 R474). -/
def pbOk (b : List Byte) : Bool :=
  decide (12 ≤ pbLogN b) && decide (pbLogN b ≤ 17) && decide (pbMode b ≤ 1) && decide (1 ≤ pbD b) &&
    decide (pbD b ≤ 64) && decide (pbS b ≤ 16) && decide (1 ≤ pbDnum b) && decide (pbDnum b ≤ 8) &&
    bytesAt b 5 3 == 0 && bytesAt b 12 4 == 0 && (if pbMode b = 0 then decide (2 ≤ pbT b) else pbT b == 0) &&
    b.length == 32 + 4 * (pbD b + pbS b)

/-- The provenance tag of a block: the first 8 bytes of its SHA-512 digest (06 R120). -/
def provTag (b : List Byte) : Quad := BitVec.ofNat 64 (leNat ((sha512 b).take 8))

/-- The entries that are not all free: byte 6 of an entry holds KIND and SPACE. -/
def usedEnts (s : State) : List Nat :=
  ((smSpan s.cat.base (64 * catCount) s.hbm.mem).filter (fun p => (p.1 - s.cat.base) % 64 == 6)).map
    (fun p => (p.1 - s.cat.base) / 64)

/-- Some entry that is not free carries the tag (06 R473). -/
def tagCarried (s : State) (t : Quad) : Bool :=
  (usedEnts s).any (fun i => let e := catEnt s i; e.kind != kindFree && e.tag == t)

/-- The block the Docent holds for a tag (06 R473). -/
def blockOf (s : State) (t : Quad) : Option (List Byte) := (s.cat.blocks.find? (fun b => b.1 == t)).map (·.2)

/-- Blocks whose tag no entry carries any more are dropped (06 R473). -/
def pruneBlocks (s : State) : State :=
  { s with cat := { s.cat with blocks := s.cat.blocks.filter (fun b => tagCarried s b.1) } }

/-- Keeps a block under its tag. -/
def keepBlock (t : Quad) (b : List Byte) (s : State) : State :=
  { s with cat := { s.cat with blocks := (t, b) :: s.cat.blocks.filter (fun x => x.1 != t) } }

/-! ### Refusal counters (06 Table 06-12) -/

/-- Counts a refusal of a tour or a registration by its status. -/
def countRefusal (st : BitVec 16) (s : State) : State :=
  if st = stBudgetExhausted then { s with cat := { s.cat with budgetRefusals := bump8 s.cat.budgetRefusals } }
  else if st = stLevelUnderflow then { s with cat := { s.cat with levelRefusals := bump8 s.cat.levelRefusals } }
  else if st = stKeyMismatch then { s with cat := { s.cat with tagRefusals := bump8 s.cat.tagRefusals } }
  else s

/-! ### Templates (06 Table 06-1, R474) -/

/-- Reserved bits of an entry, as (low bit, width). -/
def entReserved : List (Nat × Nat) :=
  [(104, 24), (172, 4), (162, 2), (158, 2), (152, 3), (133, 3), (244, 12), (355, 29)]

/-- The fields of a template lie in Table 06-1 (16 Table 16-8 BAD_PARAM; log entry 20). `n` is the grade. -/
def templateOk (n e : Nat) : Bool :=
  let x := readEnt e
  entReserved.all (fun r => fieldAt e r.1 r.2 == 0) &&
    decide (x.space ≤ 2) && x.layout != 3 && decide (x.mode ≤ 1) &&
    (if x.space = 1 then decide (x.gallery < n) && decide (x.addr < 3145728) else x.gallery == 0) &&
    (if x.space = 0 then x.addr % (if x.kind = kindKey then 1024 else 64) == 0 && decide (x.addr + x.bytes ≤ hbmBytes)
     else true) &&
    (if x.space = 2 then decide (x.addr < 1048576) else true)

/-- Fields that Table 06-1 bounds for a ciphertext or a plaintext. -/
def polyOk (x : CatEnt) : Bool :=
  (if x.kind = kindCipher then x.components == 2 || x.components == 3 else x.components == 1) &&
    decide (1 ≤ x.limbs) && decide (x.limbs ≤ 64) && decide (x.special ≤ 16) && decide (12 ≤ x.logN) &&
    decide (x.logN ≤ 17) && (if x.mode = 0 then x.scaleExp == 0 && decide (2 ≤ x.ptMod) else x.ptMod == 0)

/-- An object that is no key has no key fields; a ciphertext or plaintext has its polynomial fields in range. -/
def objectOk (x : CatEnt) : Bool :=
  x.dnum == 0 && x.keyKind == 0 && (if x.kind = kindCipher ∨ x.kind = kindPlain then polyOk x else true)

/-- The template agrees with a parameter block (06 R474). -/
def agrees (x : CatEnt) (b : List Byte) : Bool :=
  x.logN == pbLogN b && x.mode == pbMode b && decide (x.limbs ≤ pbD b) && decide (x.special ≤ pbS b) &&
    (if pbMode b = 0 then x.ptMod == pbT b else x.ptMod == 0)

/-! ### The commands -/

/-- Every entry written free, as whole lines: errors of the lines go, a line that stands in an atomic range goes to its SRAM. -/
def writeFree (addr : Nat) (s : State) : State :=
  let fe := entBytes freeEnt
  if noRange s (stackOf addr) then
    let out := fun (ls : List Nat) => ls.filter (fun l => !inLines addr (2 ^ 24) l)
    let cells := (List.range catCount).flatMap (fun i => smCells 0 (addr + 64 * i) fe)
    let m := s.hbm.mem
    let mem := m.filter (fun p => decide (p.1 < addr)) ++ (cells ++ m.filter (fun p => decide (addr + 2 ^ 24 ≤ p.1)))
    let s := snoopRange addr (2 ^ 24) s
    { s with hbm := { s.hbm with mem := mem, weak := out s.hbm.weak, dead := out s.hbm.dead } }
  else foldRange catCount (fun i x => (hubWriteLine x (addr + 64 * i) fe).2) s

/-- CATALOGUE_CREATE (06 R472): checks, then every entry written free; ENABLED follows at DONE. -/
def doCatalogueCreate (addr : Nat) (s : State) : Answer × State :=
  if addr % 2 ^ 24 ≠ 0 ∨ hbmBytes < addr + 2 ^ 24 then (ansFail stBadParam, s)
  else if catExists s ∨ !hbmUsable s addr (2 ^ 24) then (ansFail stNotReady, s)
  else
    (ansLong (.catalogueCreate addr), writeFree addr { s with cat := { s.cat with base := addr } })

/-- OBJECT_REGISTER (06 R474, R120). A new entry takes EPOCH, BUDGET and EXHAUSTED from the template and is not poisoned
(log entry 141). -/
def doObjectRegister (idx : Nat) (entryAddr paramAddr paramBytes : Nat) (s : State) : Answer × State :=
  if !catExists s || !hostReady s then (ansFail stNotReady, s)
  else if catCount ≤ idx ∨ (catEnt s idx).kind ≠ kindFree ∨ (catEnt s idx).locked then (ansFail stBadParam, s)
  else
    let e := leNat (hostGet s entryAddr 64)
    let x := readEnt e
    if !templateOk (numGal s) e || !objectOk x || x.kind == kindFree || x.kind == kindKey || decide (kindLwe < x.kind) then
      (ansFail stBadParam, s)
    else if paramBytes = 0 then
      if x.kind = kindTensor ∨ x.kind = kindLwe then
        (ansRes (leBytes 8 0), putEnt idx { x with tag := 0, poisoned := false, locked := false, loading := false } s)
      else (ansFail stBadParam, s)
    else
      let b := hostGet s paramAddr paramBytes
      if !pbOk b || !agrees x b then (ansFail stBadParam, s)
      else
        let t := provTag b
        (ansRes (leBytes 8 t.toNat),
          keepBlock t b (putEnt idx { x with tag := t, poisoned := false, locked := false, loading := false } s))

/-- OBJECT_UPDATE (06 R474, R119). EXHAUSTED may be set by it but not cleared (R133; log entry 129). -/
def doObjectUpdate (idx : Nat) (entryAddr : Nat) (s : State) : Answer × State :=
  if !catExists s || !hostReady s then (ansFail stNotReady, s)
  else if catCount ≤ idx then (ansFail stBadParam, s)
  else
    let c := catEnt s idx
    let e := leNat (hostGet s entryAddr 64)
    let x := readEnt e
    let disagrees := if c.tag = 0 then false else match blockOf s c.tag with | some b => !agrees x b | .none => false
    let keyOk := x.keyKind == c.keyKind && x.dnum == c.dnum && x.autoA == c.autoA && x.levelMin == c.levelMin &&
      x.levelMax == c.levelMax
    if c.locked || c.kind == kindFree || x.kind != c.kind || !templateOk (numGal s) e || disagrees ||
        (if c.kind = kindKey then !keyOk else !objectOk x) then (ansFail stBadParam, s)
    else
      let s := putEnt idx { x with
        tag := c.tag, epoch := c.epoch, locked := c.locked, loading := c.loading, exhausted := c.exhausted || x.exhausted } s
      (ansRes (leBytes 4 (catEnt s idx).gen), s)

/-- OBJECT_RELEASE (Table 16-6): entries FIRST to FIRST + COUNT - 1 become free; none when one is locked (06 R119). -/
def doObjectRelease (first count : Nat) (s : State) : Answer × State :=
  if !catExists s then (ansFail stNotReady, s)
  else if count = 0 ∨ catCount < first + count ∨ (List.range count).any (fun i => (catEnt s (first + i)).locked) then
    (ansFail stBadParam, s)
  else (ansOk, pruneBlocks (foldRange count (fun i x => putEnt (first + i) freeEnt x) s))

/-- COST_TABLE_LOAD (06 R131): 1,024 entries of 16 bits. -/
def doCostTableLoad (addr : Nat) (s : State) : Answer × State :=
  if !hostReady s || anyLive s then (ansFail stNotReady, s)
  else
    let bs := hostGet s addr 2048
    let cells := (List.range 1024).map (fun i => BitVec.ofNat 16 (bytesAt bs (2 * i) 2))
    (ansOk, { s with cat := { s.cat with cost := smCells 0 0 cells, costLoaded := true } })

/-- Cost of a primitive at a level (06 R130). -/
def costOf (s : State) (code level : Nat) : Nat := (smGet 0 (64 * code + level) s.cat.cost).toNat

/-! ### Key headers (06 Table 06-3, 07 Tables 07-3, 07-4) -/

def khMagic (b : List Byte) : Nat := bytesAt b 0 4
def khVersion (b : List Byte) : Nat := bytesAt b 4 2
def khKind (b : List Byte) : Nat := bytesAt b 6 1
def khDnum (b : List Byte) : Nat := bytesAt b 7 1
def khTag (b : List Byte) : Nat := bytesAt b 8 8
def khAutoA (b : List Byte) : Nat := bytesAt b 16 4
def khLogN (b : List Byte) : Nat := bytesAt b 20 1
def khData (b : List Byte) : Nat := bytesAt b 21 1
def khSpecial (b : List Byte) : Nat := bytesAt b 22 1
def khLevelMin (b : List Byte) : Nat := bytesAt b 23 1
def khLevelMax (b : List Byte) : Nat := bytesAt b 24 1
def khBody (b : List Byte) : Nat := bytesAt b 32 8
def khTarget (b : List Byte) : Nat := bytesAt b 40 8
def khCrcOk (b : List Byte) : Bool := crc32c (b.take 60) == bytesAt b 60 4

/-- MAGIC, VERSION, CRC and PROV_TAG of a header agree with a registration under tag `t`. -/
def headerAgrees (b : List Byte) (t : Quad) : Bool :=
  khMagic b == 0x4B5A4B48 && khVersion b == 1 && khCrcOk b && khTag b == t.toNat

/-- The zero fields of the header word set. -/
def headerZeros (b : List Byte) : Bool :=
  bytesAt b 0x19 7 == 0 && bytesAt b 0x30 12 == 0 && (b.drop 64).all (· == 0)

/-- Fields common to R123's BAD_PARAM list and Table 06-3, for a body of `body` bytes. -/
def headerFields (b pb : List Byte) (body : Nat) : Bool :=
  headerZeros b && khBody b == body && decide (1 ≤ khDnum b) && decide (khDnum b ≤ 8) &&
    decide (khLevelMin b ≤ khLevelMax b) && (khKind b == 4 || khTarget b == khTag b) && decide (khData b ≤ pbD pb)

/-- Body size of a key of kind 0x01 to 0x04 (06 R122). -/
def keyBody (b : List Byte) : Nat := khDnum b * 2 * (khData b + khSpecial b) * 2 ^ khLogN b * 4

/-- R123 for kinds 0x01 to 0x04: the refusal, if any. -/
def keyCheck (b pb : List Byte) (t : Quad) : BitVec 16 :=
  let n2 := 2 * 2 ^ pbLogN pb
  let k := khKind b
  if !headerAgrees b t || ((k == 1 || k == 4) && khAutoA b != 1) || (k == 3 && khAutoA b != n2 - 1) then stKeyMismatch
  else if decide (k < 1) || decide (4 < k) || khLogN b != pbLogN pb || khDnum b != pbDnum pb || khSpecial b != pbS pb ||
      !headerFields b pb (keyBody b) || khData b != khLevelMax b + 1 ||
      (k == 2 && (khAutoA b % 2 == 0 || decide (n2 ≤ khAutoA b))) ||
      decide (khSpecial b < ceilDiv (khData b) (khDnum b)) || decide (80 < khData b + khSpecial b) then stBadParam
  else stOk

/-! ### Refresh descriptors (07 Table 07-3) -/

def rdLweDim (d : List Byte) : Nat := bytesAt d 4 2
def rdLogNb (d : List Byte) : Nat := bytesAt d 6 1
def rdGlog (d : List Byte) : Nat := bytesAt d 7 1
def rdGcount (d : List Byte) : Nat := bytesAt d 8 1
def rdKb (d : List Byte) : Nat := bytesAt d 9 1
def rdSlots (d : List Byte) : Nat := bytesAt d 10 2
def rdFresh (d : List Byte) : Nat := bytesAt d 12 2
def rdQb (d : List Byte) : Nat := bytesAt d 16 4
def rdMuB (d : List Byte) : Nat := bytesAt d 20 4
def rdFoldB (d : List Byte) : Nat := bytesAt d 24 4

/-- Q is odd, 2^29 < Q < 2^31 and K its bit length (05 R97). -/
def modulusOk (q k : Nat) : Bool := q % 2 == 1 && decide (2 ^ 29 < q) && decide (q < 2 ^ 31) && k == Nat.log2 q + 1

/-- The descriptor's fields lie in Table 07-3 and Q_B with K_B keeps R97. -/
def descriptorOk (d : List Byte) : Bool :=
  decide (256 ≤ rdLweDim d) && decide (rdLweDim d ≤ 1024) && rdLweDim d % 16 == 0 && rdLogNb d == 12 &&
    decide (1 ≤ rdGlog d) && decide (rdGlog d ≤ 16) && decide (1 ≤ rdGcount d) && decide (rdGcount d ≤ 4) &&
    decide (rdGlog d * rdGcount d ≤ rdKb d) && bytesAt d 14 2 == 0 && bytesAt d 28 4 == 0 && bytesAt d 48 12 == 0 &&
    (d.drop 64).all (· == 0) && modulusOk (rdQb d) (rdKb d) && rdMuB d == 2 ^ (2 * rdKb d) / rdQb d &&
    rdFoldB d == 2 ^ 63 % rdQb d

/-- Body size of a refresh key object (07 Table 07-4). -/
def refreshBody (b d : List Byte) : Nat :=
  let n := 2 ^ khLogN b
  if khKind b = 0x10 then 1024 + rdLweDim d * rdGcount d * 65536
  else if khKind b = 0x11 then 1024 + khDnum b * 2 * (1 + khSpecial b) * n * 4
  else 1024 + 4096 * 8 * khData b * n

/-- The header fields of Table 07-4. -/
def refreshFields (b d pb : List Byte) : Bool :=
  if khKind b = 0x10 then
    khLogN b == 12 && khData b == 1 && khSpecial b == 0 && khDnum b == rdGcount d && khLevelMin b == 0 && khLevelMax b == 0
  else if khKind b = 0x11 then
    khLogN b == pbLogN pb && khData b == 1 && khLevelMin b == 0 && khLevelMax b == 0
  else
    khLogN b == pbLogN pb && khDnum b == 1 && khSpecial b == 0 && decide (1 ≤ khData b) &&
      khLevelMin b == khData b - 1 && khLevelMax b == khData b - 1

/-- R142 for kinds 0x10 to 0x12: the refusal, if any. `d` is the descriptor's 1,024 bytes. -/
def refreshCheck (b d pb : List Byte) (t : Quad) : BitVec 16 :=
  if !headerAgrees b t || khAutoA b != 1 || bytesAt d 0 4 != 0x4B5A5244 || crc32c (d.take 60) != bytesAt d 60 4 then
    stKeyMismatch
  else if !refreshFields b d pb || !headerFields b pb (refreshBody b d) || !descriptorOk d then stBadParam
  else stOk

/-- The map entry of an extent. -/
def freeMap : MapEntry := { seq := 0, isSealed := false, state := .free, slot := 0 }
def mapOf (s : State) (e : Nat) : MapEntry := smGet freeMap e s.vault.map

/-- Bytes of a vault extent range as reads return them: extent data of the slot the map names, or what the keys in force make of
data that was encrypted under others (15 R328). -/
def vaultGet (s : State) (addr n : Nat) : List Byte :=
  let m := s.vault.medium
  (List.range n).map (fun i =>
    let a := addr + i
    let slot := (mapOf s (a / extBytes)).slot.toNat
    let at_ := slot * extBytes + a % extBytes
    if m.lost.contains slot then Config.lostByte m.keys s.time.now at_ else smGet 0 at_ m.data)

/-- Reads 1,024 bytes at an offset of a key object, or refuses. -/
def keyBytes (space addr off : Nat) (s : State) : (BitVec 16 × List Byte) × State :=
  if space = 0 then
    if addr % 1024 ≠ 0 then ((stBadParam, []), s)
    else if hbmBytes < addr + off + 1024 then ((stAddressRange, []), s)
    else if !hbmUsable s (addr + off) 1024 then ((stNotReady, []), s)
    else
      let (bs, bad, s) := hubRead s (addr + off) 1024
      if bad.isSome then ((stRegionPoisoned, []), s) else ((stOk, bs), s)
  else if !vaultOpenNow s then ((stNotReady, []), s)
  else if 1048576 ≤ addr ∨ (mapOf s addr).state = .free then ((stAddressRange, []), s)
  else if (mapOf s addr).state = .conflict then ((stReplicaConflict, []), s)
  else if s.vault.medium.badUnits.contains ((mapOf s addr).slot.toNat * 2048) then ((stVaultUncorrectable, []), s)
  else ((stOk, vaultGet s (addr * 2 ^ 23 + off) 1024), s)

/-- The Catalogue entry of a registered key object: fields of the header and the block (06 R123). Log entry 151: COMPONENTS is 2, whatever
DNUM. -/
def keyEnt (space addr : Nat) (b pb : List Byte) (t : Quad) (body : Nat) : CatEnt :=
  { freeEnt with
    kind := kindKey, space := space, addr := addr, bytes := 1024 + body, components := 2, dnum := khDnum b,
    mode := pbMode pb, form := 1, special := khSpecial b, limbs := khData b, logN := khLogN b, ptMod := pbT pb,
    tag := t, keyKind := khKind b, levelMax := khLevelMax b, levelMin := khLevelMin b, autoA := khAutoA b }

/-- KEY_REGISTER (06 R123, R474; 07 R142). -/
def doKeyRegister (idx space addr paramAddr paramBytes : Nat) (s : State) : Answer × State :=
  if !catExists s || !hostReady s then (ansFail stNotReady, s)
  else if catCount ≤ idx ∨ (catEnt s idx).kind ≠ kindFree ∨ (catEnt s idx).locked ∨ (space ≠ 0 ∧ space ≠ 2) then
    (ansFail stBadParam, s)
  else
    let pb := hostGet s paramAddr paramBytes
    if !pbOk pb then (ansFail stBadParam, s)
    else
      let ((st, b), s) := keyBytes space addr 0 s
      if st ≠ stOk then (ansFail st, s)
      else
        let t := provTag pb
        let refresh := khKind b == 0x10 || khKind b == 0x11 || khKind b == 0x12
        let ((st, d), s) := if refresh then keyBytes space addr 1024 s else ((stOk, []), s)
        if st ≠ stOk then (ansFail st, s)
        else
          let st := if refresh then refreshCheck b d pb t else keyCheck b pb t
          if st ≠ stOk then (ansFail st, countRefusal st s)
          else if space = 0 ∧ hbmBytes < addr + 1024 + khBody b then (ansFail stAddressRange, s)
          else (ansRes (leBytes 8 t.toNat), keepBlock t pb (putEnt idx (keyEnt space addr b pb t (khBody b)) s))

/-! ### Meanings -/

def execCatalogueCreate (h : Hdr) (addr : Quad) (s : State) : Out :=
  .next (command h 0x0200 (doCatalogueCreate addr.toNat) s)

def execObjectRegister (h : Hdr) (catIndex : Word) (entryAddr paramAddr : Quad) (paramBytes : BitVec 16) (s : State) : Out :=
  .next (command h 0x0204 (doObjectRegister catIndex.toNat entryAddr.toNat paramAddr.toNat paramBytes.toNat) s)

def execObjectUpdate (h : Hdr) (catIndex : Word) (entryAddr : Quad) (s : State) : Out :=
  .next (command h 0x0205 (doObjectUpdate catIndex.toNat entryAddr.toNat) s)

def execObjectRelease (h : Hdr) (catIndex count : Word) (s : State) : Out :=
  .next (command h 0x0206 (doObjectRelease catIndex.toNat count.toNat) s)

def execCostTableLoad (h : Hdr) (addr : Quad) (s : State) : Out :=
  .next (command h 0x0207 (doCostTableLoad addr.toNat) s)

def execKeyRegister (h : Hdr) (catIndex : Word) (space : BitVec 8) (addr paramAddr : Quad) (paramBytes : BitVec 16)
    (s : State) : Out :=
  .next (command h 0x0400 (doKeyRegister catIndex.toNat space.toNat addr.toNat paramAddr.toNat paramBytes.toNat) s)

end Sys2Proof.Machine
end

