-- ==== Sys2Proof/Machine/Crypto.lean ====
section
/-!
DEFINITION. Sys2Proof/Machine/Crypto.lean: AES-256 (FIPS 197), the CTR_DRBG of NIST SP 800-90A with its derivation
function (12 R252), modular arithmetic and the curve P-521 (19 R404, R414). The algorithms are those the spec names by
their standards (log entry 15).
-/

set_option Elab.async false

namespace Sys2Proof.Machine

/-! ### AES-256 -/

/-- Multiplication by x in GF(2^8). -/
def xtime (b : Byte) : Byte := if b.getLsbD 7 then (b <<< 1) ^^^ 0x1B else b <<< 1

/-- Product in GF(2^8), by the bits of the second factor. -/
def gfMulFrom : Nat → Byte → Byte → Byte
  | 0, _, _ => 0
  | n + 1, a, b => (if b.getLsbD 0 then a else 0) ^^^ gfMulFrom n (xtime a) (b >>> 1)

def gfMul (a b : Byte) : Byte := gfMulFrom 8 a b

/-- a^254, the inverse of a non-zero element. -/
def gfInv (a : Byte) : Byte :=
  let a2 := gfMul a a
  let a4 := gfMul a2 a2
  let a8 := gfMul a4 a4
  let a16 := gfMul a8 a8
  let a32 := gfMul a16 a16
  let a64 := gfMul a32 a32
  let a128 := gfMul a64 a64
  gfMul a2 (gfMul a4 (gfMul a8 (gfMul a16 (gfMul a32 (gfMul a64 a128)))))

def sboxOf (a : Byte) : Byte :=
  let b := gfInv a
  b ^^^ b.rotateLeft 1 ^^^ b.rotateLeft 2 ^^^ b.rotateLeft 3 ^^^ b.rotateLeft 4 ^^^ 0x63

/-- The S-box as a table. -/
def sboxTable : Array Byte := ((List.range 256).map (fun i => sboxOf (BitVec.ofNat 8 i))).toArray

def subByte (b : Byte) : Byte := sboxTable.getD b.toNat 0

/-- Round constant `i`. -/
def rcon : Nat → Byte
  | 0 => 0x01
  | n + 1 => xtime (rcon n)

def xorBytes (a b : List Byte) : List Byte := List.zipWith (· ^^^ ·) a b

/-- The next word of the key schedule from the words so far, newest first. -/
def keyWord (i : Nat) (ws : List (List Byte)) : List Byte :=
  let t := ws.headD []
  let t :=
    if i % 8 = 0 then xorBytes ((t.drop 1 ++ t.take 1).map subByte) [rcon (i / 8 - 1), 0, 0, 0]
    else if i % 8 = 4 then t.map subByte
    else t
  xorBytes (ws.getD 7 []) t

def keyWords : Nat → Nat → List (List Byte) → List (List Byte)
  | 0, _, ws => ws
  | n + 1, i, ws => keyWords n (i + 1) (keyWord i ws :: ws)

/-- The 15 round keys of a 32-byte key. -/
def roundKeys (key : List Byte) : List (List Byte) :=
  let ws := (keyWords 52 8 ((List.range 8).map (fun i => (key.drop (4 * i)).take 4)).reverse).reverse
  (List.range 15).map (fun r => ((ws.drop (4 * r)).take 4).flatten)

def shiftRows (s : List Byte) : List Byte := (List.range 16).map (fun i => s.getD ((i + 4 * (i % 4)) % 16) 0)

def mixColumn (c : List Byte) : List Byte :=
  (List.range 4).map (fun i =>
    let g := fun j => c.getD ((i + j) % 4) 0
    xtime (g 0) ^^^ (xtime (g 1) ^^^ g 1) ^^^ g 2 ^^^ g 3)

def mixColumns (s : List Byte) : List Byte := (List.range 4).flatMap (fun i => mixColumn ((s.drop (4 * i)).take 4))

def aesRounds : List (List Byte) → List Byte → List Byte
  | [], s => s
  | [k], s => xorBytes (shiftRows (s.map subByte)) k
  | k :: ks, s => aesRounds ks (xorBytes (mixColumns (shiftRows (s.map subByte))) k)

/-- AES-256 of a 16-byte block under round keys. -/
def aesBlock (rks : List (List Byte)) (blk : List Byte) : List Byte :=
  aesRounds (rks.drop 1) (xorBytes blk (rks.headD []))

/-! ### CTR_DRBG with AES-256 -/

def beNat (bs : List Byte) : Nat := bs.foldl (fun a b => a * 256 + b.toNat) 0

/-- BCC: chained encryption of a whole number of blocks. -/
def bccFrom (rks : List (List Byte)) : Nat → List Byte → List Byte → List Byte
  | 0, chain, _ => chain
  | n + 1, chain, d => bccFrom rks n (aesBlock rks (xorBytes chain (d.take 16))) (d.drop 16)

def bcc (rks : List (List Byte)) (d : List Byte) : List Byte := bccFrom rks (d.length / 16) (List.replicate 16 0) d

/-- Output blocks of Block_Cipher_df. -/
def dfOut (rks : List (List Byte)) : Nat → List Byte → List Byte
  | 0, _ => []
  | n + 1, x => let y := aesBlock rks x; y ++ dfOut rks n y

/-- Block_Cipher_df for 48 bytes. -/
def blockDf (input : List Byte) : List Byte :=
  let s := beBytes 4 input.length ++ beBytes 4 48 ++ input ++ [0x80]
  let s := s ++ List.replicate ((16 - s.length % 16) % 16) 0
  let rk := roundKeys ((List.range 32).map (fun i => BitVec.ofNat 8 i))
  let temp := (List.range 3).flatMap (fun i => bcc rk (beBytes 4 i ++ List.replicate 12 0 ++ s))
  dfOut (roundKeys (temp.take 32)) 3 ((temp.drop 32).take 16)

/-- Working state: key and V as numbers. -/
structure DrbgState where
  key : BitVec 256
  v   : BitVec 128
  deriving DecidableEq, Repr

/-- Counter-mode blocks from V + 1 on, with the last V. -/
def ctrBlocks (rks : List (List Byte)) : Nat → BitVec 128 → List Byte × BitVec 128
  | 0, v => ([], v)
  | n + 1, v =>
    let v := v + 1
    let r := ctrBlocks rks n v
    (aesBlock rks (beBytes 16 v.toNat) ++ r.1, r.2)

/-- CTR_DRBG_Update. -/
def drbgUpdate (provided : List Byte) (d : DrbgState) : DrbgState :=
  let t := xorBytes (ctrBlocks (roundKeys (beBytes 32 d.key.toNat)) 3 d.v).1 provided
  { key := BitVec.ofNat 256 (beNat (t.take 32)), v := BitVec.ofNat 128 (beNat (t.drop 32)) }

/-- Instantiate: entropy, nonce and personalization through the derivation function. -/
def drbgInit (seedInput : List Byte) : DrbgState := drbgUpdate (blockDf seedInput) { key := 0, v := 0 }

/-- Reseed. -/
def drbgReseedWith (entropy : List Byte) (d : DrbgState) : DrbgState := drbgUpdate (blockDf entropy) d

/-- Generate `n` bytes. -/
def drbgGenerate (n : Nat) (d : DrbgState) : List Byte × DrbgState :=
  let r := ctrBlocks (roundKeys (beBytes 32 d.key.toNat)) (ceilDiv n 16) d.v
  (r.1.take n, drbgUpdate (List.replicate 48 0) { d with v := r.2 })

/-! ### Modular arithmetic -/

/-- a^e mod m, by the bits of `e` from the lowest. -/
def powModFrom : Nat → Nat → Nat → Nat → Nat → Nat
  | 0, _, _, _, acc => acc
  | n + 1, a, e, m, acc => powModFrom n (a * a % m) (e / 2) m (if e % 2 = 1 then acc * a % m else acc)

def powMod (a e m : Nat) : Nat := powModFrom (Nat.log2 e + 1) (a % m) e m (1 % m)

/-- Inverse modulo a prime. -/
def invMod (a p : Nat) : Nat := powMod a (p - 2) p

/-! ### P-521 (19 R404: FIPS 186-5) -/

def p521P : Nat := 2 ^ 521 - 1
def p521N : Nat :=
  0x01FFFFFFFFFFFFFFFFFFFFFFFFFFFFFFFFFFFFFFFFFFFFFFFFFFFFFFFFFFFFFFFFFA51868783BF2F966B7FCC0148F709A5D03BB5C9B8899C47AEBB6FB71E91386409
def p521B : Nat :=
  0x0051953EB9618E1C9A1F929A21A0B68540EEA2DA725B99B315F3B8B489918EF109E156193951EC7E937B1652C0BD3BB1BF073573DF883D2C34F1EF451FD46B503F00
def p521Gx : Nat :=
  0x00C6858E06B70404E9CD9E3ECB662395B4429C648139053FB521F828AF606B4D3DBAA14B5E77EFE75928FE1DC127A2FFA8DE3348B3C1856A429BF97E7E31C2E5BD66
def p521Gy : Nat :=
  0x011839296A789A3BC0045C8A5FB42C7D1BD998F54449579B446817AFBD17273E662C97EE72995EF42640C550B9013FAD0761353C7086A272C24088BE94769FD16650

/-- A point of the curve, or the point at infinity. -/
abbrev Point := Option (Nat × Nat)

def p521G : Point := some (p521Gx, p521Gy)

def subP (a b : Nat) : Nat := (a + p521P - b % p521P) % p521P

/-- The coordinates are below p and lie on the curve. -/
def onCurve (x y : Nat) : Bool :=
  decide (x < p521P) && decide (y < p521P) && y * y % p521P == (subP (x * x * x) (3 * x) + p521B) % p521P

def pointAdd (a b : Point) : Point :=
  match a, b with
  | .none, q => q
  | q, .none => q
  | some (x1, y1), some (x2, y2) =>
    if x1 = x2 ∧ (y1 + y2) % p521P = 0 then .none
    else
      let l := if x1 = x2 then subP (3 * x1 * x1) 3 * invMod (2 * y1 % p521P) p521P % p521P
               else subP y2 y1 * invMod (subP x2 x1) p521P % p521P
      let x := subP (subP (l * l) x1) x2
      some (x, subP (l * subP x1 x) y1)

def pointMulFrom : Nat → Nat → Point → Point → Point
  | 0, _, _, acc => acc
  | n + 1, k, q, acc => pointMulFrom n (k / 2) (pointAdd q q) (if k % 2 = 1 then pointAdd acc q else acc)

def pointMul (k : Nat) (q : Point) : Point := pointMulFrom 521 k q .none

/-- The point sum of an ECDSA verification. -/
def ecdsaPoint (x y e r s : Nat) : Point :=
  let w := invMod s p521N
  pointAdd (pointMul (e * w % p521N) p521G) (pointMul (r * w % p521N) (some (x, y)))

/-- ECDSA verification of (r, s) over a digest number under a public point. -/
def ecdsaVerify (x y e r s : Nat) : Bool :=
  onCurve x y && decide (0 < r) && decide (r < p521N) && decide (0 < s) && decide (s < p521N) &&
    (match ecdsaPoint x y e r s with
     | some (px, _) => px % p521N == r
     | .none => false)

/-- ECDSA signature of a digest number with a nonce. -/
def ecdsaSign (d e k : Nat) : Nat × Nat :=
  match pointMul k p521G with
  | some (x, _) => let r := x % p521N; (r, invMod k p521N * ((e + r * d) % p521N) % p521N)
  | .none => (0, 0)

/-- The number that ECDSA takes from a SHA-512 digest: its 512 bits, first byte highest (FIPS 186-5). -/
def digestNat (bs : List Byte) : Nat := beNat (sha512 bs)

/-- A public key of 133 bytes, 0x04 then X and Y, little-endian under 00 R4 (log entry 23). -/
def keyX (k : List Byte) : Nat := bytesAt k 1 66
def keyY (k : List Byte) : Nat := bytesAt k 67 66
def keyPrefixOk (k : List Byte) : Bool := bytesAt k 0 1 == 4
def keyBytesOf (q : Point) : List Byte :=
  match q with
  | some (x, y) => [0x04] ++ leBytes 66 x ++ leBytes 66 y
  | .none => List.replicate 133 0

/-- A signature of 132 bytes, r then s, little-endian (19 R404), over bytes under a 133-byte public key. -/
def signatureOk (key sig msg : List Byte) : Bool :=
  keyPrefixOk key && ecdsaVerify (keyX key) (keyY key) (digestNat msg) (bytesAt sig 0 66) (bytesAt sig 66 66)

end Sys2Proof.Machine
end

