-- ==== Sys2Proof/Machine/Cipher.lean ====
section
/-!
DEFINITION. Sys2Proof/Machine/Cipher.lean: the modes and derivations that protect links, openings and the Vault: AES-256-GCM
(17 R363, 12 R264), AES-256-XTS (15 R327) and the one-step key derivation of NIST SP 800-56C with SHA-512 (17 R362, 12 R263).
The algorithms are those the spec names by their standards (log entry 15).
-/

set_option Elab.async false

namespace Sys2Proof.Machine

/-- A block as a number whose highest bit is the first bit of its first byte. -/
def blockBits (b : List Byte) : BitVec 128 := BitVec.ofNat 128 (beNat b)

/-- Product in the field of GCM, by the bits of the first factor from bit `n - 1` down to bit 0. -/
def ghashMulFrom : Nat → BitVec 128 → BitVec 128 → BitVec 128 → BitVec 128
  | 0, _, _, z => z
  | n + 1, x, v, z =>
    ghashMulFrom n x (if v.getLsbD 0 then (v >>> 1) ^^^ (0xE1 <<< 120) else v >>> 1) (if x.getLsbD n then z ^^^ v else z)

def ghashMul (x y : BitVec 128) : BitVec 128 := ghashMulFrom 128 x y 0

/-- Pads to whole blocks with zeros. -/
def padBlocks (bs : List Byte) : List Byte := bs ++ List.replicate ((16 - bs.length % 16) % 16) 0

/-- GHASH over `n` blocks. -/
def ghashFrom (h : BitVec 128) : Nat → List Byte → BitVec 128 → BitVec 128
  | 0, _, y => y
  | n + 1, bs, y => ghashFrom h n (bs.drop 16) (ghashMul (y ^^^ blockBits (bs.take 16)) h)

/-- Counter-mode keystream from a block on: its low 32 bits count. -/
def gcmStream (rks : List (List Byte)) (iv : List Byte) : Nat → Nat → List Byte
  | 0, _ => []
  | n + 1, c => aesBlock rks (iv ++ beBytes 4 c) ++ gcmStream rks iv n (c + 1)

/-- AES-256-GCM with a 96-bit nonce and a 128-bit tag: the sealed bytes and the tag. -/
def gcmSeal (key iv aad text : List Byte) : List Byte × List Byte :=
  let rks := roundKeys key
  let h := blockBits (aesBlock rks (List.replicate 16 0))
  let ct := xorBytes text (gcmStream rks iv (ceilDiv text.length 16) 2)
  let m := padBlocks aad ++ padBlocks ct ++ beBytes 8 (8 * aad.length) ++ beBytes 8 (8 * ct.length)
  let y := ghashFrom h (m.length / 16) m 0
  (ct, xorBytes (beBytes 16 y.toNat) (gcmStream rks iv 1 1))

/-- Opens sealed bytes: none where the tag does not verify. -/
def gcmOpen (key iv aad ct tag : List Byte) : Option (List Byte) :=
  let text := xorBytes ct (gcmStream (roundKeys key) iv (ceilDiv ct.length 16) 2)
  if (gcmSeal key iv aad text).2 = tag then some text else .none

/-- Doubling of an XTS tweak, the first byte lowest. -/
def xtsDouble (t : BitVec 128) : BitVec 128 := if t.getLsbD 127 then (t <<< 1) ^^^ 0x87 else t <<< 1

/-- One block under a tweak. -/
def xtsBlock (rks : List (List Byte)) (t : BitVec 128) (b : List Byte) : List Byte :=
  let tb := leBytes 16 t.toNat
  xorBytes (aesBlock rks (xorBytes b tb)) tb

def xtsFrom (rks : List (List Byte)) : Nat → BitVec 128 → List Byte → List Byte
  | 0, _, _ => []
  | n + 1, t, bs => xtsBlock rks t (bs.take 16) ++ xtsFrom rks n (xtsDouble t) (bs.drop 16)

/-- AES-256-XTS of IEEE 1619 over whole blocks of a data unit, under a 64-byte key: the data key, then the tweak key. -/
def xtsSeal (key : List Byte) (unit : Nat) (text : List Byte) : List Byte :=
  xtsFrom (roundKeys (key.take 32)) (text.length / 16)
    (BitVec.ofNat 128 (leNat (aesBlock (roundKeys (key.drop 32)) (leBytes 16 unit)))) text

/-- The one-step derivation of SP 800-56C with SHA-512: the first 32 bytes of its output. -/
def deriveKey (z info : List Byte) : List Byte := (sha512 (beBytes 4 1 ++ z ++ info)).take 32

/-- HMAC-SHA-512. -/
def hmac512 (key msg : List Byte) : List Byte :=
  let k := padTo 128 (if 128 < key.length then sha512 key else key)
  sha512 (k.map (· ^^^ 0x5C) ++ sha512 (k.map (· ^^^ 0x36) ++ msg))

/-- "KZ-VAULT-WRAP". -/
def wrapLabel : List Byte := [0x4B, 0x5A, 0x2D, 0x56, 0x41, 0x55, 0x4C, 0x54, 0x2D, 0x57, 0x52, 0x41, 0x50]

/-- The Vault's wrapping key: the counter-mode KDF of SP 800-108 with HMAC-SHA-512 from VAULT_SECRET (19, after R402). -/
def wrapKey : List Byte :=
  (hmac512 (beBytes 32 Config.vaultSecret.toNat) (beBytes 4 1 ++ wrapLabel ++ [0] ++ Config.wrapContext)).take 32

/-- The two XTS keys under the wrapping key, and back (15 R327; log entry 149). -/
def wrapKeys (ks : List Byte) : List Byte := List.zipWith (· ^^^ ·) ks (padTo 128 (Config.wrapMask wrapKey))

end Sys2Proof.Machine
end

