-- ==== Sys2Proof/Machine/Operands.lean ====
section
/-!
DEFINITION. Sys2Proof/Machine/Operands.lean: the operand forms of the commands: the 64-byte command packet (16 R340),
the DMA descriptor (13 Table 13-1), the tour package (10 Tables 10-1, 10-2), the Catalogue entry, parameter block and
key header (06 Tables 06-1 to 06-3).
-/

set_option Elab.async false

namespace Sys2Proof.Machine

/-! ### The command packet (16 Tables 16-3, 16-6) -/

/-- The parameter bytes that Table 16-6 assigns to an opcode, as (offset, size); none for an opcode outside it. -/
def opcodeParams (op : Nat) : Option (List (Nat × Nat)) :=
  match op with
  | 0x0100 => some []
  | 0x0101 => some []
  | 0x0102 => some []
  | 0x0103 => some [(8, 1)]
  | 0x0104 => some [(8, 1)]
  | 0x0200 => some [(0x10, 8)]
  | 0x0201 => some [(8, 5), (0x10, 6)]
  | 0x0202 => some [(8, 2)]
  | 0x0203 => some [(8, 2), (0x0C, 4)]
  | 0x0204 => some [(8, 4), (0x10, 18)]
  | 0x0205 => some [(8, 4), (0x10, 8)]
  | 0x0206 => some [(8, 8)]
  | 0x0207 => some [(0x10, 8)]
  | 0x0208 => some [(0x10, 8)]
  | 0x0209 => some []
  | 0x020A => some [(0x10, 16)]
  | 0x020B => some [(8, 2)]
  | 0x020C => some [(8, 32)]
  | 0x0300 => some [(8, 1), (0x10, 12)]
  | 0x0301 => some [(8, 8)]
  | 0x0302 => some [(8, 24)]
  | 0x0303 => some [(8, 43)]
  | 0x0304 => some [(8, 8)]
  | 0x0400 => some [(8, 5), (0x10, 18)]
  | 0x0410 => some []
  | 0x0411 => some []
  | 0x0412 => some [(8, 8)]
  | 0x0413 => some [(8, 16)]
  | 0x0414 => some []
  | 0x0415 => some [(8, 2)]
  | 0x0500 => some [(8, 1)]
  | 0x0501 => some [(8, 6)]
  | 0x0502 => some []
  | 0x0503 => some [(8, 7), (0x10, 16)]
  | 0x0504 => some [(8, 1)]
  | 0x0505 => some [(8, 7), (0x10, 6), (0x18, 8)]
  | 0x0506 => some [(8, 1)]
  | 0x0507 => some [(8, 3)]
  | 0x0508 => some [(8, 4)]
  | 0x0600 => some [(8, 8)]
  | 0x0601 => some [(8, 4)]
  | 0x0602 => some [(8, 1), (0x0C, 4)]
  | 0x0700 => some []
  | 0x0701 => some [(8, 4), (0x0C, 8)]
  | 0x0702 => some [(8, 1), (0x10, 8)]
  | 0x0703 => some [(8, 1), (0x10, 12)]
  | 0x0704 => some [(8, 2), (0x10, 8)]
  | 0x0800 => some [(8, 3), (0x0C, 4)]
  | 0x0801 => some [(8, 1), (0x10, 8)]
  | _ => .none

/-- Byte `o` of a packet lies in no field that R340 lets be non-zero. -/
def unassigned (ps : List (Nat × Nat)) (o : Nat) : Bool :=
  (o == 3 || o == 6 || o == 7 || decide (8 ≤ o)) && ps.all (fun p => !(decide (p.1 ≤ o) && decide (o < p.1 + p.2)))

/-- What the Docent makes of a packet before the command itself is checked. -/
inductive Taken where
  /-- Refused under R340 with a status. -/
  | refuse (st : BitVec 16)
  /-- The command it holds. -/
  | run (c : Instr)
  deriving DecidableEq, Repr

/-- OPCODE, header and fields of a packet. -/
def packetOp (bs : List Byte) : BitVec 16 := BitVec.ofNat 16 (bytesAt bs 0 2)
def packetHdr (src : Src) (bs : List Byte) : Hdr :=
  { src := src, tag := BitVec.ofNat 16 (bytesAt bs 4 2), irq := bitAt (bytesAt bs 2 1) 0, fence := bitAt (bytesAt bs 2 1) 1 }

/-- The command of a packet whose bytes R340 admits; `peer` is what another module answers (17). A selector that names
no command of the table is refused with BAD_PARAM (16 Table 16-8). -/
def packetCommand (h : Hdr) (op : Nat) (bs : List Byte) (peer : Peer) : Taken :=
  let b1 (o : Nat) : BitVec 8 := BitVec.ofNat 8 (bytesAt bs o 1)
  let b2 (o : Nat) : BitVec 16 := BitVec.ofNat 16 (bytesAt bs o 2)
  let b4 (o : Nat) : Word := BitVec.ofNat 32 (bytesAt bs o 4)
  let b8 (o : Nat) : Quad := BitVec.ofNat 64 (bytesAt bs o 8)
  match op with
  | 0x0100 => .run (.identify h)
  | 0x0101 => .run (.galleriesStart h)
  | 0x0102 => .run (.galleriesStop h)
  | 0x0103 => .run (.hbmTrain h (b1 8))
  | 0x0104 =>
    if b1 8 = 1 then .run (.moduleResetGalleries h) else if b1 8 = 2 then .run (.moduleResetDevice h)
    else .refuse stBadParam
  | 0x0200 => .run (.catalogueCreate h (b8 0x10))
  | 0x0201 => .run (.regionDeclare h (b1 8) (b1 9) (b1 0xA) (b1 0xB) (b1 0xC) (b2 0x10) (b2 0x12) (b2 0x14))
  | 0x0202 => .run (.regionRelease h (b1 8) (b1 9))
  | 0x0203 => .run (.regionFill h (b1 8) (b1 9) (b4 0xC))
  | 0x0204 => .run (.objectRegister h (b4 8) (b8 0x10) (b8 0x18) (b2 0x20))
  | 0x0205 => .run (.objectUpdate h (b4 8) (b8 0x10))
  | 0x0206 => .run (.objectRelease h (b4 8) (b4 0xC))
  | 0x0207 => .run (.costTableLoad h (b8 0x10))
  | 0x0208 => .run (.restorationEnable h (b8 0x10))
  | 0x0209 => .run (.restorationDisable h)
  | 0x020A => .run (.atomicOpen h (b8 0x10) (b4 0x18) (b4 0x1C))
  | 0x020B => .run (.atomicClose h (b1 8) (b1 9))
  | 0x020C => .run (.generatorFill h (b1 8) (b1 9) (b1 0xA) (b1 0xB) (b4 0xC) (b8 0x10) (b8 0x18) (b8 0x20))
  | 0x0300 => .run (.tourLoad h (b1 8) (b8 0x10) (b4 0x18))
  | 0x0301 => .run (.tourUnload h (b8 8))
  | 0x0302 => .run (.tourSubmit h (b8 8) (b8 0x10) (b8 0x18))
  | 0x0303 => .run (.restoreSubmit h (b4 8) (b4 0xC) (b4 0x10) (b4 0x14) (b4 0x18) (b4 0x1C) (b8 0x20) (b8 0x28)
      (b1 0x30) (b1 0x31) (b1 0x32))
  | 0x0304 => .run (.tourQuery h (b8 8))
  | 0x0400 => .run (.keyRegister h (b4 8) (b1 0xC) (b8 0x10) (b8 0x18) (b2 0x20))
  | 0x0410 => .run (.vaultOpen h)
  | 0x0411 => .run (.vaultClose h)
  | 0x0412 => .run (.extentRelease h (b4 8) (b4 0xC))
  | 0x0413 => .run (.extentQuery h (b4 8) (b4 0xC) (b8 0x10))
  | 0x0414 => .run (.vaultSanitize h)
  | 0x0415 => .run (.patrolSet h (b1 8) (b1 9))
  | 0x0500 => .run (.portsEnable h (b1 8))
  | 0x0501 => .run (.timeJoin h (b4 8) (b2 0xC))
  | 0x0502 => .run (.timeLeave h)
  | 0x0503 => .run (.windowOpen h (b1 8) (b1 9) (b2 0xA) (b1 0xC) (b1 0xD) (b1 0xE) (b8 0x10) (b8 0x18) peer)
  | 0x0504 => .run (.windowClose h (b1 8))
  | 0x0505 => .run (.groupForm h (b4 8) (b1 0xC) (b1 0xD) (b1 0xE) (BitVec.ofNat 48 (bytesAt bs 0x10 6)) (b8 0x18))
  | 0x0506 => .run (.groupDissolve h (b1 8))
  | 0x0507 => .run (.lockstepSet h (b2 8) (b1 0xA) peer)
  | 0x0508 =>
    if b1 0xB = 0 then .run (.groupRegionRemove h (b1 8) (b1 9) (b1 0xA))
    else if b1 0xB = 1 then .run (.groupRegionRegister h (b1 8) (b1 9) (b1 0xA))
    else .refuse stBadParam
  | 0x0600 => .run (.checkpointTake h (b1 8) (b1 9) (b1 0xA) (b1 0xB) (b4 0xC) peer)
  | 0x0601 => .run (.checkpointRestore h (b4 8))
  | 0x0602 => .run (.migrateFence h (b1 8) (b4 0xC))
  | 0x0700 => .run (.drbgInstantiate h)
  | 0x0701 => .run (.drbgFill h (b1 8) (b1 9) (b1 0xA) (b1 0xB) (b4 0xC) (b4 0x10))
  | 0x0702 =>
    if b1 8 = 0 then .run (.debugLeave h (b8 0x10)) else if b1 8 = 1 then .run (.debugEnter h (b8 0x10))
    else if b1 8 = 2 then .run (.debugDisable h (b8 0x10)) else .refuse stBadParam
  | 0x0703 => .run (.firmwareWrite h (b1 8) (b8 0x10) (b4 0x18))
  | 0x0704 =>
    match (b2 8).toNat with
    | 0x0001 => .run (.modmul h (b8 0x10))
    | 0x0002 => .run (.modexp h (b8 0x10))
    | 0x0010 => .run (.p521Keygen h (b8 0x10))
    | 0x0011 => .run (.p521Ecdh h (b8 0x10))
    | 0x0012 => .run (.p521Sign h (b8 0x10))
    | 0x0013 => .run (.p521Verify h (b8 0x10))
    | _ => .refuse stBadParam
  | 0x0800 => .run (.monitorConfig h (b1 8) (b1 9) (b1 0xA) (b4 0xC))
  | 0x0801 => .run (.monitorSnapshot h (b1 8) (b8 0x10))
  | _ => .refuse stBadOpcode

/-- A packet under R340 and, for the mailbox, R346. -/
def readPacket (src : Src) (bs : List Byte) (peer : Peer) : Taken :=
  let op := (packetOp bs).toNat
  match opcodeParams op with
  | .none => .refuse stBadOpcode
  | some ps =>
    if src = .mbox ∧ (op = 0x0302 ∨ op = 0x0303) then .refuse stBadOpcode
    else if decide (4 ≤ bytesAt bs 2 1) || (List.range 64).any (fun o => unassigned ps o && bytesAt bs o 1 != 0) then
      .refuse stBadParam
    else packetCommand (packetHdr src bs) op bs peer

/-! ### The tour package (10 Tables 10-1, 10-2) -/

def pkMask (rd : Rd) : Nat := rd 0x10 4
def pkTourId (rd : Rd) : Nat := rd 0x08 8
def pkPolicy (rd : Rd) : Nat := rd 0x06 1
def pkSpans (rd : Rd) : Nat := rd 0x07 1
def pkBudget (rd : Rd) : Nat := rd 0x14 4
def pkSlack (rd : Rd) : Nat := rd 0x18 4
def pkHold (rd : Rd) : Nat := rd 0x1C 4
def pkBindings (rd : Rd) : Nat := rd 0x20 2
def pkOps (rd : Rd) : Nat := rd 0x22 2
def pkWindows (rd : Rd) : Nat := rd 0x24 4
def pkJoint (rd : Rd) : Nat := rd 0x28 1
def pkManifest (rd : Rd) : Nat := rd 0x30 4

/-- Galleries set in a mask below gallery `g`. -/
def maskBelow (mask g : Nat) : Nat := popBelow mask g

/-- Offset of the sections of the manifest: bindings, operations, spans, profile, and the end of the profile. -/
def pkBindAt (rd : Rd) : Nat := 0x40 + 8 * maskBelow (pkMask rd) 32
def pkOpsAt (rd : Rd) : Nat := pkBindAt rd + 8 * pkBindings rd
def pkSpansAt (rd : Rd) : Nat := pkOpsAt rd + 16 * pkOps rd
def pkWattsAt (rd : Rd) : Nat := pkSpansAt rd + 4 * pkSpans rd
def pkEnd (rd : Rd) : Nat := pkWattsAt rd + 2 * pkWindows rd

/-- Offset of the image of a gallery in the package. -/
def pkImage (rd : Rd) (g : Nat) : Nat := rd (0x40 + 8 * maskBelow (pkMask rd) g) 8

/-- A reader of the image of a gallery. -/
def imageOf (rd : Rd) (g : Nat) : Rd := let o := pkImage rd g; fun a n => rd (o + a) n

def readBinding (e : Nat) : Binding := { cat := fieldAt e 0 18, reads := bitAt e 18, writes := bitAt e 19 }

def readPrim (e : Nat) : Prim :=
  { code := fieldAt e 0 8, pres := BitVec.ofNat 4 (fieldAt e 8 4), in0 := fieldAt e 16 8, in1 := fieldAt e 24 8,
    out := fieldAt e 32 8, key := fieldAt e 40 8, param := fieldAt e 64 32 }

def readSpan (e : Nat) : Span := { head := fieldAt e 0 5, last := fieldAt e 5 5, fedOutlet := bitAt e 10 }

def pkBindingList (rd : Rd) : List Binding :=
  (List.range (pkBindings rd)).map (fun i => readBinding (rd (pkBindAt rd + 8 * i) 8))
def pkOpList (rd : Rd) : List Prim := (List.range (pkOps rd)).map (fun i => readPrim (rd (pkOpsAt rd + 16 * i) 16))
def pkSpanList (rd : Rd) : List Span := (List.range (pkSpans rd)).map (fun i => readSpan (rd (pkSpansAt rd + 4 * i) 4))
def pkWattList (rd : Rd) : List Nat := (List.range (pkWindows rd)).map (fun i => rd (pkWattsAt rd + 2 * i) 2)

/-- The package of a tour. -/
def tourRd (t : Tour) : Rd := bytesRd t.package.toArray 0

/-- The image of a gallery in the package of a tour. -/
def tourImage (t : Tour) (g : Nat) : Rd := imageOf (tourRd t) g

/-- A tour names region `r` of gallery `g`: the image of the gallery has a region entry for it (10 R225, R471), or the
tour is a Restoration, which works in B60 to B63 of every gallery (07 R145). -/
def tourNames (t : Tour) (g r : Nat) : Bool :=
  t.mask.getLsbD g &&
    (if t.restore.isSome then decide (60 ≤ r) else (imgRegions (tourImage t g)).any (fun e => e.region == r))

/-- A loaded or accepted tour names the region (04 R73). -/
def regionNamed (s : State) (g r : Nat) : Bool := s.tours.any (fun t => tourLive t && tourNames t g r)

end Sys2Proof.Machine
end

