-- ==== Sys2Proof/Machine/Hbm.lean ====
section
/-!
DEFINITION. Sys2Proof/Machine/Hbm.lean: HBM (14): atomic ranges and their updates, hub bursts on the slot wheel, CXL.mem
accesses, the traffic generator, line rewrites.
-/

set_option Elab.async false

namespace Sys2Proof.Machine

/-! ### Atomic ranges (14 R307, R308) -/

/-- SRAM of the atomic cache of one stack: 32 MiB. -/
def sramBytes : Nat := 33554432

/-- Open ranges of a stack, with their numbers. -/
def openRanges (s : State) (k : Nat) : List (Nat × AtomRange) :=
  (List.range 16).filterMap (fun i => (vget (stkOf s k).ranges i .none).map (fun r => (i, r)))

/-- A range that ATOMIC_OPEN may not open: outside the limits of R307, or over a range that is open (log entry 40). -/
def rangeBad (s : State) (a n q : Nat) : Bool :=
  a % 64 != 0 || n % 64 != 0 || n == 0 || decide (hbmBytes < a + n) || stackOf a != stackOf (a + n - 1) ||
    !modulusOk q (Nat.log2 q + 1) || decide (16 ≤ (openRanges s (stackOf a)).length) ||
    decide (sramBytes < n + sumNat ((openRanges s (stackOf a)).map (fun r => r.2.length))) ||
    (openRanges s (stackOf a)).any (fun r => decide (r.2.base < a + n) && decide (a < r.2.base + r.2.length))

/-- Loads a range into SRAM through hub slots: ECC events count, lines that arrive poisoned are marked (R304, R311). -/
def loadRange (i a n q : Nat) (s : State) : State :=
  let bad := listedLines s.hbm.dead a n
  let s := noteRange 4 a n s
  let r : AtomRange := { base := a, length := n, q := BitVec.ofNat 32 q, sram := smSpan a n s.hbm.mem, poisoned := bad }
  modStk s (stackOf a) (fun st => { st with ranges := vset st.ranges i (some r) })

/-- ATOMIC_OPEN (14 R307; 17 R379): the range is open, and loaded, from its REPLY on (16 R351). -/
def doAtomicOpen (a n q : Nat) (s : State) : Answer × State :=
  if rangeBad s a n q then (ansFail stBadParam, s)
  else if lockstepOn s || !hbmUsable s a n || halfClaimed s (stackOf a) (halfOf a) || halfClaimed s (stackOf a) (halfOf (a + n - 1)) then
    (ansFail stNotReady, s)
  else
    let i := ((List.range 16).find? (fun j => (vget (stkOf s (stackOf a)).ranges j .none).isNone)).getD 0
    (ansLong (.atomicOpen (stackOf a) i), loadRange i a n q s)

/-- Writes an open range back and closes it: whole lines, those loaded poisoned poisoned again (R311). -/
def writeBack (k i : Nat) (s : State) : State :=
  match vget (stkOf s k).ranges i .none with
  | .none => s
  | some r =>
    let m := s.hbm.mem
    let mem := m.filter (fun p => decide (p.1 < r.base)) ++
      (smSpan r.base r.length r.sram ++ m.filter (fun p => decide (r.base + r.length ≤ p.1)))
    let out := fun (ls : List Nat) => ls.filter (fun l => !inLines r.base r.length l)
    let s := snoopRange r.base r.length s
    let s := { s with hbm := { s.hbm with mem := mem, weak := out s.hbm.weak, dead := r.poisoned ++ out s.hbm.dead } }
    modStk s k (fun st => { st with ranges := vset st.ranges i .none })

/-- ATOMIC_CLOSE (14 R307): every update that arrived before it is in the SRAM that it writes back. A range that is not
open is refused (log entry 40). -/
def doAtomicClose (i k : Nat) (s : State) : Answer × State :=
  if decide (8 ≤ k) || decide (16 ≤ i) || (vget (stkOf s k).ranges i .none).isNone then (ansFail stBadParam, s)
  else (ansLong (.atomicClose k i), writeBack k i s)

/-! ### Atomic updates (14 R309 to R311) -/

/-- Bytes of the element of a RED_OP; 0 for a code outside Table 14-6. -/
def redSize (op : Nat) : Nat :=
  if op = 2 ∨ op = 8 ∨ op = 10 then 8 else if 1 ≤ op ∧ op ≤ 9 then 4 else 0

/-- The element's new value and the FADD events, from its old value x, the operand y and the compare value. -/
def redValue (op q x y cmp : Nat) : Nat × Bool × Bool :=
  match op with
  | 1 => ((x + y) % 2 ^ 32, false, false)
  | 2 => ((x + y) % 2 ^ 64, false, false)
  | 3 => ((if q ≤ x + y then x + y - q else x + y) % 2 ^ 32, false, false)
  | 4 => let r := fAdd (BitVec.ofNat 32 x) (BitVec.ofNat 32 y); (r.w.toNat, r.sat, r.nan)
  | 5 => (if sext 32 x ≤ sext 32 y then x else y, false, false)
  | 6 => (if sext 32 y ≤ sext 32 x then x else y, false, false)
  | 7 => (y % 2 ^ 32, false, false)
  | 8 => (y % 2 ^ 64, false, false)
  | 9 => (if x = cmp % 2 ^ 32 then y % 2 ^ 32 else x, false, false)
  | 10 => (if x = cmp % 2 ^ 64 then y % 2 ^ 64 else x, false, false)
  | _ => (x, false, false)

/-- What an update answers: its status and the old value, returned to fabric requests (Table 14-6). -/
structure RedRes where
  status : BitVec 16
  old    : Nat
  deriving DecidableEq, Repr

/-- Applies one update at the SRAM that serves the element, a line that the host may cache snooped first (R302); an address outside
open ranges is refused, an element of a line loaded poisoned is left (R311). -/
def applyUpdate (a op y cmp : Nat) (s : State) : RedRes × State :=
  let n := redSize op
  let s := snoopLine s (lineOf a)
  match findRange s a with
  | .none => ({ status := stAddressRange, old := 0 }, s)
  | some (i, r) =>
    if n = 0 ∨ a % n ≠ 0 then ({ status := stBadParam, old := 0 }, s)
    else if r.poisoned.contains (lineOf a) then ({ status := stRegionPoisoned, old := 0 }, s)
    else
      let x := leNat (smRead 0 a n r.sram)
      let y := y % 2 ^ (8 * n)
      let (v, sat, nan) := redValue op r.q.toNat x y cmp
      let r := { r with sram := smPut 0 a (leBytes n v) r.sram }
      ({ status := stOk, old := x }, modStk s (stackOf a) (fun st => { st with
        ranges := vset st.ranges i (some r),
        atomSat := if sat then bump8 st.atomSat else st.atomSat,
        atomNan := if nan then bump8 st.atomNan else st.atomNan }))

/-- ATOMIC_UPDATE: an update arrives at the cache. -/
def doAtomicUpdate (a op y cmp : Nat) (s : State) : State := if hubRuns s then (applyUpdate a op y cmp s).2 else s

/-! ### CXL.mem (14 R302, R305, R306, R308) -/

/-- What a host access returned. -/
def returned (bs : List Byte) (poison : Bool) (s : State) : State :=
  modHost s (fun h => { h with readData := bs, readPoison := poison })

/-- One of the two HDM decoders is enabled (16 Table 16-1; log entry 38). -/
def hdmOn (s : State) : Bool := s.host.hdmEnabled || s.host.hdmEnabled1

/-! ### The slot wheel (14 R293, R301) -/

/-- Slot positions reserved for the hub (14 Table 14-1). -/
def hubSlot (s : State) (slot : Nat) : Bool := slot % 16 == 8 || (s.hbm.hubEighth && slot % 16 == 12)

/-- A tour's slip so far. -/
def slipOf (t : Tour) : Nat := sumNat t.slips.toList

/-- Word sets of a run in the tick `d` ticks after the run's time base, as (slot, line set). -/
def runTick (r : Run) (d : Nat) : List (Nat × Int) :=
  let sl := slotList r.slots
  if d < r.tick then [] else
    (List.range sl.length).filterMap (fun j =>
      let i := (d - r.tick) * sl.length + j
      if i < r.count then some (sl.getD j 0, (r.lineSet : Int) + i * r.stride) else .none)

/-- A burst of a tour on a half, by its slot counted from tick 0, its bank and its direction. -/
structure TourBurst where
  slot  : Nat
  bank  : Nat
  write : Bool
  deriving DecidableEq, Repr

/-- An accepted tour streams to or from half `h` of stack `k`. -/
def streams (k h : Nat) (t : Tour) : Bool := tourAccepted t && t.claims.any (fun c => c.stack == k && c.half == decide (h = 1))

/-- Bursts of a tour on half `h` of stack `k` in the tick `tick`. -/
def tourBursts (t : Tour) (k h tick : Nat) : List TourBurst :=
  if t.start + slipOf t ≤ tick then
    (maskList t.mask).flatMap (fun g =>
      (imgScheds (tourImage t g)).flatMap (fun sc =>
        if sc.stack = k ∧ sc.half = h then
          sc.runs.flatMap (fun r => (runTick r (tick - t.start - slipOf t)).map (fun (sl, ls) =>
            { slot := 64 * tick + sl, bank := ls.toNat % 32, write := sc.write }))
        else []))
  else []

/-- Bursts of every accepted tour on a half near the present tick. -/
def burstsNear (s : State) (k h : Nat) : List TourBurst :=
  let tick := s.time.now
  (s.tours.filter (streams k h)).flatMap (fun t =>
    (List.range 4).flatMap (fun i => if tick + i = 0 then [] else tourBursts t k h (tick + i - 1)))

/-- Distance of two slots. -/
def slotGap (a b : Nat) : Nat := (a - b) + (b - a)

/-- The bank of a line (14 R292). -/
def bankOf (line : Nat) : Nat := ((line * 64 % halfBytes) / 64 / 16) % 32

/-- The pair of a line, with its stack and half. -/
def pairOf (line : Nat) : Nat × Nat × Nat := (stackOf (line * 64), halfOf (line * 64), ((line * 64 % halfBytes) / 64) % 16)

/-- Two bursts of one pair keep the bank separations of Table 14-2. -/
def bankGapOk (b1 b2 gap : Nat) : Bool :=
  if b1 = b2 then decide (32 ≤ gap) else if b1 % 8 = b2 % 8 then decide (2 ≤ gap) else decide (1 ≤ gap)

/-- Two bursts of one pair keep R294: one direction in a half-tick, and none in the first two slots of a half-tick after one of the
other direction. -/
def turnOk (a : Nat) (wa : Bool) (b : Nat) (wb : Bool) : Bool :=
  wa == wb || (a / 32 != b / 32 && (a / 32 + 1 != b / 32 || decide (2 ≤ b % 32)) && (b / 32 + 1 != a / 32 || decide (2 ≤ a % 32)))

/-- A hub burst in slot `at_`, counted from tick 0, keeps its distance from the bursts of tours and from those of the hub (R301). -/
def burstFits (s : State) (near : List TourBurst) (line at_ : Nat) (write : Bool) : Bool :=
  hubSlot s (at_ % 64) &&
    near.all (fun b => turnOk b.slot b.write at_ write && bankGapOk (bankOf line) b.bank (slotGap b.slot at_)) &&
    s.hbm.bursts.all (fun b => pairOf b.2.1 != pairOf line ||
      (turnOk b.1 b.2.2 at_ write && bankGapOk (bankOf line) (bankOf b.2.1) (slotGap b.1 at_)))

/-- Bursts of tours near the half of a line. -/
def nearLine (s : State) (line : Nat) : List TourBurst := burstsNear s (stackOf (line * 64)) (halfOf (line * 64))

/-- The first hub slot of the present tick that can take a burst of the line. -/
def slotFor (s : State) (near : List TourBurst) (line : Nat) (write : Bool) : Option Nat :=
  ((List.range 64).map (64 * s.time.now + ·)).find? (fun at_ => burstFits s near line at_ write)

/-- A hub burst of a line takes slot `at_`. -/
def takeSlot (line at_ : Nat) (write : Bool) (s : State) : State :=
  { s with hbm := { s.hbm with bursts := (at_, line, write) :: s.hbm.bursts.filter (fun b => decide (at_ < b.1 + 128)) } }

/-- The first hub slot of the present tick or the next that can take a burst of the line. -/
def lineSlot (s : State) (near : List TourBurst) (line : Nat) (write : Bool) : Option Nat :=
  ((List.range 128).map (64 * s.time.now + ·)).find? (fun at_ => burstFits s near line at_ write)

/-- The lines take hub slots one after another, but for those that stand in the SRAM of an atomic range (R301, R308); none when a
line finds no slot. `near` gives the bursts of tours near a line. -/
def placeLines (near : Nat → List TourBurst) (write : Bool) : List Nat → State → Option State
  | [], s => some s
  | l :: ls, s =>
    if (findRange s (l * 64)).isSome then placeLines near write ls s
    else
      match lineSlot s (near l) l write with
      | some at_ => placeLines near write ls (takeSlot l at_ write s)
      | .none => .none

/-- A hub access of a range takes its slots in the present tick or the next (R301; log entry 42). A range lies in one half, or ends
in another. -/
def placeRange (a n : Nat) (write : Bool) (s : State) : Option State :=
  if n = 0 then some s
  else
    let first := lineOf a
    let last := lineOf (a + n - 1)
    let n0 := nearLine s first
    let n1 := nearLine s last
    let half := fun (line : Nat) => line * 64 / halfBytes
    placeLines (fun l => if half l = half first then n0 else n1) write ((List.range (last + 1 - first)).map (first + ·)) s

def isWrite {α : Type} (acc : Access α) : Bool := match acc with | .read => false | .write _ => true

/-- A hub burst takes its slot. What a read delivers goes to its client (log entry 42). -/
def placeBurst (a at_ : Nat) (acc : Access (List Byte)) (s : State) : State :=
  let line := lineOf a
  let s := takeSlot line at_ (isWrite acc) s
  match acc with
  | .read =>
    let (bs, bad, s) := hubRead s (line * 64) 64
    if bad.isSome then let (f, s) := freeBytes 64 s; returned f true s else returned bs false s
  | .write bs => (hubWriteLine s a bs).2

/-- HUB_BURST: a burst of a hub client for a slot of the present tick; one that does not fit is held to a later hub slot. -/
def doHubBurst (a slot : Nat) (acc : Access (List Byte)) (s : State) : State :=
  let line := lineOf a
  if !hubRuns s || decide (hbmBytes ≤ a) || !hbmTrained s (line * 64) 64 then s
  else if burstFits s (nearLine s line) line (64 * s.time.now + slot) (isWrite acc) then placeBurst a (64 * s.time.now + slot) acc s
  else { s with held := s.held ++ [.burst a acc] }

/-- A held burst takes the first hub slot of the present tick that fits; false when none does. -/
def tryBurst (a : Nat) (acc : Access (List Byte)) (s : State) : Bool × State :=
  match slotFor s (nearLine s (lineOf a)) (lineOf a) (isWrite acc) with
  | some at_ => (true, placeBurst a at_ acc s)
  | .none => (false, s)

/-! ### CXL.mem (14 R302, R305, R306, R308) -/

/-- A host access of device memory. The data of a poisoned line are free values (log entry 41). -/
def cxlNow (a : Nat) (cached : Bool) (acc : Access (List Byte)) (s : State) : State :=
  match acc with
  | .read =>
    let la := lineOf a * 64
    let (bad, s) := readLineEcc 2 (lineOf a) s
    let s := if cached then modHost s (fun h => { h with hostLines := lineOf a :: h.hostLines.filter (· ≠ lineOf a) })
      else snoopLine s (lineOf a)
    if bad then let (bs, s) := freeBytes 64 s; returned bs true s else returned (hbmGet s la 64) false s
  | .write bs =>
    let (ok, s) := hubWriteLine s a bs
    returned [] (!ok) s

/-- The access takes its hub slot; none when it finds none (R301). -/
def cxlSlot (s : State) (a : Nat) (acc : Access (List Byte)) : Option State := placeRange (lineOf a * 64) 64 (isWrite acc) s

/-- A host access to the line is held. -/
def lineHeld (s : State) (line : Nat) : Bool := s.held.any (fun h => match h with | .cxl b _ _ => lineOf b == line | _ => false)

/-- CXL_MEM_ACCESS: a host read or write of device memory; needs an HDM decoder and a trained stack. What an untrained stack
returns is a free value (log entry 41). An access that finds no hub slot is held, and so is one behind it to the same line. -/
def doCxlMem (a : Nat) (cached : Bool) (acc : Access (List Byte)) (s : State) : State :=
  if !hubRuns s || !hdmOn s || decide (hbmBytes ≤ a) then s
  else if !hbmTrained s (lineOf a * 64) 64 then
    match acc with
    | .read => let (bs, s) := freeBytes 64 s; returned bs false s
    | .write _ => s
  else
    let hold := { s with held := s.held ++ [.cxl a cached acc] }
    if lineHeld s (lineOf a) then hold
    else match cxlSlot s a acc with | some s => cxlNow a cached acc s | .none => hold

/-! ### HBM_CTRL and the traffic generator (14 R296, R312, R313) -/

/-- HUB_SHARE_WRITE. -/
def doHubShare (v : Nat) (s : State) : State :=
  if !hubRuns s || bitAt v 0 == s.hbm.hubEighth then s
  else if anyLive s then { s with hbm := { s.hbm with shareRefusals := bump8 s.hbm.shareRefusals } }
  else { s with hbm := { s.hbm with hubEighth := bitAt v 0 } }

/-- START is taken (R313); a reserved MODE or PATTERN starts nothing (log entry 43). -/
def tgStarts (s : State) (k mode pattern : Nat) : Bool :=
  !(stkOf s k).tgBusy && decide (mode ≤ 1) && (mode == 1 || (decide (pattern ≤ 2) && !hdmOn s && !catExists s))

/-- TG_START: a write to HBM_TG_CTRL; MODE and PATTERN take it while BUSY is 0 (22 Table 22-3). -/
def doTgStart (k v : Nat) (s : State) : State :=
  if !hubRuns s then s else
  let mode := fieldAt v 4 2
  let pattern := fieldAt v 2 2
  let run := bitAt v 0 && tgStarts s k mode pattern
  modStk s k (fun st =>
    let st := if st.tgBusy then st else { st with tgMode := BitVec.ofNat 2 mode, tgPattern := BitVec.ofNat 2 pattern }
    if run then { st with tgBusy := true, tgDone := false, runMode := BitVec.ofNat 2 mode, runPattern := BitVec.ofNat 2 pattern }
    else st)

/-- The PRBS31 sequence: the register of 31 bits shifts by one, its new bit the sum of bits 30 and 27 (log entry 43). -/
def prbsNext (x : BitVec 31) : BitVec 31 := (x <<< 1) ||| BitVec.ofNat 31 (bit01 (x.getLsbD 30 ^^ x.getLsbD 27))

def prbsAfter : Nat → BitVec 31 → BitVec 31
  | 0, x => x
  | n + 1, x => prbsAfter n (prbsNext x)

/-- Bit `i` of the sequence of pseudo-channel `p`, seeded with p + 1 (14, after R313). -/
def prbsBit (p i : Nat) : Bool := (prbsAfter i (BitVec.ofNat 31 (p + 1))).getLsbD 30

/-- The byte `j` of burst `n` of pseudo-channel `p`, whose line is L, under a pattern. WALKING_ONES starts with bit 0
(log entry 43). -/
def tgByte (pattern p n L j : Nat) : Byte :=
  if pattern = 0 then
    BitVec.ofNat 8 (sumNat ((List.range 8).map (fun b => if prbsBit p (256 * n + 8 * j + b) then 2 ^ b else 0)))
  else if pattern = 1 then (if n % 256 / 8 = j then BitVec.ofNat 8 (2 ^ (n % 8)) else 0)
  else BitVec.ofNat 8 (L / 256 ^ (j % 4))

/-- Every line of pseudo-channel `p` of stack `k` holds the pattern: its 32 bytes of each line of its pair. -/
def tgWrite (k pattern : Nat) (p : Nat) (s : State) : State :=
  let half := p / 2 / 16
  let base := k * stackBytes + half * halfBytes
  let m := s.hbm.mem
  let bytes := (List.range halfBytes).map (fun i =>
    if i / 64 % 16 = p / 2 % 16 ∧ i % 64 / 32 = p % 2 then tgByte pattern p (i / 1024) (i / 64) (i % 32)
    else smGet 0 (base + i) m)
  { s with hbm := { s.hbm with mem := smPut 0 base bytes m } }

/-- A line belongs to a pair with pseudo-channels of a mask: how many of the two. -/
def maskedPcs (k : Nat) (mask : Quad) (line : Nat) : Nat :=
  let (st, h, j) := pairOf line
  if st = k then bit01 (mask.getLsbD (2 * (16 * h + j))) + bit01 (mask.getLsbD (2 * (16 * h + j) + 1)) else 0

/-- TG_DONE (R312): WRITE_CHECK leaves its pattern and the mismatches the checkers found; READ_SCAN counts the ECC
events of the lines it read. A whole line written loses its errors. -/
def doTgDone (k : Nat) (mismatches : List Nat) (s : State) : State :=
  let st := stkOf s k
  if !hubRuns s || !st.tgBusy then s else
  let fin := fun (x : State) => modStk x k (fun y => { y with tgBusy := false, tgDone := true })
  if st.runMode = 0 then
    let s := modHost s (fun h => { h with hostLines := h.hostLines.filter (fun l => maskedPcs k st.tgMask l == 0) })
    let s := ((List.range 64).filter (fun p => st.tgMask.getLsbD p)).foldl (fun x p => tgWrite k st.runPattern.toNat p x) s
    let s := { s with hbm := { s.hbm with weak := s.hbm.weak.filter (fun l => maskedPcs k st.tgMask l != 2),
                                          dead := s.hbm.dead.filter (fun l => maskedPcs k st.tgMask l != 2) } }
    fin (foldRange 64 (fun p x => if st.tgMask.getLsbD p then
        modStk x k (fun y => { y with tgErr := vmod y.tgErr p 0 (fun e => bumpBy32 e (mismatches.getD p 0)) }) else x) s)
  else
    fin (noteLines 3 (fun l => maskedPcs k st.tgMask l != 0) s)

/-! ### Rewrites and refresh (18 R388, 14 R295) -/

/-- The line was corrected twice within 64 evaluation periods, and its rewrite is still owed. The list has the latest first. -/
def correctedTwice (s : State) (line : Nat) : Bool :=
  let ps := (s.hbm.fixes.filter (fun f => f.1 == line)).map (·.2)
  (ps.zip (ps.drop 1)).any (fun p => decide (p.1 < p.2 + 64))

/-- LINE_REWRITE: the Conservator writes the whole line with its corrected data in the first hub slot of the present tick that fits,
once no tour claims its half; while none fits, the rewrite stays owed. -/
def doLineRewrite (line : Nat) (s : State) : State :=
  if !hubRuns s || !correctedTwice s line || halfClaimed s (stackOf (line * 64)) (halfOf (line * 64)) then s
  else match slotFor s (nearLine s line) line true with
    | .none => s
    | some at_ =>
      let s := takeSlot line at_ true s
      let s := snoopLine { s with hbm := { s.hbm with fixes := s.hbm.fixes.filter (fun f => f.1 != line) } } line
      if s.hbm.dead.contains line then s else { s with hbm := { s.hbm with weak := s.hbm.weak.filter (· ≠ line) } }

/-- REFRESH_RATE_CHANGE: stack `k` crossed 85 °C. -/
def doRefreshRate (k : Nat) (hot : Bool) (s : State) : State :=
  if !hubRuns s then s
  else
    let b := BitVec.ofNat 8 (2 ^ k)
    { s with hbm := { s.hbm with doubleRate := if hot then s.hbm.doubleRate ||| b else s.hbm.doubleRate &&& ~~~b } }

/-! ### Meanings -/

def execAtomicOpen (h : Hdr) (addr : Quad) (length q : Word) (s : State) : Out :=
  .next (command h 0x020A (doAtomicOpen addr.toNat length.toNat q.toNat) s)
def execAtomicClose (h : Hdr) (range stack : BitVec 8) (s : State) : Out :=
  .next (command h 0x020B (doAtomicClose range.toNat stack.toNat) s)
def execHubShareWrite (value : Word) (s : State) : Out := .next (doHubShare value.toNat s)
def execTgStart (stack : BitVec 3) (value : Word) (s : State) : Out := .next (doTgStart stack.toNat value.toNat s)
def execTgDone (stack : BitVec 3) (mismatches : List Nat) (s : State) : Out := .next (doTgDone stack.toNat mismatches s)
def execHubBurst (addr : Nat) (slot : BitVec 6) (acc : Access (List Byte)) (s : State) : Out :=
  .next (doHubBurst addr slot.toNat acc s)
def execLineRewrite (line : Nat) (s : State) : Out := .next (doLineRewrite line s)
def execAtomicUpdate (addr : Nat) (redOp : BitVec 8) (operand compare : Quad) (s : State) : Out :=
  .next (doAtomicUpdate addr redOp.toNat operand.toNat compare.toNat s)
def execCxlMemAccess (addr : Nat) (cached : Bool) (acc : Access (List Byte)) (s : State) : Out :=
  .next (doCxlMem addr cached acc s)
def execRefreshRateChange (stack : BitVec 3) (hot : Bool) (s : State) : Out := .next (doRefreshRate stack.toNat hot s)

end Sys2Proof.Machine
end

