-- ==== Sys2Proof/Machine/Arith.lean ====
section
/-!
DEFINITION. Sys2Proof/Machine/Arith.lean: the modular engine (05): the Barrett sequence with its checks, lazy
accumulation and the radix-16 transform passes.
-/

set_option Elab.async false

namespace Sys2Proof.Machine

/-- A failed check of 05 R113: its cause of Table 05-8. -/
abbrev Cause := Nat

/-- What a multiply delivers: its value and the first failing cause, in the order of 05 R467 for one multiply. -/
structure MulRes where
  val   : Nat
  cause : Option Cause
  deriving DecidableEq, Repr

/-- The Barrett sequence of 05 R103. The products are formed exactly, so a residue comparison fails only under the
injection of R115, which the caller applies; the range check fails as the sequence says. -/
def barrett (e : ModEnt) (a b : Nat) : MulRes :=
  let p := a * b
  let x := (p >>> (e.k - 1)) % 2 ^ 32 * e.mu
  let qt := (x >>> (e.k + 1)) % 2 ^ 32
  let t := qt * e.q
  let rp := (p + 2 ^ 64 - t) % 2 ^ 33
  let c := if 3 * e.q ≤ rp then some 4 else .none
  let rp := if e.q ≤ rp then rp - e.q else rp
  let rp := if e.q ≤ rp then rp - e.q else rp
  { val := rp % 2 ^ 32, cause := c }

/-- WIDE form: the 64-bit product, with the range check of 05 R106. -/
def wideMul (a b : Nat) : MulRes :=
  { val := a * b, cause := if 2 ^ 62 ≤ a * b then some 5 else .none }

/-- One update of a modular accumulator row (05 R105). -/
def lazyAdd (fold s v : Nat) : Nat :=
  let t := (s + v) % 2 ^ 64
  if 2 ^ 63 ≤ t then (t - 2 ^ 63 + fold) % 2 ^ 64 else t

/-- Reverses the low `w` bits. -/
def brev : Nat → Nat → Nat
  | _, 0 => 0
  | v, w + 1 => (v % 2) * 2 ^ w + brev (v / 2) w

/-- A group of a transform pass under way: its words and the failed check with its cause and position. -/
structure Grp where
  ws    : List Nat
  fault : Option (Cause × Nat)
  deriving DecidableEq, Repr

/-- The one fault of two (05 R467): the cause that comes first among the transform's, 0x6, 0x7, then 0x4, and the lowest
failing position, whatever its cause (log entry 130). -/
def worseFault (a b : Option (Cause × Nat)) : Option (Cause × Nat) :=
  let rank : Cause → Nat := fun c => if c = 6 then 0 else if c = 7 then 1 else 2
  match a, b with
  | .none, x => x
  | x, .none => x
  | some (c1, p1), some (c2, p2) => some (if rank c2 < rank c1 then c2 else c1, min p1 p2)

/-- A twiddle (05 R110): the product of two table words. `inv` selects the inverse tables. -/
def twiddle (tw : TwRd) (e : ModEnt) (inv : Bool) (n ex : Nat) : MulRes :=
  let h := (n + 1) / 2
  let base := e.twBase + if inv then 2 ^ h + 2 ^ (n - h) else 0
  barrett e (tw (base + ex % 2 ^ h)) (tw (base + 2 ^ h + ex / 2 ^ h))

/-- Exponent of a butterfly (05 R108). -/
def bflyExp (n r b gidx sp d : Nat) : Nat :=
  let s := b + sp
  brev (d >>> (r - sp)) sp * 2 ^ (n - sp) + gidx * 2 ^ (n - s) + 2 ^ (n - 1 - s)

/-- One conditional subtraction of Q from a 64-bit word, kept in 32 bits. -/
def subQ (q x : Nat) : Nat := (if q ≤ x then x - q else x) % 2 ^ 32

/-- x + Q - y in 64-bit words, brought below Q by one conditional subtraction. -/
def diffQ (q x y : Nat) : Nat := subQ q ((x + q + 2 ^ 64 - y) % 2 ^ 64)

/-- One forward butterfly at position `d` of stage `sp` (05 R108). The exponent is taken modulo 2^n by the tables' sizes. -/
def bflyFwd (tw : TwRd) (e : ModEnt) (n r b gidx sp d : Nat) (g : Grp) : Grp :=
  let span := 2 ^ r / 2 ^ (sp + 1)
  if (d / span) % 2 = 1 then g else
  let w := twiddle tw e false n (bflyExp n r b gidx sp d % 2 ^ n)
  let lo := g.ws.getD d 0
  let t := barrett e (g.ws.getD (d + span) 0) w.val
  let x := subQ e.q (lo + t.val)
  let y := diffQ e.q lo t.val
  { ws := (g.ws.set d x).set (d + span) y,
    fault := worseFault g.fault (worseFault (t.cause.map (fun c => (c, d))) (w.cause.map (fun c => (c, 0)))) }

/-- A forward group: r stages, then the digit reversal of the output (05 R108). -/
def groupFwd (tw : TwRd) (e : ModEnt) (n r b gidx : Nat) (ws : List Nat) : Grp :=
  let R := 2 ^ r
  let g := foldRange r (fun sp g => foldRange R (fun d g => bflyFwd tw e n r b gidx sp d g) g) { ws := ws, fault := .none }
  { g with ws := (List.range R).map (fun d => g.ws.getD (brev d r) 0) }

/-- One inverse butterfly (05 R109). -/
def bflyInv (tw : TwRd) (e : ModEnt) (n r b gidx sp d : Nat) (g : Grp) : Grp :=
  let span := 2 ^ r / 2 ^ (sp + 1)
  if (d / span) % 2 = 1 then g else
  let w := twiddle tw e true n (bflyExp n r b gidx sp d % 2 ^ n)
  let x := g.ws.getD d 0
  let y := g.ws.getD (d + span) 0
  let t := barrett e (diffQ e.q x y) w.val
  { ws := (g.ws.set d (subQ e.q (x + y))).set (d + span) t.val,
    fault := worseFault g.fault (worseFault (t.cause.map (fun c => (c, d))) (w.cause.map (fun c => (c, 0)))) }

/-- An inverse group: the digit reversal of the input, then stages r - 1 down to 0 (05 R109). -/
def groupInv (tw : TwRd) (e : ModEnt) (n r b gidx : Nat) (ws : List Nat) : Grp :=
  let R := 2 ^ r
  let g0 : Grp := { ws := (List.range R).map (fun d => ws.getD (brev d r) 0), fault := .none }
  foldRange r (fun i g => foldRange R (fun d g => bflyInv tw e n r b gidx (r - 1 - i) d g) g) g0

/-- Lane after the exchange of the two nibbles (05 R108). -/
def nibSwap (l : Nat) : Nat := 16 * (l % 16) + l / 16

/-- The lane of position `d` of group `gl` (10 R222): GL with the digit bits put back. -/
def groupLane (dpos r gl d : Nat) : Nat := (gl >>> dpos) * 2 ^ (dpos + r) + d * 2 ^ dpos + gl % 2 ^ dpos

/-- The group number of a lane (10 R222). -/
def laneGroup (dpos r l : Nat) : Nat := (l >>> (dpos + r)) * 2 ^ dpos + l % 2 ^ dpos

/-- Position of a lane in its group. -/
def lanePos (dpos r l : Nat) : Nat := (l >>> dpos) % 2 ^ r

/-- What the Transform station delivers for one word set: 256 words and the fault, with its cause and lane. -/
structure XfRes where
  ws    : List Nat
  fault : Option (Cause × Nat)
  deriving DecidableEq, Repr

/-- The groups of a transform pass with the value `gk` of GGEN (10 R222), their results in group order. -/
def transformGroups (tw : TwRd) (e : ModEnt) (b : Nat) (gk : Int) (ws : List Nat) : List Grp :=
  let r := xfRadix b
  let dp := xfDpos b
  (List.range (256 / 2 ^ r)).map (fun gl =>
    let G := ((gk + (if xfGlane b then gl * 2 ^ xfGlshift b else 0 : Nat)) % 2 ^ (4 * xfPass b)).toNat
    let inp := (List.range (2 ^ r)).map (fun d => ws.getD (groupLane dp r gl d) 0)
    if xfInverse b then groupInv tw e (xfLogN b) r (4 * xfPass b) G inp
    else groupFwd tw e (xfLogN b) r (4 * xfPass b) G inp)

/-- One pass over one word set (05 R108, R109): SWAP follows a forward pass and precedes an inverse one. A fault names
the lane of its position, or the first lane of the group for a twiddle. -/
def transformPass (tw : TwRd) (e : ModEnt) (b : Nat) (gk : Int) (ws : List Nat) : XfRes :=
  let r := xfRadix b
  let dp := xfDpos b
  let inp := if xfSwap b && xfInverse b then (List.range 256).map (fun l => ws.getD (nibSwap l) 0) else ws
  let gs := transformGroups tw e b gk inp
  let out := (List.range 256).map (fun l =>
    ((gs.getD (laneGroup dp r l) { ws := [], fault := .none }).ws).getD (lanePos dp r l) 0)
  let fault := foldRange gs.length (fun gl f =>
    worseFault f (((gs.getD gl { ws := [], fault := .none }).fault).map (fun (c, d) => (c, groupLane dp r gl d)))) .none
  { ws := if xfSwap b && !xfInverse b then (List.range 256).map (fun l => out.getD (nibSwap l) 0) else out,
    fault := fault }

end Sys2Proof.Machine
end

