-- ==== Sys2Proof/Machine/Narrow.lean ====
section
/-!
DEFINITION. Sys2Proof/Machine/Narrow.lean: narrow arithmetic (08): formats, the dot-product array with its weight
planes, and narrowing on store with sentinel sampling.
-/

set_option Elab.async false

namespace Sys2Proof.Machine

/-- The 256 lanes. -/
def lanes : List Nat := List.range 256

/-! ### Formats (08 Tables 08-1 to 08-3) -/

def fmtInt4 : Nat := 0
def fmtUint4 : Nat := 1
def fmtInt2 : Nat := 2
def fmtInt8 : Nat := 3
def fmtFp4 : Nat := 4
def fmtK4 : Nat := 5

/-- Twice the magnitude of an E2M1 code (08 Table 08-2). -/
def fp4Twice (c : Nat) : Nat := [0, 1, 2, 3, 4, 6, 8, 12].getD (c % 8) 0

/-- The integer the cells use for an element code; for FP4_MX twice its value. -/
def elemVal (fmt c : Nat) : Int :=
  if fmt = fmtUint4 then (c : Int)
  else if fmt = fmtInt2 then sext 2 c
  else if fmt = fmtInt8 then sext 8 c
  else if fmt = fmtFp4 then signed (bitAt c 3) (fp4Twice c)
  else sext 4 c

/-- Bits of an element. -/
def elemBits (fmt : Nat) : Nat := if fmt = fmtInt2 then 2 else if fmt = fmtInt8 then 8 else 4

/-- Elements in a word. -/
def perWord (fmt : Nat) : Nat := 32 / elemBits fmt

/-- Depth of the array for a format of A (08 R161). -/
def narrowDepth (fmt : Nat) : Nat := if fmt = fmtInt2 then 384 else if fmt = fmtInt8 then 48 else 192

/-- The element at depth position `rho` of a column of words. -/
def depthElem (fmt : Nat) (ws : List Nat) (rho : Nat) : Int :=
  elemVal fmt (fieldAt (ws.getD (rho / perWord fmt) 0) (elemBits fmt * (rho % perWord fmt)) (elemBits fmt))

def hasScale (fmt : Nat) : Bool := fmt == fmtFp4 || fmt == fmtK4

/-- The block exponent that a scale byte holds; `none` for the NaN code 0xFF of E8M0. INT4 has exponent 0. -/
def scaleExp (fmt byte : Nat) : Option Int :=
  if fmt = fmtFp4 then (if byte = 255 then .none else some ((byte : Int) - 127))
  else if fmt = fmtK4 then some (sext 8 byte)
  else some 0

/-- Slices of one plane (08 Table 08-4). -/
def sliceCount (fmtB : Nat) : Nat := if fmtB = fmtInt8 then 12 else if hasScale fmtB then 26 else 24

/-- A weight plane as 26 x 256 words. -/
def planeArray (p : SMem Word) : Array Nat :=
  p.foldl (fun a e => a.setIfInBounds e.1 e.2.toNat) (Array.replicate 6656 0)

/-- The slices of one column. -/
def planeColumn (p : Array Nat) (lane : Nat) : List Nat := (List.range 26).map (fun s => p.getD (256 * s + lane) 0)

/-- The exact sum over a run of depth positions. -/
def dotRange (fa fb : Nat) (a w : List Nat) (start n : Nat) : Int :=
  (List.range n).foldl (fun acc i => acc + depthElem fa a (start + i) * depthElem fb w (start + i)) 0

/-- A lane's result: the word, whether it saturated and whether it is a counted NaN. -/
abbrev LaneRes := FRes

/-- Byte `b` of the scale words that start at word `at_`. Log entry 152: a lane past 255 delivers the scale byte 0 (ASCALE_LANE 255). -/
def scaleByte (ws : List Nat) (at_ b : Nat) : Nat := fieldAt (ws.getD (at_ + b / 4) 0) (8 * (b % 4)) 8

/-- One column of the array for a scaled pair (08 R167, R168). -/
def scaledLane (fa fb ascale : Nat) (a w : List Nat) : LaneRes :=
  let c : Int := if fa = fmtFp4 then 2 else 0
  let sc := (List.range 6).map (fun b =>
    match scaleExp fa (scaleByte a ascale b), scaleExp fb (scaleByte w 24 b) with
    | some xa, some xw => some (fRoundInt (dotRange fa fb a w (32 * b) 32) (xa + xw - c) false)
    | _, _ => .none)
  if sc.any (·.isNone) then fNanRes else
  let v := fun i => (sc.getD i .none).getD { w := 0, sat := false, nan := false }
  let p := fun (x y : FRes) => let r := fAdd x.w y.w; { r with sat := r.sat || x.sat || y.sat }
  p (p (p (v 0) (v 1)) (p (v 2) (v 3))) (p (v 4) (v 5))

/-- The pair delivers FP32 results (08 Table 08-5). -/
def pairScaled (fa fb : Nat) : Bool := hasScale fa || hasScale fb

/-- The dot-product array on one A word set (08 R166, R167). -/
def narrowMul (fa fb ascale : Nat) (a : List Nat) (plane : SMem Word) : List LaneRes :=
  let p := planeArray plane
  lanes.map (fun l =>
    let w := planeColumn p l
    if pairScaled fa fb then scaledLane fa fb ascale a w
    else { w := BitVec.ofInt 32 (dotRange fa fb a w 0 (narrowDepth fa)), sat := false, nan := false })

/-- Operand pairs of Table 08-5. -/
def pairAllowed (fa fb : Nat) : Bool :=
  (fa ≤ 1 && fb ≤ 1) || (fa == 2 && fb == 2) || (fa == 3 && fb == 3) || (fa == 4 && fb == 4) ||
  (fa == 5 && fb == 5) || (fa == 5 && fb == 0) || (fa == 0 && fb == 5)

/-! ### Narrowing on store (08 R172 to R176) -/

/-- A source element: a value n * 2^e, or a NaN. -/
structure Elem where
  n   : Int
  e   : Int
  nan : Bool
  deriving DecidableEq, Repr

/-- A lane's element by kind; an invalid lane takes part as 0. -/
def elemOf (fp valid : Bool) (w : Nat) : Elem :=
  if !valid then { n := 0, e := 0, nan := false }
  else if fp then
    match fDecode (BitVec.ofNat 32 w) with
    | .nan => { n := 0, e := 0, nan := true }
    | .num neg m e => { n := signed neg m, e := e, nan := false }
  else { n := sext 32 w, e := 0, nan := false }

/-- floor(n * 2^e). -/
def dyFloor (n e : Int) : Int := if 0 ≤ e then n * 2 ^ e.toNat else n / 2 ^ (-e).toNat

/-- floor of 65,536 times the fraction of n * 2^e. -/
def dyFrac16 (n e : Int) : Nat :=
  if 0 ≤ e then 0 else ((n % 2 ^ (-e).toNat) * 65536 / 2 ^ (-e).toNat).toNat

/-- n * 2^e to the nearest integer, ties to even. -/
def dyRne (n e : Int) : Int :=
  if 0 ≤ e then n * 2 ^ e.toNat else
  let d : Int := 2 ^ (-e).toNat
  let lo := n / d
  let r := n % d
  if 2 * r > d then lo + 1 else if 2 * r = d then lo + lo % 2 else lo

/-- Rounds n * 2^e onto the integers (08 R173): 0 RNE, 1 RTZ, 2 STOCH with draw `u`. -/
def roundInt (rmode u : Nat) (n e : Int) : Int :=
  if rmode = 0 then dyRne n e
  else if rmode = 1 then signed (decide (n < 0)) (dyFloor n.natAbs e).toNat
  else if u < dyFrac16 n e then dyFloor n e + 1 else dyFloor n e

/-- Least and greatest element of an integer format. -/
def intRange (fmt : Nat) : Int × Int :=
  if fmt = fmtUint4 then (0, 15) else if fmt = fmtInt2 then (-2, 1) else if fmt = fmtInt8 then (-128, 127) else (-8, 7)

/-- A stored element: its code, whether it saturated, and 16 times its value. -/
structure Stored where
  code  : Nat
  sat   : Bool
  val16 : Int
  deriving DecidableEq, Repr

/-- Stores an integer element, clamped (08 R175). -/
def storeInt (fmt rmode u : Nat) (n e : Int) : Stored :=
  let y := roundInt rmode u n e
  let (lo, hi) := intRange fmt
  let z := max lo (min hi y)
  { code := (BitVec.ofInt (elemBits fmt) z).toNat, sat := decide (z ≠ y), val16 := 16 * z }

/-- E2M1 magnitudes times 2, with the next grid value above the range. -/
def fp4Grid : List Nat := [0, 1, 2, 3, 4, 6, 8, 12, 16]

/-- Stores an FP4 element: |y| rounded onto the E2M1 grid, the sign applied afterwards (08 R173, R175). Log entry 152: |y| = 7 is a
tie between 6, whose code is odd, and 8, which has no code; it rounds up and counts as a saturation. -/
def storeFp4 (rmode u : Nat) (n e : Int) : Stored :=
  let m : Int := n.natAbs
  -- twice |y|, as a floor with its fraction kept by comparison
  let atMost := fun (g : Nat) => decide ((g : Int) ≤ dyFloor m (e + 1))
  let i := ((List.range 9).filter (fun j => atMost (fp4Grid.getD j 0))).length - 1
  if 8 ≤ i then { code := if n < 0 then 15 else 7, sat := true, val16 := if n < 0 then -96 else 96 } else
  let lo := fp4Grid.getD i 0
  let gap := fp4Grid.getD (i + 1) 0 - lo
  -- k = floor(65,536 (2|y| - lo) / gap), exact
  let s : Nat := (-(e + 1)).toNat
  let num : Int := (if 0 ≤ e + 1 then m * 2 ^ (e + 1).toNat else m) - (lo : Int) * 2 ^ s
  let k : Nat := (num * 65536 / ((gap : Int) * 2 ^ s)).toNat
  let tie := decide (2 * num = (gap : Int) * 2 ^ s)
  let up := if rmode = 0 then (decide (2 * num > (gap : Int) * 2 ^ s) || (tie && i % 2 == 1))
            else if rmode = 1 then false else decide (u < k)
  let j := if up then i + 1 else i
  let sat := decide (j = 8)
  let j := min j 7
  let neg := decide (n < 0) && decide (j ≠ 0)
  { code := j + if neg then 8 else 0, sat := sat, val16 := signed neg (8 * fp4Grid.getD j 0) }

/-- Comparison of magnitudes |a| <= |b| of two elements. -/
def magLe (a b : Elem) : Bool :=
  let e := min a.e b.e
  decide (a.n.natAbs <<< (a.e - e).toNat ≤ b.n.natAbs <<< (b.e - e).toNat)

/-- The element of largest magnitude among the non-NaN elements of a block. -/
def blockMax (es : List Elem) : Elem :=
  es.foldl (fun m x => if !x.nan && magLe m x then x else m) { n := 0, e := 0, nan := false }

/-- floor(log2 |n * 2^e|) of a non-zero element. -/
def floorLog2 (x : Elem) : Int := (Nat.log2 x.n.natAbs : Int) + x.e

/-- K4's exponent: the least x with M <= 7 * 2^x, clamped; -128 when M is 0 (08 R176). -/
def k4Exp (m : Elem) : Int :=
  if m.n = 0 then -128 else
  let l := floorLog2 m
  -- M < 2^(l+1), so x is l - 2 or l - 1 or l - 3; take the least that holds
  let ok := fun (x : Int) => magLe m { n := 7, e := x, nan := false }
  let x := if ok (l - 3) then l - 3 else if ok (l - 2) then l - 2 else l - 1
  max (-128) (min 127 x)

/-- FP4_MX's exponent X (08 R176). -/
def fp4Exp (m : Elem) : Int := if m.n = 0 then -127 else max (-127) (min 127 (floorLog2 m - 2))

/-- Words of a packed row: data words, scale words (08 Table 08-3). -/
def dataWords (fmt : Nat) : Nat := 256 / perWord fmt
def rowWords (fmt : Nat) : Nat := dataWords fmt + if hasScale fmt then 2 else 0

/-- What a narrowing store forms: the packed words, which of them are padding, saturations, NaN elements, and the
deviations of R179 of the elements that are binned. -/
structure Packed where
  words : List Nat
  pad   : List Bool
  sats  : Nat
  nans  : Nat
  devs  : List Int
  deriving DecidableEq, Repr

/-- Packs a word set into the row of a format. `u` gives the draw of each lane. -/
def packRow (fmt shift rmode : Nat) (u : Nat → Nat) (fp : Bool) (valid : List Bool) (ws : List Nat) : Packed :=
  let es := lanes.map (fun l => elemOf fp (valid.getD l false) (ws.getD l 0 % 2 ^ 32))
  let el := fun l => es.getD l { n := 0, e := 0, nan := false }
  let exps : List Int := (List.range 8).map (fun b =>
    let m := blockMax ((es.drop (32 * b)).take 32)
    if fmt = fmtK4 then k4Exp m else fp4Exp m)
  let xOf := fun l => if hasScale fmt then exps.getD (l / 32) 0 else (shift : Int)
  let allNan := (List.range 8).map (fun b => ((es.drop (32 * b)).take 32).all (·.nan))
  let st := lanes.map (fun l =>
    let x := el l
    if x.nan || !(valid.getD l false) then ({ code := 0, sat := false, val16 := 0 } : Stored)
    else if fmt = fmtFp4 then storeFp4 rmode (u l) x.n (x.e - xOf l)
    else storeInt fmt rmode (u l) x.n (x.e - xOf l))
  let sv := fun l => st.getD l { code := 0, sat := false, val16 := 0 }
  let pw := perWord fmt
  let data := (List.range (dataWords fmt)).map (fun i =>
    sumNat ((List.range pw).map (fun j => (sv (pw * i + j)).code * 2 ^ (elemBits fmt * j))))
  let scByte := fun b =>
    if fmt = fmtFp4 then
      (if allNan.getD b false then 255
       else if (blockMax ((es.drop (32 * b)).take 32)).n = 0 then 0 else (exps.getD b 0 + 127).toNat)
    else (BitVec.ofInt 8 (exps.getD b 0)).toNat
  let scale := if hasScale fmt then
      (List.range 2).map (fun i => sumNat ((List.range 4).map (fun j => scByte (4 * i + j) * 2 ^ (8 * j))))
    else []
  let vl := fun l => valid.getD l false
  let padD := (List.range (dataWords fmt)).map (fun i => (List.range pw).all (fun j => !vl (pw * i + j)))
  let padS := if hasScale fmt then (List.range 2).map (fun i => (List.range 128).all (fun j => !vl (128 * i + j))) else []
  { words := data ++ scale, pad := padD ++ padS,
    sats := (lanes.filter (fun l => (sv l).sat)).length,
    nans := (lanes.filter (fun l => (el l).nan)).length,
    devs := (lanes.filter (fun l => vl l && !(el l).nan)).map (fun l =>
      (sv l).val16 - dyRne (el l).n ((el l).e + 4 - xOf l)) }

/-- Bin of a deviation (08 R179). -/
def sentBin (d : Int) : Nat := (min (max (d + 32) 0) 63).toNat

/-- Narrowing pairs of Table 08-7. -/
def narrowPair (fp : Bool) (nfmt : Nat) : Bool := if fp then nfmt == 4 || nfmt == 5 else nfmt ≤ 3 || nfmt == 5

end Sys2Proof.Machine
end

