-- ==== Sys2Proof/Machine/VectorOps.lean ====
section
/-!
DEFINITION. Sys2Proof/Machine/VectorOps.lean: the operations of the Vector station on one word set (09).
-/

set_option Elab.async false

namespace Sys2Proof.Machine

/-- A lane result with its counted events: saturations and NaN results. -/
structure VRes where
  v    : Nat
  sats : Nat
  nans : Nat
  deriving DecidableEq, Repr

def vres (v : Nat) : VRes := { v := v, sats := 0, nans := 0 }
def vresF (r : FRes) : VRes := { v := r.w.toNat, sats := bit01 r.sat, nans := bit01 r.nan }

/-- The signed value of a 32-bit lane. -/
def s32 (x : Nat) : Int := sext 32 x

/-- An exact integer clamped to int32, counting one saturation when it was clamped (09 R194). -/
def vclamp (v : Int) : VRes := { v := (BitVec.ofInt 32 (clamp32 v)).toNat, sats := bit01 (clamp32 v != v), nans := 0 }

/-- A value modulo 2^32. -/
def m32 (v : Int) : Nat := (BitVec.ofInt 32 v).toNat

/-- MONO (09 R196). -/
def vMono (e : ModEnt) (neg m1 : Bool) (y l : Nat) : Nat :=
  let n := 2 ^ e.logN
  let k := y % (2 * n)
  let k := if neg then (2 * n - k) % (2 * n) else k
  let li := l % n
  let v := if k < n then bit01 (li == k) else if li + n = k then e.q - 1 else 0
  if m1 && li == 0 then (v + e.q - 1) % e.q else v

/-- FSEG (09 R197): `z` is the tile register. Each operation counts under R195. -/
def vFseg (z : List Nat) (x : Nat) : VRes :=
  let zw := fun i => BitVec.ofNat 32 (z.getD i 0)
  let a := fSub (BitVec.ofNat 32 x) (zw 48)
  let u := fMul a.w (zw 49)
  let s := (max 0 (min 15 (fTrunc u.w))).toNat
  let t := fSub u.w (fOfInt (BitVec.ofNat 32 s)).w
  let p := fMul (zw (32 + s)) t.w
  let q := fAdd p.w (zw (16 + s))
  let r := fMul q.w t.w
  let o := fAdd r.w (zw s)
  let all := [a, u, t, p, q, r, o]
  { v := o.w.toNat, sats := (all.filter (·.sat)).length, nans := (all.filter (·.nan)).length }

/-- One lane of a simple operation (09 Table 09-2). `x` has 64 bits; `lidx` is the lane's logical index. -/
def vecLane (op : Nat) (e : ModEnt) (neg m1 : Bool) (imm seed : Nat) (zt : List Nat) (y0 lidx x y z : Nat) : VRes :=
  let xl := x % 2 ^ 32
  let xw := BitVec.ofNat 32 x
  let yw := BitVec.ofNat 32 y
  let zw := BitVec.ofNat 32 z
  let q := e.q
  match op with
  | 0x00 => vres xl
  | 0x01 => vres (x % q)
  | 0x02 => vres (m32 (if q ≤ xl + y then (xl + y : Int) - q else xl + y))
  | 0x03 => let v : Int := (xl : Int) + q - y; vres (m32 (if (q : Int) ≤ v then v - q else v))
  | 0x04 => vres (if xl = 0 then 0 else m32 ((q : Int) - xl))
  | 0x05 => vres (vMono e neg m1 y0 lidx)
  | 0x08 => vres ((xl + y) % 2 ^ 32)
  | 0x09 => vclamp (s32 xl + s32 y)
  | 0x0A => vres (m32 ((xl : Int) - y))
  | 0x0B => vclamp (s32 xl - s32 y)
  | 0x0C => vres (xl * y % 2 ^ 32)
  | 0x0D => vres (if s32 xl ≤ s32 y then xl else y)
  | 0x0E => vres (if s32 y ≤ s32 xl then xl else y)
  | 0x0F => let m := if s32 y ≤ s32 xl then xl else y; vres (if s32 m ≤ s32 z then m else z)
  | 0x10 => vres (xl * 2 ^ (y % 32) % 2 ^ 32)
  | 0x11 => vres (xw.sshiftRight (y % 32)).toNat
  | 0x12 => vres (xw &&& yw).toNat
  | 0x13 => vres (xw ||| yw).toNat
  | 0x14 => vres (xw ^^^ yw).toNat
  | 0x15 => vres (if s32 y < s32 xl then 0xFFFFFFFF else 0)
  | 0x16 => vres (if z ≠ 0 then xl else y)
  | 0x18 => vresF (fAdd xw yw)
  | 0x19 => vresF (fSub xw yw)
  | 0x1A => vresF (fMul xw yw)
  | 0x1B => vresF (fFma xw yw zw)
  | 0x1C => vresF (fMinMax true xw yw)
  | 0x1D => vresF (fMinMax false xw yw)
  | 0x1E => vresF (fOfInt xw)
  | 0x1F => vresF (fToInt xw)
  | 0x20 => vFseg zt xl
  | 0x21 => vres (if imm % 65536 ≤ mixNat seed lidx (xl % 256) % 65536 then xl else 0)
  | _ => vres 0

/-- The kind of the word set that leaves the station: FP32 or int32 (09 Table 09-2). -/
def vecIsFp (b : Nat) : Bool :=
  let op := vecOp b
  if op = 0 ∨ op = 0x16 ∨ op = 0x21 then vecKind b
  else (decide (0x18 ≤ op) && decide (op ≤ 0x20) && op != 0x1F) || op == 0x32 || op == 0x35 || op == 0x36

/-- Operations of the reduction tree. -/
def isTap (op : Nat) : Bool := decide (0x30 ≤ op) && decide (op ≤ 0x36)

/-- Latency of a Vector block (03 Table 03-2). -/
def vecLatency (b : Nat) : Nat := if isTap (vecOp b) then (if vecTap b = 2 then 12 else 8) else 4

/-! ### The reduction tree (09 R199 to R201, R468) -/

def tapIdent (op : Nat) : Int :=
  match op with
  | 0x32 => 0x80000000
  | 0x33 => 0x7FFFFFFF
  | 0x34 => -0x80000000
  | 0x35 => 0x7F7FFFFF
  | 0x36 => 0xFF7FFFFF
  | _ => 0

/-- A lane's value as it enters the tree: signed for TADD, TMIN, TMAX, the word otherwise. -/
def tapIn (op x : Nat) : Int := if op = 0x30 ∨ op = 0x33 ∨ op = 0x34 then s32 x else (x : Int)

def tapF (f : Word → Word → FRes) (a b : TapVal) : TapVal :=
  let r := f (BitVec.ofInt 32 a.v) (BitVec.ofInt 32 b.v)
  { v := r.w.toNat, sat := a.sat || b.sat || r.sat, nan := a.nan || b.nan || r.nan }

/-- The operation of the tree. TADD sums exactly (09 R200). -/
def tapOp (op q : Nat) (a b : TapVal) : TapVal :=
  match op with
  | 0x30 => { v := a.v + b.v, sat := a.sat || b.sat, nan := a.nan || b.nan }
  | 0x31 => let t := a.v + b.v; { v := m32 (if (q : Int) ≤ t then t - q else t), sat := false, nan := false }
  | 0x32 => tapF fAdd a b
  | 0x33 => { v := min a.v b.v, sat := false, nan := false }
  | 0x34 => { v := max a.v b.v, sat := false, nan := false }
  | 0x35 => tapF (fMinMax true) a b
  | _ => tapF (fMinMax false) a b

/-- One level of tree(): neighbours joined. -/
def tapPairs (op q : Nat) : List TapVal → List TapVal
  | a :: b :: rest => tapOp op q a b :: tapPairs op q rest
  | l => l

/-- tree() over a list of 2^n values. -/
def tapTree (op q : Nat) : Nat → List TapVal → TapVal
  | 0, l => l.headD { v := 0, sat := false, nan := false }
  | n + 1, l => tapTree op q n (tapPairs op q l)

/-- TADD clamps its final value (09 R194, R200). -/
def tapFinal (op : Nat) (t : TapVal) : TapVal :=
  if op = 0x30 then { t with v := clamp32 t.v, sat := t.sat || decide (clamp32 t.v ≠ t.v) } else t

/-- The lanes reduced for result lane `l` (09 R199). -/
def tapLanes (tap l : Nat) : List Nat :=
  if tap = 2 then lanes else if tap = 1 then (List.range 16).map (fun i => 16 * i + l)
  else (List.range 16).map (fun j => 16 * l + j)

/-- Result lanes of a tap. -/
def tapCount (tap : Nat) : Nat := if tap = 2 then 1 else 16

/-- A tap result in lane `l`. -/
def tapResult (op q tap : Nat) (xs : List Nat) (valid : List Bool) (l : Nat) : TapVal :=
  let vs := (tapLanes tap l).map (fun i =>
    ({ v := if valid.getD i false then tapIn op (xs.getD i 0 % 2 ^ 32) else tapIdent op, sat := false, nan := false } : TapVal))
  tapFinal op (tapTree op q (if tap = 2 then 8 else 4) vs)

/-- The word of a tap value. -/
def tapWord (t : TapVal) : Nat := m32 t.v

/-- RACC: TILE[l] (+) result[l] (09 R201), with the events of the lane together (R468). -/
def raccVal (op q tile : Nat) (r : TapVal) : TapVal :=
  tapFinal op (tapOp op q { v := tapIn op tile, sat := false, nan := false } r)

end Sys2Proof.Machine
end

