-- ==== Sys2Proof/Machine/Plan.lean ====
section
/-!
DEFINITION. Sys2Proof/Machine/Plan.lean: the schedule of a step: its iterations, the cycles in which their word sets
reach each station (03 R51, R56, R57; 10 R221, R229; 14 R299, R300) and the cabinet words they touch (04 R74 to R77,
R86 to R88; 09 R206, R207).
-/

set_option Elab.async false

namespace Sys2Proof.Machine

/-- A step of an image with what its addresses depend on: gallery, galleries per die, region geometry. -/
structure Ctx where
  g      : Nat
  per    : Nat
  rd     : Rd
  st     : StepV
  native : Bool
  counts : List Nat
  longs  : List LongWord
  rgn    : Nat → Nat → Region

/-- The context of a step of an image. -/
def mkCtx (s : State) (g : Nat) (rd : Rd) (st : StepV) : Ctx :=
  let native := imgForm rd == 0
  { g := g, per := perDie s, rd := rd, st := st, native := native,
    counts := loopCounts (st.loop.getD 0),
    longs := if native then [] else longWords rd 65536 (st.offset + 32),
    rgn := rgnOf s }

/-- Stations as slots of 10 R228. -/
def slA : Nat := 0
def slB : Nat := 1
def slX : Nat := 2
def slM : Nat := 3
def slC : Nat := 4
def slV : Nat := 5
def slO : Nat := 6

def cxLoop (c : Ctx) : Nat := c.st.loop.getD 0

/-- Iterations of the step (10 R217, R229). -/
def cxK (c : Ctx) : Nat := if c.native then (if c.st.loop.isSome then loopK (cxLoop c) else 0) else c.longs.length

/-- Issue cycle of iteration `k` (03 R57, 10 R229). -/
def cxIssue (c : Ctx) (k : Nat) : Nat := if c.native then loopT0 (cxLoop c) + loopIssue (cxLoop c) * k else k

/-- TEMPLATE and ADDR of a slot of long word `k`. -/
def longSlot (c : Ctx) (k slot : Nat) : Option (Nat × Nat) :=
  ((c.longs.getD k { present := 0, stop := true, slots := [] }).slots.find? (fun x => x.1 == slot)).map (·.2)

/-- The block with which a station acts on iteration `k`; none where it passes the word set (03 R52, 10 R230). -/
def cxBlk (c : Ctx) (k slot : Nat) : Option Nat :=
  if c.native then
    (if slot ≤ slB then c.st.intake else if slot = slX then c.st.xform else if slot = slM then c.st.mul
     else if slot = slC then c.st.acc else if slot = slV then c.st.vec else c.st.out)
  else (longSlot c k slot).map (fun x => templateBlock c.rd slot x.1)

/-- The value of generator `i` in iteration `k` (10 R217); in the compatibility form the primary generator of a slot takes
ADDR, every other one its BASE (R230). -/
def cxVal (c : Ctx) (k slot : Nat) (prim : Bool) (i : Nat) : Int :=
  if c.native then genValue c.rd i (loopCtr c.counts k)
  else if prim then (((longSlot c k slot).map (·.2)).getD 0 : Nat)
  else genValue c.rd i []

/-- The stride RS, the one signed consumer of a generator (09 R189, 10 R218): BASE is 32 bits wide, so a value from 2^31 to
2^32 − 1 stands for a negative integer (log entry 73). -/
def cxStride (c : Ctx) (k b : Nat) : Int :=
  let v := cxVal c k slV false (vecRsGen b)
  if 2 ^ 31 ≤ v ∧ v < 2 ^ 32 then v - 2 ^ 32 else v

/-- The step computes in the modular view (10 Table 10-6 MODE, R231). -/
def cxModular (c : Ctx) : Bool := if c.native then loopModular (cxLoop c) else c.rd 0x20 1 == 1

/-- The modulus table and the limb index of iteration `k` (05 R100, 10 R231). -/
def cxLimb (c : Ctx) (k : Nat) : Nat := if c.native then (cxVal c k slX false (loopLimbGen (cxLoop c))).toNat else 0
def cxModTab (c : Ctx) : Nat := if c.native then loopModTab (cxLoop c) else c.rd 0x21 1
def cxEntry (c : Ctx) (k : Nat) : ModEnt := (imgModEnt c.rd (cxModTab c) (cxLimb c k)).getD ModEnt.none

/-! ### Latencies (03 Table 03-2, 02 Table 02-6, 10 R229) -/

/-- L_rel of a cabinet read or write from gallery `g` to gallery `o`, `m` galleries per die. -/
def relOf (m g o : Nat) : Nat :=
  let d := (g - o) + (o - g)
  if decide (g < m) != decide (o < m) then 32
  else if d = 0 then 3 else if d = 1 then 5 else if d ≤ 3 then 7 else if d ≤ 7 then 9 else 11

def cxLX (c : Ctx) : Nat := if !c.native ∨ c.st.xform.isSome then 14 else 1
def cxLM (c : Ctx) : Nat := if !c.native then 10 else if c.st.mul.isSome then (if cxModular c then 10 else 6) else 1
def cxLA (c : Ctx) : Nat := if !c.native ∨ c.st.acc.isSome then 2 else 1
def cxLV (c : Ctx) : Nat := if !c.native then 12 else match c.st.vec with | some b => vecLatency b | .none => 1

/-- Shapes of 10 Table 10-8. -/
def shLinear : Nat := 0
def shRow : Nat := 1
def shColumn : Nat := 2
def shScalar : Nat := 3
def shPermCoeff : Nat := 4
def shPermSlot : Nat := 5
def shTile : Nat := 6
def shGather : Nat := 7
def shScatter : Nat := 8

def isBlockShape (sh : Nat) : Bool := decide (6 ≤ sh) && decide (sh ≤ 8)

/-- Block list `i` of the image. -/
def cxList (c : Ctx) (i : Nat) : BlockList :=
  (imgLists c.rd).getD i { region := 0, rate := 0, count := 0, pitch := 16, at_ := 0 }

/-- Parts of a block access, one a cycle: 4 at QUAD, 16 at SINGLE (09 R207); one access otherwise, and one in the
compatibility form, whose path is fixed (log entry 44). -/
def blockParts (c : Ctx) (sh rate : Nat) : Nat :=
  if c.native && isBlockShape sh then (if rate = 0 then 4 else 16) else 1

def inRate (c : Ctx) (sh b : Nat) : Nat := if sh = shGather then (cxList c (inList b)).rate else inTileRate b
def outRate (c : Ctx) (b : Nat) : Nat := if outShape b = shScatter then (cxList c (outList b)).rate else outTileRate b

/-- Cycles from issue to delivery of a cabinet read. -/
def readLat (c : Ctx) (gal sh rate : Nat) : Nat :=
  if c.native then relOf c.per c.g gal + (blockParts c sh rate - 1) else 3

/-! ### Deliveries -/

def srcNone : Nat := 0
def srcCab : Nat := 1
def srcHbm : Nat := 2
def srcRelay : Nat := 3

/-- Source of A or B in iteration `k`. -/
def aSrc (c : Ctx) (k : Nat) : Nat := match cxBlk c k slA with | some b => inASrc b | .none => srcNone
def bSrc (c : Ctx) (k : Nat) : Nat := match cxBlk c k slB with | some b => inBSrc b | .none => srcNone

def cxSched (c : Ctx) (i : Nat) : Sched := (imgScheds c.rd).getD i { stack := 0, half := 0, write := false, runs := [] }

/-- Die of gallery `g` with `m` galleries per die. -/
def dieAt (m g : Nat) : Nat := if g < m then 0 else 1

/-- L_rel of an HBM stream (02 Table 02-6). -/
def hbmRel (m g stack : Nat) : Nat := if stackDie stack = dieAt m g then 80 else 112

/-- The step cycle of a cycle of tick `tick` of the tour's schedule; negative before the launch. -/
def cxStepCycle (c : Ctx) (tick cyc : Nat) : Int := ((tick : Int) - c.st.launch) * 100 + cyc

/-- Step cycle in which word set `k` of read schedule `i` is delivered (14 R299). -/
def streamCycle (c : Ctx) (i k : Nat) : Option Int :=
  let sc := cxSched c i
  (schedWord sc.runs k).map (fun w => cxStepCycle c w.tick (slotCycle w.slot + hbmRel c.per c.g sc.stack))

/-- Step cycle in which A of iteration `k` enters Transform (03 R51, R56, R477). -/
def cxEnter (c : Ctx) (k : Nat) : Option Int :=
  match cxBlk c k slA with
  | some b =>
    if inASrc b = srcCab then
      some ((cxIssue c k + readLat c (inAGal b) (inAShape b) (inRate c (inAShape b) b) : Nat) : Int)
    else if inASrc b = srcHbm then streamCycle c (inAStream b) k
    else some ((cxIssue c k + 3 : Nat) : Int)
  | .none => some ((cxIssue c k + 3 : Nat) : Int)

/-- Read cycle of B of iteration `k` and whether it is read with HOLD (10 R221). -/
def cxBRead (c : Ctx) (k : Nat) : Option (Int × Bool) :=
  match cxBlk c k slB with
  | some b =>
    if inBSrc b = srcNone then .none
    else if !c.native ∨ inBMode b = 0 then some ((cxIssue c k : Nat), false)
    else if inBMode b = 1 then some ((cxIssue c k : Int) - 1, true)
    else if k = 0 then some ((cxIssue c 0 : Int) - 1, true) else .none
  | .none => .none

/-- Delivery cycle of B of iteration `k`, with HOLD. A relay word set is that of the issue cycle plus 3 in every mode (R477). -/
def cxBDeliver (c : Ctx) (k : Nat) : Option (Int × Bool) :=
  match cxBRead c k, cxBlk c k slB with
  | some (t, hold), some b =>
    if inBSrc b = srcCab then
      some (t + (readLat c (inBGal b) (inBShape b) (inRate c (inBShape b) b) : Nat), hold)
    else if inBSrc b = srcHbm then (streamCycle c (inBStream b) k).map (fun x => (x, hold))
    else some ((cxIssue c k + 3 : Nat), hold)
  | _, _ => .none

/-- Cycles in which iteration `k` enters Outlet, counted from its entry into Transform. -/
def cxToOut (c : Ctx) : Nat := cxLX c + cxLM c + cxLA c + cxLV c

/-- Iteration `k` is the void header iteration (10 R220). -/
def cxVoid (c : Ctx) (k : Nat) : Bool := match c.st.key with | some b => keyHdrIter b == k | .none => false

/-- Landing cycle of the word set of iteration `k`, and its last part (03 Table 03-4, 09 R207, 14 R300, 13 R288). -/
def cxLand (c : Ctx) (k : Nat) : Option Int :=
  match cxBlk c k slO, cxEnter c k with
  | some b, some e =>
    if cxVoid c k then .none
    else
      let o := e + (cxToOut c : Nat)
      let parts : Int := (blockParts c (outShape b) (outRate c b) - 1 : Nat)
      if outDest b = 0 then some (o + 3 + parts)
      else if outDest b = 1 then some (o + (relOf c.per c.g (outDgal b) : Nat) + parts)
      else if outDest b = 2 then
        (schedWord (cxSched c (outStream b)).runs k).map (fun w => cxStepCycle c w.tick (slotCycle w.slot + 2))
      else if outDest b = 3 then some (o + 3) else some (o + 24)
  | _, _ => .none

/-! ### Cabinet words (04 Table 04-1, R86 to R88; 09 R206) -/

/-- The physical word at an offset of a word-mode region; none outside it. -/
def wordAt (r : Region) (o : Int) : Option Nat :=
  if 0 ≤ o ∧ o < rgnWords r then some (rgnBase r + o.toNat) else .none

/-- The physical word of element (row, col) of a 2D region; none outside the matrix. -/
def elemAt (r : Region) (row col : Int) : Option Nat :=
  if 0 ≤ row ∧ 0 ≤ col ∧ row.toNat < r.rows.toNat / r.wblk.toNat ∧ col.toNat < 256 * r.wblk.toNat then
    some (pa2D r row.toNat col.toNat)
  else .none

/-- Index read for lane `l` of word set `t` in a permuted order, and whether it is negated. -/
def permIndex (sh logn e : Nat) (t : Int) (l : Nat) : Int × Bool :=
  let n : Int := 2 ^ logn
  let i := 256 * t + l
  if sh = shPermCoeff then
    let m := ((e : Int) * i) % (2 * n)
    if m < n then (m, false) else (m - n, true)
  else ((((e : Int) * (2 * i + 1)) % (2 * n) - 1) / 2, false)

/-- The physical word of lane `l` for a shape with coordinates `a`, `b`. -/
def laneAddr (r : Region) (sh : Nat) (a b : Int) (pitch : Nat) (l : Nat) : Option Nat :=
  if sh = shLinear then wordAt r (a + l)
  else if sh = shRow then elemAt r a (b + l)
  else if sh = shColumn then elemAt r (a + l) b
  else if sh = shScalar then (if r.mode2D then elemAt r a b else wordAt r a)
  else wordAt r (a + (l / 16 * pitch + l % 16 : Nat))

/-- What Intake reads of one operand in an iteration: the owner, region, lanes in use, per lane its word (none when masked or
outside the region) and whether it is negated. -/
structure ReadSet where
  owner : Nat
  rgn   : Nat
  lanes : Nat
  parts : Nat
  pas   : List (Option Nat)
  negs  : List Bool

def maskLanes (n : Nat) (f : Nat → Option Nat) : List (Option Nat) :=
  lanes.map (fun l => if l < n then f l else .none)

/-- The read of operand A (`isA`) or B of iteration `k` from cabinets. -/
def cxReadSet (c : Ctx) (k : Nat) (isA : Bool) (b : Nat) : ReadSet :=
  let slot := if isA then slA else slB
  let sh := if isA then inAShape b else inBShape b
  let gal := if isA then inAGal b else inBGal b
  let rg := if isA then inARgn b else inBRgn b
  let ln := (if isA then inALanes b else inBLanes b) + 1
  let x := cxVal c k slot true (if isA then inAGen b else inBGen b)
  let y := cxVal c k slot false (if isA then inAGen2 b else inBGen2 b)
  let r := c.rgn gal rg
  let list := cxList c (inList b)
  let parts := blockParts c sh (inRate c sh b)
  let addr := fun l =>
    if sh = shPermCoeff ∨ sh = shPermSlot then wordAt r (x + (permIndex sh (inPermLogN b) (inPermE b) y l).1)
    else if sh = shGather then
      laneAddr r sh (listOffset c.rd list (cxVal c k slot false (inListGen b)).toNat : Nat) 0 list.pitch l
    else laneAddr r sh x y (inTilePitch b) l
  { owner := gal, rgn := rg, lanes := ln, parts := parts, pas := maskLanes ln addr,
    negs := lanes.map (fun l => sh == shPermCoeff && decide (l < ln) && (permIndex sh (inPermLogN b) (inPermE b) y l).2) }

/-- The physical word of word `l` that Outlet stores for iteration `k`. -/
def cxStoreAddr (c : Ctx) (k b l : Nat) : Option Nat :=
  let r := c.rgn (outDgal b) (outDrgn b)
  let list := cxList c (outList b)
  if outShape b = shScatter then
    laneAddr r shScatter (listOffset c.rd list (cxVal c k slO false (outListGen b)).toNat : Nat) 0 list.pitch l
  else laneAddr r (outShape b) (cxVal c k slO true (outGen b)) (cxVal c k slO false (outGen2 b)) (outTilePitch b) l

/-- The Outlet block narrows: NFMT names a format. -/
def outNarrows (b : Nat) : Bool := outNfmt b != 0xF

/-- Words a store may write: the packed row of a narrowing store, 256 otherwise, within LANES. -/
def storeWords (b : Nat) : Nat := min (outLanes b + 1) (if outNarrows b then rowWords (outNfmt b) else 256)

/-- First word and length of the owned extent (10 Table 10-14). -/
def ownExtent (c : Ctx) (b : Nat) : Nat × Nat :=
  if outWhole b then let r := c.rgn (outDgal b) (outDrgn b); (rgnBase r, rgnWords r) else (outOwnBase b, outOwnWords b)

def inExtent (c : Ctx) (b pa : Nat) : Bool := let x := ownExtent c b; decide (x.1 ≤ pa) && decide (pa < x.1 + x.2)

/-- A store to cabinets: DEST 0, 1, or 4 with LOCAL. -/
def storesCab (b : Nat) : Bool := outDest b == 0 || outDest b == 1 || (outDest b == 4 && outLocal b)

/-! ### Validity of lanes (09 R202 to R204) -/

structure TDesc where
  base  : Nat
  pitch : Nat
  extR  : Nat
  extC  : Nat
  deriving DecidableEq, Repr

def readDesc (rd : Rd) (i : Nat) : TDesc :=
  let e := imgEntry rd 6 32 i
  { base := fieldAt e 0 64, pitch := fieldAt e 64 64, extR := fieldAt e 128 32, extC := fieldAt e 160 32 }

/-- Tile coordinates of a Vector block. -/
def tileCoord (c : Ctx) (k b : Nat) : Int × Int := (cxVal c k slV false (vecTrGen b), cxVal c k slV false (vecTcGen b))

def laneValid (c : Ctx) (k b l : Nat) : Bool :=
  if vecDescEn b then
    let d := readDesc c.rd (vecDesc b)
    let t := tileCoord c k b
    decide (16 * t.1 + (l / 16 : Nat) < d.extR) && decide (16 * t.2 + (l % 16 : Nat) < d.extC)
  else true

/-- Logical index of a lane (09 R202, R203), modulo 2^64. -/
def laneLidx (c : Ctx) (k b l : Nat) : Nat :=
  let t := tileCoord c k b
  if vecDescEn b then
    let d := readDesc c.rd (vecDesc b)
    (((d.base : Int) + (16 * t.1 + (l / 16 : Nat)) * d.pitch + 16 * t.2 + (l % 16 : Nat)) % 2 ^ 64).toNat
  else ((t.1 + l) % 2 ^ 64).toNat

/-! ### Sealed images and openings (12 R257, R260) -/

/-- The contexts of an image's steps. -/
def imageCtxs (s : State) (g : Nat) (rd : Rd) : List Ctx := (imgStepList rd).map (mkCtx s g rd)

/-- Intake operands of a step that read cabinets, as (gallery, region). -/
def cabReads (c : Ctx) : List (Nat × Nat) :=
  let of := fun (b : Nat) (isA : Bool) =>
    if (if isA then inASrc b else inBSrc b) = srcCab then [(if isA then inAGal b else inBGal b, if isA then inARgn b else inBRgn b)] else []
  if c.native then (match c.st.intake with | some b => of b true ++ of b false | .none => [])
  else (List.range c.longs.length).flatMap (fun k =>
    (match cxBlk c k slA with | some b => of b true | .none => []) ++
      (match cxBlk c k slB with | some b => of b false | .none => []))

/-- The declared region of a gallery that holds a physical word. -/
def rgnHolding (c : Ctx) (g pa : Nat) : Option Nat :=
  (List.range 64).find? (fun j => let r := c.rgn g j; r.valid && decide (rgnBase r ≤ pa) && decide (pa < rgnBase r + rgnWords r))

/-- A step reads a sealed region of any gallery: by Intake, by its RD_MASK or by a copy. -/
def readsSealed (c : Ctx) : Bool :=
  (cabReads c).any (fun x => (c.rgn x.1 x.2).isSealed) ||
    (List.range 64).any (fun j => bitAt c.st.rdMask j && (c.rgn c.g j).isSealed) ||
    (match c.st.engine with
     | some b => engCopy b && (List.range 64).any (fun j =>
         let r := c.rgn c.g j
         r.valid && r.isSealed && decide (rgnBase r < engSrc b + engLen b) && decide (engSrc b < rgnBase r + rgnWords r))
     | .none => false)

def imageSealed (s : State) (g : Nat) (rd : Rd) : Bool := (imageCtxs s g rd).any readsSealed

end Sys2Proof.Machine
end

