-- ==== Sys2Proof/Machine/Stations.lean ====
section
/-!
DEFINITION. Sys2Proof/Machine/Stations.lean: what the six stations of a gallery do to one word set in the cycle it
reaches them: Intake with pairing and the key header check, Transform, Multiply, Accumulate, Vector, Outlet; cabinet port
uses and landings. Machine/Run.lean drives them cycle by cycle.
-/

set_option Elab.async false

namespace Sys2Proof.Machine

/-- A hazard of 11 Table 11-5: the charged gallery with its step and that step's launch tick, the module cycle, and the fields of
11 Table 11-6; `unit` names the word set or engine chunk it belongs to (R243). -/
structure Hz where
  gal    : Nat
  step   : Nat
  launch : Nat
  cause  : Nat
  cycle  : Nat
  unit   : Nat
  word   : Nat
  space  : Nat
  owner  : Nat
  winner : Nat
  loser  : Nat
  oStep  : Nat
  oGal   : Nat
  deriving DecidableEq, Repr

/-- A step under way, with the module around it. -/
structure Sim extends Pipe where
  s : State
  deriving DecidableEq, Repr

/-- What stays fixed while a step runs through a tick: its context, tour, index, launch tick, the tick its schedule counts from,
twiddles, whether the image is sealed, whether hazards are looked for, and whether signatures are kept. -/
structure Exe where
  c       : Ctx
  tour    : Tour
  index   : Nat
  launch  : Nat
  base    : Nat
  tw      : TwRd
  secret  : Bool
  watch   : Bool
  sign    : Bool

/-- Module cycle of a step cycle. -/
def modCycle (e : Exe) (cyc : Nat) : Nat := 100 * e.launch + cyc

def galX (e : Exe) (m : Sim) : Gallery := galOf m.s e.c.g
def simS (m : Sim) (f : State → State) : Sim := { m with s := f m.s }
def simWork (e : Exe) (m : Sim) (f : Work → Work) : Sim := simS m (fun s => modWork s e.c.g f)
def simRegs (e : Exe) (m : Sim) (f : GalRegs → GalRegs) : Sim := simS m (fun s => modRegs s e.c.g f)

/-- Raises a fault. -/
def raiseFault (m : Sim) (f : Flt) : Sim := { m with faults := f :: m.faults }

/-- Hazard units: A and B reads, operands of Accumulate and Vector, stores and engine chunks of iteration or chunk `k`. -/
def unitOfSet (k kind : Nat) : Nat := 8 * k + kind

/-! ### Hazard records (11 R243, R244, Table 11-6) -/

/-- The 32 bytes of a hazard record. -/
def hazardBytes (h : Hz) (seq : Nat) : List Byte :=
  leBytes 8 (h.cycle / 100) ++ leBytes 4 ((h.cycle - 100 * h.launch) % 2 ^ 22) ++ leBytes 2 h.step ++
    [BitVec.ofNat 8 h.gal, BitVec.ofNat 8 h.cause] ++ leBytes 4 h.word ++
    [BitVec.ofNat 8 h.space, BitVec.ofNat 8 h.owner, BitVec.ofNat 8 h.winner, BitVec.ofNat 8 h.loser] ++
    leBytes 2 h.oStep ++ [BitVec.ofNat 8 h.oGal, 0] ++ leBytes 4 seq

/-- Writes a record into the ring, or discards it when the ring is full; RECORDS 0 disables logging. -/
def logHazard (h : Hz) (s : State) : State :=
  if s.mon.invRecords = 0 then s
  else if s.mon.invSeq < s.mon.invRecords.toNat then
    let s := (hubWrite s (s.mon.invBase.toNat * 4096 + 32 * s.mon.invSeq) (hazardBytes h s.mon.invSeq)).2
    { s with mon := { s.mon with invSeq := s.mon.invSeq + 1 } }
  else modInv s h.gal (fun i => { i with dropped := bump8 i.dropped })

/-- Counts a hazard at the charged gallery, at most one of a cause for each word set or chunk, and records the first occurrence for
a step and cause (R243). The detector of the charged gallery must be on for the cause (R240, R242). -/
def noteHz (h : Hz) (s : State) : State :=
  let i := (galOf s h.gal).inv
  if s.sec.debug && i.enable && i.mask.getLsbD (h.cause - 1) && !i.noted.contains (h.step, h.cause, h.unit) then
    let s := modInv s h.gal (fun x => { x with hazards := bump24 x.hazards, noted := (h.step, h.cause, h.unit) :: x.noted })
    if i.seen.contains (h.step, h.cause) then s
    else logHazard h (modInv s h.gal (fun x => { x with seen := (h.step, h.cause) :: x.seen }))
  else s

/-- A hazard of this step's own with no other use: OTHER_STEP and OTHER_GALLERY are 0, WINNER and LOSER 0xFF (log entry 133). -/
def aloneHz (e : Exe) (cause cyc unit word space owner : Nat) : Hz :=
  { gal := e.c.g, step := e.index, launch := e.launch, cause := cause, cycle := modCycle e cyc, unit := unit, word := word,
    space := space, owner := owner, winner := 0xFF, loser := 0xFF, oStep := 0, oGal := 0 }

def simHz (e : Exe) (h : Hz) (m : Sim) : Sim := if e.watch then simS m (noteHz h) else m

/-! ### Counters of the bank (08 R177, 12 R258) -/

/-- Changes the counter set of the gallery's active bank. -/
def modCounters (g : Nat) (f : CounterSet → CounterSet) (s : State) : State :=
  modGal s g (fun x =>
    if x.active1 then { x with bank1 := { x.bank1 with counters := f x.bank1.counters } }
    else { x with bank0 := { x.bank0 with counters := f x.bank0.counters } })

/-- Adds saturations to counter `j` and NaN results, and to the module totals (21); nothing for a sealed image. -/
def countEvents (e : Exe) (j sats nans : Nat) (m : Sim) : Sim :=
  if e.secret then m
  else simS m (modCounters e.c.g (fun c => { c with
    sat := vmod c.sat j 0 (fun x => bumpBy32 x sats), nan := bumpBy32 c.nan nans }))

/-! ### Signatures (17 R380) -/

/-- The compiled tick of a module tick: less the tour's start and the slips that have taken effect by then (R380). -/
def ctickOf (t : Tour) (tick : Nat) : Nat :=
  tick - t.start - (t.slipLog.filter (fun p => decide (t.start + p.1 + p.2 ≤ tick + 1))).length

/-- Adds bytes to signature `st` of the running tick of the tour. -/
def signBytes (e : Exe) (st cyc : Nat) (bs : List Byte) (m : Sim) : Sim :=
  if !e.sign then m
  else
    let tick := e.launch + cyc / 100
    simS m (fun s =>
      let ct := ctickOf ((tourOf s e.tour.tourId).getD e.tour) tick
      let ls := s.fab.lockstep
      let fresh : SigRow := { tourId := e.tour.tourId, gallery := e.c.g, ctick := ct,
                              tick := tick, sigs := List.replicate 7 0xFFFFFFFFFFFFFFFF }
      let isIt := fun (r : SigRow) => r.tourId == e.tour.tourId && r.gallery == e.c.g && r.ctick == ct
      let rows := if ls.sigs.any isIt then ls.sigs else fresh :: ls.sigs
      let upd := fun (r : SigRow) => if isIt r then
          { r with sigs := r.sigs.set st (bs.foldl (crcByte (w := 64) 0xC96C5795D7870F42) (r.sigs.getD st 0)) } else r
      { s with fab := { s.fab with lockstep := { ls with sigs := rows.map upd } } })

/-- A word set that leaves a station: 4 or 8 bytes a lane. -/
def signWords (e : Exe) (st cyc : Nat) (wide : Bool) (ws : List Nat) (m : Sim) : Sim :=
  if e.sign then signBytes e st cyc (ws.flatMap (fun w => leBytes (if wide then 8 else 4) w)) m else m

/-- A word set and the B that travels beside it leave a station (03 R55). -/
def signBoth (e : Exe) (st cyc : Nat) (wide : Bool) (f : Flight) (m : Sim) : Sim :=
  signWords e st cyc false f.b (signWords e st cyc wide f.ws m)

/-- A word set of zeros. -/
def noWords : List Nat := List.replicate 256 0

/-! ### Cabinet port uses (03 R68, 04 R70, R71, R79 to R81) -/

/-- Requester number of gallery `g` at a bank of gallery `o` (04 Table 04-2). -/
def requesterOf (per g o : Nat) (isWrite : Bool) : Nat :=
  let l := if g < per then g else g - per
  if !isWrite && dieAt per g != dieAt per o then 16 + l else l

/-- The bank of a physical address (04 R69). -/
def bankOfPa (pa : Nat) : Nat := pa % 256

/-- The word of a use that lies in the bank of `pa`. -/
def useAtBank (u : PortUse) (pa : Nat) : Option PortWord := u.words.find? (fun w => bankOfPa w.pa == bankOfPa pa)

/-- The word of a use at the address `pa`. -/
def useAtWord (u : PortUse) (pa : Nat) : Option PortWord := u.words.find? (fun w => w.pa == pa)

/-- A use is a gallery's, not the hub's or a fill's. -/
def stationUse (u : PortUse) : Bool := decide (u.gallery < 32)

/-- Uses by other galleries' islands of the banks of `owner`, less than 4 cyc from module cycle `X` (R68). -/
def nearUses (s : State) (g owner X : Nat) : List PortUse :=
  s.useLog.filter (fun u => u.owner == owner && u.gallery != g && stationUse u && decide (u.cycle < X + 4) && decide (X < u.cycle + 4))

/-- Uses in the same cycle of the same island that come before requester `req` at a port (R79). -/
def ownUses (s : State) (g owner X req : Nat) (isWrite : Bool) : List PortUse :=
  s.useLog.filter (fun u => u.owner == owner && u.gallery == g && u.cycle == X && u.isWrite == isWrite && decide (u.requester < req))

/-- Physical addresses rise by one from word to word. -/
def isRun : List Nat → Bool
  | a :: b :: l => b == a + 1 && isRun (b :: l)
  | _ => true

/-- The words of a gallery's cabinets at some physical addresses. -/
def cabWords (s : State) (owner : Nat) (pas : List Nat) : List Nat :=
  match pas with
  | [] => []
  | a :: _ =>
    if isRun pas then (smRead 0 a pas.length (galOf s owner).cab).map (·.toNat)
    else pas.map (fun p => (cabWord s owner p).toNat)

/-- Writes words at physical addresses of a gallery's cabinets. -/
def cabPut (owner : Nat) (ws : List (Nat × Nat)) (s : State) : State :=
  match ws with
  | [] => s
  | (a, _) :: _ =>
    let put := fun (c : SMem Word) =>
      if isRun (ws.map (·.1)) then smPut 0 a (ws.map (fun w => BitVec.ofNat 32 w.2)) c
      else ws.foldl (fun c w => smSet 0 w.1 (BitVec.ofNat 32 w.2) c) c
    modGal s owner (fun x => { x with cab := put x.cab })

/-- A free bit. -/
def freeBit (s : State) : Bool × State := let (v, s) := freeBits 1 s; (v.getLsbD 0, s)

/-- The uses of another island that a use meets in one real cycle, or sees: one free bit for each, since one phase decides for all
lanes (03 R68). -/
def metUses : List PortUse → State → List PortUse × State
  | [], s => ([], s)
  | u :: us, s =>
    let (b, s) := freeBit s
    let (vs, s) := metUses us s
    (if b then u :: vs else vs, s)

/-- Uses in ascending order of their requester numbers. -/
def byRequester (us : List PortUse) : List PortUse :=
  (List.range 33).flatMap (fun n => us.filter (fun u => u.requester == n))

/-- The word that a read of cycle `X` obtains, when the bank held `w`: in the same island the winner's word (R80); of the uses of
another island that it meets the lowest winner's word, else the old or new word of a write (R68, R79, R80). -/
def settleWord (met own : List PortUse) (X req pa w : Nat) : Nat :=
  match own.findSome? (fun u => useAtBank u pa) with
  | some x => x.val
  | .none =>
    let wins := (byRequester (met.filter (fun u => !u.isWrite && decide (u.requester < req)))).filterMap
      (fun u => (useAtBank u pa).map (·.val))
    let ages := (met.filter (·.isWrite)).filterMap
      (fun u => (useAtWord u pa).map (fun x => if u.cycle < X then x.old else x.val))
    (wins ++ ages).headD w

/-- Two entries of the log are one use. -/
def sameUse (u v : PortUse) : Bool :=
  u.owner == v.owner && u.isWrite == v.isWrite && u.cycle == v.cycle && u.requester == v.requester && u.gallery == v.gallery && u.unit == v.unit

/-- A write that landed loses after all (R80): its word stands as before, also for the reads in between, which settle later. -/
def takeBack (u : PortUse) (x : PortWord) (s : State) : State :=
  let s := if (cabWord s u.owner x.pa).toNat = x.val then cabPut u.owner [(x.pa, x.old)] s else s
  let reread := fun (w : PortWord) => if w.pa = x.pa then { w with val := x.old, old := x.old } else w
  let fix := fun (y : PortUse) =>
    if sameUse u y then { y with words := y.words.filter (fun w => w.pa != x.pa), dropped := x.pa :: y.dropped }
    else if !y.isWrite && y.owner == u.owner && decide (u.cycle < y.cycle) then { y with words := y.words.map reread }
    else y
  { s with useLog := s.useLog.map fix }

/-- A word against the writes of other islands that its write by requester `req` meets in its bank: the lowest requester's stands
(R79, R80). Answers whether this write stands. -/
def meetWrites (req pa : Nat) : List PortUse → State → Bool × State
  | [], s => (true, s)
  | u :: us, s =>
    match useAtBank u pa with
    | .none => meetWrites req pa us s
    | some x => if u.requester < req then (false, s) else meetWrites req pa us (takeBack u x s)

/-- The words of a landing that stand. -/
def standing (req : Nat) (met own : List PortUse) : List (Nat × Nat) → State → List (Nat × Nat) × State
  | [], s => ([], s)
  | (pa, v) :: ws, s =>
    if own.any (fun u => (useAtBank u pa).isSome) then standing req met own ws s
    else
      let (ok, s) := meetWrites req pa met s
      let (vs, s) := standing req met own ws s
      (if ok then (pa, v) :: vs else vs, s)

/-! ### Hazards of a use (11 R242, R243) -/

/-- Key of a cabinet word, accumulator half row, tile register or tile row among `Work.written`. -/
def writtenKey (space w : Nat) : Nat := space * 2 ^ 24 + w

/-- What `Work.written` holds of a place: nothing (0); 1, a data word not read since; 2, one read since; 3, padding; with the
gallery and step that wrote it. -/
def writtenMark (kind gal step : Nat) : Nat := kind + 4 * (gal + 32 * step)

def markWritten (owner space w v : Nat) (s : State) : State :=
  modWork s owner (fun x => { x with written := smSet 0 (writtenKey space w) v x.written })

def writtenState (s : State) (owner space w : Nat) : Nat := smGet 0 (writtenKey space w) (galOf s owner).work.written

/-- The word of use `c` that meets use `o`, and whether the two contest one port: one bank for two reads or two writes, one word for a
read and a write. -/
def meetsAt (c o : PortUse) : Option (Nat × Bool) :=
  let pas := fun (u : PortUse) => u.words.map (·.pa) ++ u.dropped
  let os := pas o
  if c.isWrite == o.isWrite then ((pas c).find? (fun a => os.any (fun b => bankOfPa a == bankOfPa b))).map (fun a => (a, true))
  else ((pas c).find? (fun a => os.contains a)).map (fun a => (a, false))

/-- Cycles between two uses. -/
def useGap (u v : PortUse) : Nat := max u.cycle v.cycle - min u.cycle v.cycle

/-- The hazard between two galleries' uses, charged to the later one, in one cycle to the higher gallery (R243). -/
def pairHz (cause word : Nat) (port : Bool) (c o : PortUse) : Hz :=
  { gal := c.gallery, step := c.step, launch := c.launched, cause := cause, cycle := c.cycle, unit := c.unit, word := word, space := 0,
    owner := c.owner, winner := if port then min c.requester o.requester else 0xFF,
    loser := if port then max c.requester o.requester else 0xFF, oStep := o.step, oGal := o.gallery }

/-- PROXIMITY of two uses (Table 11-5 cause 3), and PORT_CONFLICT where in one cycle an engine operation loses to the other gallery's
station (cause 1). -/
def notePair (u v : PortUse) (s : State) : State :=
  let later := decide (v.cycle < u.cycle) || (u.cycle == v.cycle && decide (v.gallery < u.gallery))
  let (c, o) := if later then (u, v) else (v, u)
  match meetsAt c o with
  | .none => s
  | some (pa, port) =>
    let s := noteHz (pairHz 3 pa port c o) s
    if port && u.cycle == v.cycle && (u.requester == 32 || v.requester == 32) then noteHz (pairHz 1 pa port c o) s else s

/-- The uses of another gallery that stand nearest to `u`, less than 4 cyc away: each use is held against these alone, as the worked
example of 11 counts (log entry 133). -/
def nearestUses (s : State) (u : PortUse) (h : Nat) : List PortUse :=
  let vs := s.useLog.filter (fun v => v.owner == u.owner && v.gallery == h && decide (useGap u v < 4) && (meetsAt u v).isSome)
  let d := (vs.map (useGap u)).foldl min 4
  vs.filter (fun v => useGap u v == d)

/-- The uses of 3 cyc before module cycle `X` are held against the uses around them, which are all known now (Table 11-5 cause 3). -/
def watchPairs (X : Nat) (s : State) : State :=
  (s.useLog.filter (fun u => u.cycle + 3 == X && stationUse u)).foldl (fun x u =>
    ((List.range 32).filter (· ≠ u.gallery)).foldl (fun x h => (nearestUses x u h).foldl (fun x v => notePair u v x) x) x) s

/-- PORT_CONFLICT and WRITE_COLLISION of a use with earlier requesters of the same island (causes 1 and 2). -/
def watchOwn (e : Exe) (owner cyc req unit : Nat) (isWrite : Bool) (pas : List Nat) (s : State) : State :=
  (ownUses s e.c.g owner (modCycle e cyc) req isWrite).foldl (fun x u =>
    let hz := fun (cause pa : Nat) (x : State) => noteHz { aloneHz e cause cyc unit pa 0 owner with
      winner := u.requester, loser := req, oStep := u.step, oGal := u.gallery } x
    let same := fun (pa : Nat) => isWrite && (useAtWord u pa).isSome
    let x := match pas.find? same with | some pa => hz 2 pa x | .none => x
    match pas.find? (fun pa => (useAtBank u pa).isSome && !same pa) with
    | some pa => hz 1 pa x
    | .none => x) s

/-- A read of a cabinet word that no write of this tour made visible, in an internal region that was not ready at the tour's start
(cause 4), with the gallery and step of the write that is still invisible: one of another gallery is visible from 4 cyc after its landing
on (Table 11-2). -/
def staleWord (s : State) (g owner X pa : Nat) : Option (Nat × Nat) :=
  if (match rgnAt s owner pa with | some j => (galOf s owner).unready.getLsbD j | .none => false) then
    if writtenState s owner 0 pa = 0 then some (0, 0)
    else ((nearUses s g owner X).find? (fun u => u.isWrite && (match useAtWord u pa with | some w => w.first | .none => false))).map
      (fun u => (u.gallery, u.step))
  else .none

/-- A data word read since its write is no alias any more. -/
def markRead (owner : Nat) (pas : List Nat) (s : State) : State :=
  pas.foldl (fun x pa =>
    let v := writtenState x owner 0 pa
    if v % 4 = 1 then markWritten owner 0 pa (v + 1) x else x) s

/-- Hazards of reading cabinet words. -/
def watchRead (e : Exe) (owner cyc req unit : Nat) (pas : List Nat) (s : State) : State :=
  let s := watchOwn e owner cyc req unit false pas s
  let stale := fun (pa : Nat) => (staleWord s e.c.g owner (modCycle e cyc) pa).map (fun w => (pa, w))
  let s := match pas.findSome? stale with
    | some (pa, w) => noteHz { aloneHz e 4 cyc unit pa 0 owner with oStep := w.2, oGal := w.1 } s
    | .none => s
  markRead owner pas s

/-- Hazards of landing words, of which those in `good` stand: a data word written before and not read since is aliased (cause 6). -/
def watchWrite (e : Exe) (owner cyc req unit : Nat) (pads pas good : List Nat) (s : State) : State :=
  let s := watchOwn e owner cyc req unit true pas s
  let data := good.filter (fun pa => !pads.contains pa)
  let s := match data.find? (fun pa => writtenState s owner 0 pa % 4 == 1) with
    | some pa =>
      let v := writtenState s owner 0 pa / 4
      noteHz { aloneHz e 6 cyc unit pa 0 owner with oStep := v / 32, oGal := v % 32 } s
    | .none => s
  good.foldl (fun x pa =>
    if pads.contains pa then (if writtenState x owner 0 pa = 0 then markWritten owner 0 pa (writtenMark 3 e.c.g e.index) x else x)
    else markWritten owner 0 pa (writtenMark 1 e.c.g e.index) x) s

/-- Notes a use of bank ports. -/
def noteUse (e : Exe) (owner X req unit : Nat) (isWrite : Bool) (ws : List PortWord) (dropped : List Nat) (s : State) : State :=
  { s with useLog := { owner := owner, isWrite := isWrite, cycle := X, requester := req, gallery := e.c.g, step := e.index,
                       launched := e.launch, unit := unit, words := ws, dropped := dropped } :: s.useLog }

/-- The unit of a read: a chunk's read and landing are one occurrence (11 R243). -/
def readUnit (dest : ReadFor) (k : Nat) : Nat :=
  unitOfSet k (match dest with | .opA => 0 | .opB _ => 1 | .copy _ => 5)

/-- A word as a read finds it. -/
def seenWord (pa v : Nat) : PortWord := { pa := pa, val := v, old := v, first := false }

/-- A read of cabinet words is issued in cycle `cyc`: the ports are used, and the words are what the banks hold before the
landings of this cycle (R71). What they are against other uses is settled 3 cyc later, when those uses are known. -/
def sendRead (e : Exe) (dest : ReadFor) (owner req cyc k : Nat) (last : Bool) (todo : List (Nat × Nat)) (m : Sim) : Sim :=
  let pas := todo.map (·.2)
  let unit := readUnit dest k
  let ws := List.zipWith (fun (p : Nat × Nat) w => (p.1, p.2, w)) todo (cabWords m.s owner pas)
  let m := if e.watch then simS m (watchRead e owner cyc req unit pas) else m
  let m := simS m (noteUse e owner (modCycle e cyc) req unit false (ws.map (fun w => seenWord w.2.1 w.2.2)) [])
  { m with reads := m.reads ++ [{ cycle := cyc, dest := dest, owner := owner, req := req, k := k, last := last, lost := false,
                                  words := ws }] }

/-- A read's words, settled; they also stand in the log of uses, where a losing read takes them (R80). A write taken back since its
issue has put them right there. -/
def settleRead (e : Exe) (r : ReadSent) (s : State) : List (Nat × Nat × Nat) × State :=
  let X := modCycle e r.cycle
  let mine := fun (u : PortUse) =>
    u.owner == r.owner && u.gallery == e.c.g && u.cycle == X && !u.isWrite && u.requester == r.req && u.unit == readUnit r.dest r.k &&
      u.words.length == r.words.length
  let held := match s.useLog.find? mine with
    | some u => List.zipWith (fun (w : Nat × Nat × Nat) (p : PortWord) => (w.1, w.2.1, p.val)) r.words u.words
    | .none => r.words
  let near := nearUses s e.c.g r.owner X
  let own := ownUses s e.c.g r.owner X r.req false
  if near.isEmpty && own.isEmpty then (held, s)
  else
    let (met, s) := metUses near s
    let ws := held.map (fun w => (w.1, w.2.1, settleWord met own X r.req w.2.1 w.2.2))
    let pws := ws.map (fun w => seenWord w.2.1 w.2.2)
    (ws, { s with useLog := s.useLog.map (fun u => if mine u then { u with words := pws } else u) })

/-- Words land in cabinets in cycle `cyc`. -/
def landWords (e : Exe) (owner req cyc unit : Nat) (pads : List Nat) (ws : List (Nat × Nat)) (m : Sim) : Sim :=
  let X := modCycle e cyc
  let near := (nearUses m.s e.c.g owner X).filter (·.isWrite)
  let own := ownUses m.s e.c.g owner X req true
  let (good, s) := if near.isEmpty && own.isEmpty then (ws, m.s)
    else
      let (met, s) := metUses near m.s
      standing req met own ws s
  let stood := good.map (·.1)
  let olds := cabWords s owner stood
  let uses := List.zipWith (fun (w : Nat × Nat) o =>
    ({ pa := w.1, val := w.2, old := o, first := e.watch && writtenState s owner 0 w.1 == 0 } : PortWord)) good olds
  let s := if e.watch then watchWrite e owner cyc req unit pads (ws.map (·.1)) stood s else s
  { m with s := cabPut owner good (noteUse e owner X req unit true uses ((ws.map (·.1)).filter (fun a => !stood.contains a)) s) }

/-! ### Intake -/

/-- The lanes of a word set that a part of a block access covers (09 R207). -/
def partLanes (parts q : Nat) : List Nat := if parts = 1 then lanes else (List.range (256 / parts)).map (fun i => 256 / parts * q + i)

/-- A 256-lane list from (lane, word) pairs; other lanes 0. -/
def lanesOf (ps : List (Nat × Nat)) : List Nat :=
  let a := ps.foldl (fun (x : Array Nat) p => x.setIfInBounds p.1 p.2) (Array.replicate 256 0)
  a.toList

/-- The lane table of A, when the block applies one (04 R89, 10 Table 10-10). -/
def tabled (e : Exe) (b : Nat) (ws : List Nat) : List Nat :=
  if inLtabEn b then let a := ws.toArray; lanes.map (fun l => a.getD (laneTab e.c.rd (inLtab b) l) 0) else ws

/-- PERM_COEFF negation and the lane table of A (04 R87, R89). Log entry 152: lanes above LANES are masked before the table, so a masked
lane can take the word of another lane. -/
def finishRead (e : Exe) (isA : Bool) (b : Nat) (k : Nat) (negs : List Bool) (ws : List Nat) : List Nat :=
  let q := (cxEntry e.c k).q
  let ws := if negs.any id then
      List.zipWith (fun w n => if n then (if w = 0 then 0 else (q + 2 ^ 32 - w) % 2 ^ 32) else w) ws negs
    else ws
  if isA then tabled e b ws else ws

/-- Reads part `q` of a cabinet operand in cycle `cyc`. -/
def readPart (e : Exe) (isA : Bool) (k q cyc : Nat) (hold : Bool) (b : Nat) (m : Sim) : Sim :=
  let rs := cxReadSet e.c k isA b
  let pas := rs.pas.toArray
  let todo := (partLanes rs.parts q).filterMap (fun l => (pas.getD l .none).map (fun pa => (l, pa)))
  sendRead e (if isA then .opA else .opB hold) rs.owner (requesterOf e.c.per e.c.g rs.owner false) cyc k
    (decide (rs.parts ≤ q + 1)) todo m

/-- Cycles from the issue of a cabinet read's last part to its delivery (02 Table 02-6, 10 R229). -/
def readDelay (e : Exe) (owner : Nat) : Nat := if e.c.native then relOf e.c.per e.c.g owner else 3

/-- A read of an operand, settled 3 cyc after its issue: a last part sends the word set on its way to Transform. -/
def takeRead (e : Exe) (r : ReadSent) (isA hold : Bool) (ws : List (Nat × Nat)) (m : Sim) : Sim :=
  let buf := (if isA then m.bufA else m.bufB) ++ ws
  if !r.last then (if isA then { m with bufA := buf } else { m with bufB := buf })
  else
    let b := (cxBlk e.c r.k (if isA then slA else slB)).getD 0
    let d : Deliv :=
      { cycle := r.cycle + readDelay e r.owner, isA := isA, k := r.k,
        ws := finishRead e isA b r.k (cxReadSet e.c r.k isA b).negs (lanesOf buf), hold := hold, owner := r.owner,
        lost := r.lost }
    let m := { m with dels := m.dels ++ [d] }
    if isA then { m with bufA := [] } else { m with bufB := [] }

/-- Reads issued 3 cyc before cycle `cyc` are settled; a copy's words are on their way to land 4 cyc after their read (04 R84). -/
def settleReads (e : Exe) (cyc : Nat) (engine : Bool) (m : Sim) : Sim :=
  let isIt := fun (r : ReadSent) => decide (r.cycle + 3 ≤ cyc) && (match r.dest with | .copy _ => engine | _ => !engine)
  let due := m.reads.filter isIt
  due.foldl (fun m r =>
    let (ws, s) := settleRead e r m.s
    let m := { m with s := s }
    match r.dest with
    | .opA => takeRead e r true false (ws.map (fun w => (w.1, w.2.2))) m
    | .opB hold => takeRead e r false hold (ws.map (fun w => (w.1, w.2.2))) m
    | .copy dst =>
      { m with lands := m.lands ++ [{ cycle := r.cycle + 4, dest := .cab e.c.g true,
                                      words := ws.map (fun w => (dst + w.1, w.2.2)), pads := [], k := r.k, last := false,
                                      sig := .none }] }) { m with reads := m.reads.filter (fun r => !isIt r) }

/-- The iteration and part whose cabinet read falls in cycle `cyc`, for reads that start `lead` cycles before the issue
cycle. -/
def partAt (e : Exe) (parts lead cyc : Nat) : Option (Nat × Nat) :=
  let t0 := cxIssue e.c 0
  let i := if e.c.native then max 1 (loopIssue (cxLoop e.c)) else 1
  if cyc + lead < t0 then .none
  else
    let k := (cyc + lead - t0) / i
    let q := (cyc + lead - t0) % i
    if k < cxK e.c ∧ q < parts then some (k, q) else .none

/-- Cabinet reads that Intake issues in cycle `cyc` (03 R53, R57). -/
def issueReads (e : Exe) (cyc : Nat) (m : Sim) : Sim :=
  let partsA := match cxBlk e.c 0 slA with | some b => blockParts e.c (inAShape b) (inRate e.c (inAShape b) b) | .none => 1
  let m := match partAt e partsA 0 cyc with
    | some (k, q) =>
      (match cxBlk e.c k slA with
       | some b => if inASrc b = srcCab then readPart e true k q cyc false b m else m
       | .none => m)
    | .none => m
  let b0 := cxBlk e.c 0 slB
  let partsB := match b0 with | some b => blockParts e.c (inBShape b) (inRate e.c (inBShape b) b) | .none => 1
  let lead := match b0 with | some b => if e.c.native ∧ inBMode b ≠ 0 then 1 else 0 | .none => 0
  match partAt e partsB lead cyc with
  | some (k, q) =>
    (match cxBlk e.c k slB with
     | some b =>
       if inBSrc b = srcCab && !(e.c.native && inBMode b == 2 && decide (0 < k)) then
         readPart e false k q cyc (lead == 1) b m
       else m
     | .none => m)
  | .none => m

/-- The key object of the tour that holds a device address: its Catalogue index (06 R137). -/
def keyAt (s : State) (t : Tour) (a : Nat) : Option Nat :=
  (t.bindings.find? (fun b =>
    let x := catEnt s b.cat
    s.cat.enabled && x.kind == kindKey && x.space == 0 && decide (x.addr ≤ a) && decide (a < x.addr + x.bytes))).map (·.cat)

/-- Reads the 16 lines of a stream word set for their ECC outcomes (14 R304): tour bursts do not snoop. -/
def streamEcc : Nat → Nat → State → Bool × State
  | 0, _, s => (false, s)
  | n + 1, l, s =>
    let (b1, s) := readLineEcc 1 l s
    let (b2, s) := streamEcc n (l + 1) s
    (b1 || b2, s)

/-- A stream word set from a device address: its words, and whether it arrives poisoned. -/
def streamRead (a : Nat) (s : State) : List Nat × Bool × State :=
  let (bad, s) := streamEcc 16 (lineOf a) s
  (nats32 (hbmGet s a 1024), bad, s)
where
  nats32 : List Byte → List Nat
    | a :: b :: c :: d :: rest => leNat [a, b, c, d] :: nats32 rest
    | _ => []

/-- A poisoned stream word set ends the tour (06 R137, 14 R305); a key's entry takes POISONED. -/
def poisonedStream (e : Exe) (cyc a : Nat) (m : Sim) : Sim :=
  let m := raiseFault m { cycle := cyc, station := 1, cause := 0, status := stRegionPoisoned }
  match keyAt m.s e.tour a with
  | some i =>
    let m := simRegs e m (fun r => { r with poisonedKeys := bump8 r.poisonedKeys })
    simS m (modEnt i (fun x => { x with poisoned := true }))
  | .none => m

/-- LANES of an operand keeps lanes of a stream or relay word set (04 R78). -/
def limitLanes (n : Nat) (ws : List Nat) : List Nat := (ws.take n) ++ List.replicate (256 - min n ws.length) 0

/-- The span of a gallery, with its head. -/
def spanOf (t : Tour) (g : Nat) : Option Span := t.spans.find? (fun sp => decide (sp.head ≤ g) && decide (g ≤ sp.last))

/-- Arrival offset of the relay from head `h` to gallery `j`, `m` galleries per die (03, after R477). -/
def relayDelta (m h j : Nat) : Nat :=
  if dieAt m h = dieAt m j then 4 * (j - h) else 4 * (m - 1 - h) + 32 + 4 * (j - m)

/-- Read schedules of an image that feed the relay: named by no INTAKE block (log entry 46). -/
def feedScheds (rd : Rd) : List Sched :=
  let named := (imgStepList rd).flatMap (fun st => match st.intake with
    | some b => (if inASrc b = srcHbm then [inAStream b] else []) ++ (if inBSrc b = srcHbm then [inBStream b] else [])
    | .none => [])
  let ss := imgScheds rd
  (List.range ss.length).filterMap (fun i =>
    match ss[i]? with
    | some sc => if sc.write || named.contains i then .none else some sc
    | .none => .none)

/-- The word set of a schedule whose slot begins in a given module cycle, for a tour whose base tick is `base`. -/
def schedAtCycle (sc : Sched) (base X : Nat) : Option Nat :=
  sc.runs.findSome? (fun r =>
    if X / 100 < base then .none
    else (runTick r (X / 100 - base)).findSome? (fun (sl, ls) =>
      if slotCycle sl = X % 100 then some (sc.stack * stackBytes + sc.half * halfBytes + ls.toNat * 1024) else .none))

/-- The direction of the die bridge that leads to a die carries crossings (03 R67). -/
def dirInto (s : State) (die : Nat) : Bool := if die = 0 then s.bridge.dir10Up else s.bridge.dir01Up

/-- Island `i` of HUB_ISLAND_LOCK has its clock: nothing unclocked is delivered (02 R24). -/
def islandUp (s : State) (i : Nat) : Bool := s.time.islandLock.getLsbD i

/-- Both bridge ends have their clocks. -/
def bridgeClocked (s : State) : Bool := islandUp s 40 && islandUp s 41

/-- The relay of span `sp` is clocked from its head up to gallery `j`. -/
def relayClocked (per : Nat) (s : State) (sp : Span) (j : Nat) : Bool :=
  (dieAt per sp.head == dieAt per j || bridgeClocked s) &&
    (List.range (j + 1 - sp.head)).all (fun i => (galOf s (sp.head + i)).regs.clockOn)

/-- A read lane of the bridge releases a crossing in cycle `cyc`: fewer than 16 cyc after the last, it is not carried (R66). -/
def laneRelease (e : Exe) (cyc : Nat) (m : Sim) : Bool × Sim :=
  let X := modCycle e cyc
  let early := match (galX e m).laneLast with | some y => decide (X < y + 16) | .none => false
  if early then
    let m := simS m (fun s => { s with bridge := { s.bridge with laneRejects := bump8 s.bridge.laneRejects } })
    (false, raiseFault m { cycle := cyc, station := 1, cause := 6, status := stLateRelease })
  else (true, simS m (fun s => modGal s e.c.g (fun x => { x with laneLast := some X })))

/-- A crossing is released in cycle `cyc`; `kind` is its code of 16 Table 16-7. What a lost flit took, or what falls due while the
bridge retrains, is not delivered (03 R67), nor what misses its handshake (02 R33), nor what comes over the bridge without its clocks
(02 R24). -/
def released (e : Exe) (cyc kind : Nat) (bridge lost : Bool) (m : Sim) : Bool × Sim :=
  if bridge && !bridgeClocked m.s then (false, m)
  else if lost || (bridge && !dirInto m.s (dieAt e.c.per e.c.g)) then
    (false, raiseFault m { cycle := cyc, station := 0, cause := 7, status := stLateRelease })
  else if (galX e m).late then
    let m := simS m (fun s => modGal s e.c.g (fun x => { x with late := false }))
    (false, raiseFault m { cycle := cyc, station := 1, cause := kind, status := stLateRelease })
  else (true, m)

/-- A delivery from a read of another gallery's cabinets is a crossing; one across the dies takes a read lane. -/
def cabReleased (e : Exe) (d : Deliv) (cyc : Nat) (m : Sim) : Bool × Sim :=
  if d.owner = e.c.g then (true, m)
  else if !(galOf m.s d.owner).regs.clockOn then (false, m)
  else
    let cross := dieAt e.c.per e.c.g != dieAt e.c.per d.owner
    let (ok, m) := released e cyc 1 cross d.lost m
    if ok && cross then laneRelease e cyc m else (ok, m)

/-- The relay word set that reaches the gallery in cycle `cyc` (03 R64, R65, R477), when its hop has completed. -/
def relayAt (e : Exe) (cyc : Nat) (m : Sim) : Option (List Nat) × Sim :=
  let X := modCycle e cyc
  let sp := (spanOf e.tour e.c.g).getD { head := e.c.g, last := e.c.g, fedOutlet := true }
  match (galX e m).relay.find? (fun r => r.cycle == X) with
  | .none =>
    (.none, if relayClocked e.c.per m.s sp e.c.g then raiseFault m { cycle := cyc, station := 1, cause := 2, status := stLateRelease }
            else m)
  | some r =>
    let (ok, m) :=
      if sp.head = e.c.g then (if sp.fedOutlet then (true, m) else released e cyc 4 false r.lost m)
      else released e cyc (if r.bridge = X then 3 else 2) (decide (r.bridge = X)) r.lost m
    if !ok then (.none, m)
    else
      let m := match r.addr with
        | some a => if r.poisoned then poisonedStream e cyc a m else m
        | .none => m
      (some (r.words.map (·.toNat)), m)

/-- Causes of 06 Table 06-10: the first failing comparison of a key header's 64 bytes, 0 when all agree. -/
def headerCause (b : Nat) (tag : Quad) (h : List Byte) : Nat :=
  if khMagic h != 0x4B5A4B48 || khVersion h != 1 then 1
  else if !khCrcOk h then 2
  else if khTag h != tag.toNat then 3
  else if khKind h != keyKind b then 4
  else if khAutoA h != keyAutoA b then 5
  else if decide (keyLevel b < khLevelMin h) || decide (khLevelMax h < keyLevel b) then 6
  else if khLogN h != keyLogN b || khDnum h != keyDnum b || khData h != keyData b || khSpecial h != keySpecial b then 7
  else 0

/-- The tag file of the gallery's active bank. -/
def activeBank (x : Gallery) : Bank := if x.active1 then x.bank1 else x.bank0

/-- The comparison of a key header delivered in cycle `cyc` (06 R134). -/
def checkHeader (e : Exe) (cyc : Nat) (ws : List Nat) (m : Sim) : Sim :=
  match e.c.st.key with
  | .none => m
  | some b =>
    let tag := smGet 0 (keyBinding b) (activeBank (galX e m)).tags
    let cause := headerCause b tag ((ws.take 16).flatMap (fun w => leBytes 4 w))
    if cause = 0 then m else raiseFault m { cycle := cyc + 4, station := 1, cause := cause, status := stKeyMismatch }

/-- The pairing register as a word set. -/
def pairingWs (w : Work) : List Nat := (smRead 0 0 256 w.pairing).map (·.toNat)

/-- A is delivered with the B that R54 pairs with it; both leave Intake (17 R380). -/
def pairAndFly (e : Exe) (cyc k : Nat) (a : List Nat) (b : Option (List Nat)) (m : Sim) : Sim :=
  let bw := match b with | some w => w | .none => pairingWs (galX e m).work
  let m := signWords e 0 cyc false bw (signWords e 0 cyc false a m)
  { m with fly := m.fly ++ [{ k := k, enter := cyc, ws := a, b := bw, valid := List.replicate 256 true, fp := false }] }

/-- The word set of a schedule that is due in module cycle `X`: the one read for it, else what the line at `a` now holds. -/
def streamWord (e : Exe) (i X a : Nat) (m : Sim) : InboxWord × Sim :=
  match (galX e m).inbox.find? (fun x => x.cycle == X && x.sched == i) with
  | some x => (x, m)
  | .none =>
    let r := streamRead a m.s
    ({ cycle := X, sched := i, addr := a, words := r.1.map (BitVec.ofNat 32), poisoned := r.2.1, lost := false },
     { m with s := r.2.2 })

/-- Word set `k` of stream schedule `i` is delivered in cycle `cyc`: what its burst read (14 R299), with its poison (R305). -/
def streamDeliver (e : Exe) (i k n cyc : Nat) (m : Sim) : Option (List Nat) × Sim :=
  let sc := cxSched e.c i
  match schedWord sc.runs k with
  | .none => (some noWords, m)
  | some w =>
    let X := modCycle e cyc
    let cross := stackDie sc.stack != dieAt e.c.per e.c.g
    if !islandUp m.s (32 + sc.stack) then (.none, m)
    else
    let (x, m) := streamWord e i X (streamAddr sc w) m
    let (ok, m) := released e cyc 4 cross x.lost m
    let (ok, m) := if ok && cross then laneRelease e cyc m else (ok, m)
    if !ok then (.none, m)
    else
      let m := if x.poisoned then poisonedStream e cyc x.addr m else m
      (some (limitLanes n (x.words.map (·.toNat))), m)

/-- B delivered in cycle `cyc`, if any, as (iteration, words, HOLD). -/
def takeB (e : Exe) (cyc : Nat) (m : Sim) : Option (Nat × List Nat × Bool) × Sim :=
  match m.dels.find? (fun d => d.cycle == cyc && !d.isA) with
  | some d =>
    let (ok, m) := cabReleased e d cyc { m with dels := m.dels.erase d }
    (if ok then some (d.k, d.ws, d.hold) else .none, m)
  | .none =>
    if cxK e.c ≤ m.nB then (.none, m)
    else match cxBlk e.c m.nB slB with
      | .none => (.none, m)
      | some b =>
        if inBSrc b = srcNone ∨ inBSrc b = srcCab then (.none, m)
        else match cxBDeliver e.c m.nB with
          | some (t, hold) =>
            if t = (cyc : Int) then
              let k := m.nB
              let m := { m with nB := k + 1 }
              let (ws, m) := if inBSrc b = srcHbm then streamDeliver e (inBStream b) k (inBLanes b + 1) cyc m else relayAt e cyc m
              (ws.map (fun w => (k, limitLanes (inBLanes b + 1) w, hold)), m)
            else if t < (cyc : Int) then (.none, { m with nB := m.nB + 1 }) else (.none, m)
          | .none => (.none, { m with nB := cxK e.c })

/-- A word set of A from a stream or the relay: its lane table is applied, but to a key header (log entry 132). -/
def finishA (e : Exe) (b k : Nat) (ws : List Nat) : List Nat := if cxVoid e.c k then ws else tabled e b ws

/-- A delivered in cycle `cyc`, if any, as (iteration, words). -/
def takeA (e : Exe) (cyc : Nat) (m : Sim) : Option (Nat × List Nat) × Sim :=
  match m.dels.find? (fun d => d.cycle == cyc && d.isA) with
  | some d =>
    let (ok, m) := cabReleased e d cyc { m with dels := m.dels.erase d, nA := d.k + 1 }
    (if ok then some (d.k, d.ws) else .none, m)
  | .none =>
    if cxK e.c ≤ m.nA then (.none, m)
    else if aSrc e.c m.nA = srcCab then (.none, m)
    else match cxEnter e.c m.nA with
      | some t =>
        if t = (cyc : Int) then
          let k := m.nA
          let m := { m with nA := k + 1 }
          match cxBlk e.c k slA with
          | some b =>
            if inASrc b = srcHbm ∨ inASrc b = srcRelay then
              let (ws, m) := if inASrc b = srcHbm then streamDeliver e (inAStream b) k (inALanes b + 1) cyc m else relayAt e cyc m
              (ws.map (fun w => (k, finishA e b k (limitLanes (inALanes b + 1) w))), m)
            else (some (k, noWords), m)
          | .none => (some (k, noWords), m)
        else if t < (cyc : Int) then (.none, { m with nA := m.nA + 1 }) else (.none, m)
      | .none => (.none, { m with nA := m.nA + 1 })

/-- Deliveries of cycle `cyc`: pairing (03 R54), the header and its void iteration (06 R134, 10 R220). -/
def deliver (e : Exe) (cyc : Nat) (m : Sim) : Sim :=
  let (b, m) := takeB e cyc m
  let (a, m) := takeA e cyc m
  let hdrB := match e.c.st.key with | some x => keyHdrB x | .none => false
  let m := match b with
    | some (k, ws, _) => if cxVoid e.c k && hdrB then checkHeader e cyc ws m else m
    | .none => m
  let m := match a with
    | some (k, ws) => if cxVoid e.c k && !hdrB then checkHeader e cyc ws m else m
    | .none => m
  let bLive : Option (List Nat × Bool) := match b with
    | some (k, ws, hold) => if cxVoid e.c k then .none else some (ws, hold)
    | .none => .none
  let m := match bLive with
    | some (ws, true) => simWork e m (fun w => { w with pairing := smCells 0 0 (ws.map (BitVec.ofNat 32)) })
    | _ => m
  match a with
  | some (k, ws) => if cxVoid e.c k then m else pairAndFly e cyc k ws (bLive.map (·.1)) m
  | .none => m

/-! ### Transform and Multiply (05) -/

/-- Records the fault registers of 05 R114 when the fault is taken; the counters are in `takeFault`. -/
def arithRecord (cyc lane step limb station cause : Nat) : ArithFault :=
  { stepCycle := BitVec.ofNat 24 cyc, lane := BitVec.ofNat 8 lane, step := BitVec.ofNat 16 step,
    limb := BitVec.ofNat 7 limb, valid := true, station := BitVec.ofNat 2 station, cause := BitVec.ofNat 4 cause }

/-- The armed injection hits a multiply of this target in this lane (05 R115); ARM then clears. -/
def injectHit (e : Exe) (m : Sim) (target : Nat) : Option Nat :=
  let r := (galX e m).regs
  if m.s.sec.debug && r.injectArm && r.injectTarget.toNat == target then some r.injectLane.toNat else .none

def disarm (e : Exe) (m : Sim) : Sim := simRegs e m (fun r => { r with injectArm := false })

/-- Raises an arithmetic fault; `cause` and lane are packed for the record as cause + 16 x lane + 4096 x limb. -/
def arithFault (m : Sim) (cyc station cause lane limb : Nat) : Sim :=
  raiseFault m { cycle := cyc, station := station, cause := cause + 16 * lane + 4096 * limb, status := stResidueCheck }

/-- Transform acts on a word set that enters in cycle `cyc`. -/
def doTransform (e : Exe) (cyc : Nat) (f : Flight) (m : Sim) : Flight × Sim :=
  match cxBlk e.c f.k slX with
  | .none => (f, signBoth e 1 (cyc + cxLX e.c) false f m)
  | some b =>
    let ent := cxEntry e.c f.k
    let r := transformPass e.tw ent b (cxVal e.c f.k slX true (xfGgen b)) f.ws
    let inj := match injectHit e m 3 with
      | some l => if lanePos (xfDpos b) (xfRadix b) l ≠ 2 ^ xfRadix b - 1 then some l else .none
      | .none => .none
    let m := if inj.isSome then disarm e m else m
    let fault := worseFault r.fault (inj.map (fun l => (6, l)))
    let m := match fault with
      | some (cause, lane) => arithFault m (cyc + 13) 2 cause lane (cxLimb e.c f.k)
      | .none => m
    let f := { f with ws := r.ws }
    (f, signBoth e 1 (cyc + cxLX e.c) false f m)

/-- The modular multiply of one word set: words, and the failing cause and lane of R467. -/
def modularMul (wide : Bool) (ent : ModEnt) (a b : List Nat) : List Nat × Option (Nat × Nat) :=
  let rs := List.zipWith (fun x y => if wide then wideMul x y else barrett ent x y) a b
  let bad := (List.range 256).filter (fun l => ((rs.getD l { val := 0, cause := .none }).cause).isSome)
  (rs.map (·.val), match bad with | l :: _ => some (if wide then 5 else 4, l) | [] => .none)

/-- Multiply acts on a word set that enters in cycle `cyc` (05 R102, 08 R161 to R168). Log entry 152: PLANE_LOADS counts a plane whose
slices were all written under one format of B. -/
def doMultiply (e : Exe) (cyc : Nat) (f : Flight) (m : Sim) : Flight × Sim :=
  match cxBlk e.c f.k slM with
  | .none => (f, signBoth e 2 (cyc + cxLM e.c) false f m)
  | some b =>
    if cxModular e.c then
      let wide := mulWide b
      let (ws, bad) := modularMul wide (cxEntry e.c f.k) f.ws f.b
      let inj := ([0, 1, 2].filter (fun t => !(wide && decide (0 < t)))).findSome? (fun t =>
        (injectHit e m t).map (fun l => (t + 1, l)))
      let m := if inj.isSome then disarm e m else m
      let both := match inj, bad with
        | some (c, l), some (_, k) => some (c, min l k)
        | some x, .none => some x
        | .none, x => x
      let m := match both with
        | some (cause, lane) => arithFault m (cyc + 9) 3 cause lane (cxLimb e.c f.k)
        | .none => m
      let f := { f with ws := ws }
      (f, signWords e 2 (cyc + cxLM e.c) true ws m)
    else
      let cp := (cxVal e.c f.k slM false (mulCpGen b)) % 2
      let sl := cxVal e.c f.k slM true (mulSliceGen b)
      let w := (galX e m).work
      let fa := mulFmtA b
      let fb := mulFmtB b
      let rs := narrowMul fa fb (mulAscale b) f.ws (if cp = 0 then w.plane0 else w.plane1)
      let m := if pairScaled fa fb then
          let sats := (rs.filter (·.sat)).length
          let nans := (rs.filter (·.nan)).length
          countEvents e (match cxBlk e.c f.k slC with | some a => accSatc a | .none => 0) sats nans m
        else m
      let m := if 0 ≤ sl ∧ sl < (sliceCount fb : Nat) then
          let other := if cp = 0 then 1 else 0
          let cells := f.b.map (BitVec.ofNat 32)
          let done := (other, sl.toNat) :: w.slicesDone.filter (· ≠ (other, sl.toNat))
          let full := (done.filter (fun x => x.1 == other)).length == sliceCount fb
          let m := simWork e m (fun w => { w with
            plane0 := if other = 0 then smPut 0 (256 * sl.toNat) cells w.plane0 else w.plane0,
            plane1 := if other = 1 then smPut 0 (256 * sl.toNat) cells w.plane1 else w.plane1,
            slicesDone := if full then done.filter (fun x => x.1 != other) else done })
          if full then simRegs e m (fun r => { r with planeLoads := bump8 r.planeLoads }) else m
        else m
      let f := { f with ws := rs.map (fun r => r.w.toNat), fp := pairScaled fa fb }
      (f, signWords e 2 (cyc + cxLM e.c) false f.ws m)

/-! ### Accumulate (03 R59, 05 R105, 08 R169, R170) -/

/-- Halves of the accumulator file that a row occupies: a modular row r is narrow rows 2r and 2r + 1 (log entry 47). -/
def accHalves (modular : Bool) (row : Nat) : List Nat := if modular then [2 * row, 2 * row + 1] else [row]

/-- Some half of the row was last written in the other view. -/
def otherView (w : Work) (modular : Bool) (row : Nat) : Bool :=
  let bad : View := if modular then .narrow else .modular
  (accHalves modular row).any (fun h => w.accView.any (fun v => v.1 == h && v.2 == bad))

/-- The row as the file holds it. -/
def accRow (w : Work) (modular : Bool) (row : Nat) : List Nat :=
  if modular then (smRead 0 (256 * row) 256 w.accM).map (·.toNat) else (smRead 0 (256 * row) 256 w.accN).map (·.toNat)

/-- What a row holds; one last written in the other view holds a free value (R59). -/
def rowHeld (e : Exe) (row : Nat) (m : Sim) : List Nat × Sim :=
  let w := (galX e m).work
  let md := cxModular e.c
  if otherView w md row then
    let n := if md then 64 else 32
    let (v, s) := freeBits (256 * n) m.s
    ((List.range 256).map (fun i => fieldAt v.toNat (n * i) n), { m with s := s })
  else (accRow w md row, m)

/-- Nothing has written the row since the exchange: one of its halves, or in the narrow view the row. -/
def rowFresh (s : State) (g : Nat) (modular : Bool) (row : Nat) : Bool :=
  (accHalves modular row).any (fun h => writtenState s g 1 h == 0)

/-- Reads a row, with its hazards (11 Table 11-5 cause 4); `old` says that what the read sees had not been written. -/
def readAcc (e : Exe) (row cyc unit : Nat) (m : Sim) : List Nat × Sim :=
  let md := cxModular e.c
  let m := if otherView (galX e m).work md row || rowFresh m.s e.c.g md row then simHz e (aloneHz e 4 cyc unit row 1 e.c.g) m else m
  rowHeld e row m

def writeAcc (modular : Bool) (row : Nat) (ws : List Nat) (w : Work) : Work :=
  let hs : List Nat := accHalves modular row
  let mark : View := if modular then .modular else .narrow
  let w := { w with accView := hs.map (fun h => (h, mark)) ++ w.accView.filter (fun (v : Nat × View) => !hs.contains v.1) }
  if modular then { w with accM := smPut 0 (256 * row) (ws.map (BitVec.ofNat 64)) w.accM }
  else { w with accN := smPut 0 (256 * row) (ws.map (BitVec.ofNat 32)) w.accN }

/-- One lane of an update: new value, saturation, NaN. -/
def accLane (modular scaled wrap : Bool) (fold old v : Nat) : Nat × Bool × Bool :=
  if modular then (lazyAdd fold old v, false, false)
  else if scaled then let r := fAdd (BitVec.ofNat 32 old) (BitVec.ofNat 32 v); (r.w.toNat, r.sat, r.nan)
  else
    let t := sext 32 old + sext 32 v
    if wrap then (m32 t, false, false) else (m32 (clamp32 t), decide (clamp32 t ≠ t), false)

/-- FOLD of the word set's modulus entry (05 R105); a free value where the step has no entry (log entry 128). -/
def foldOf (e : Exe) (k : Nat) (m : Sim) : Nat × Sim :=
  match imgModEnt e.c.rd (cxModTab e.c) (cxLimb e.c k) with
  | some x => (x.fold, m)
  | .none => if cxModular e.c then (let (v, s) := freeBits 32 m.s; (v.toNat, { m with s := s })) else (0, m)

/-- What leaves Accumulate: the word set, and B where Multiply did not consume it. -/
def signAcc (e : Exe) (cyc : Nat) (f : Flight) (m : Sim) : Sim :=
  if (cxBlk e.c f.k slM).isNone then signBoth e 3 cyc (cxModular e.c) f m else signWords e 3 cyc (cxModular e.c) f.ws m

/-- Accumulate acts on a word set that enters in cycle `cyc`: what leaves is the row after the update. -/
def doAccumulate (e : Exe) (cyc : Nat) (f : Flight) (m : Sim) : Flight × Sim :=
  match cxBlk e.c f.k slC with
  | .none => (f, signAcc e (cyc + cxLA e.c) f m)
  | some b =>
    let md := cxModular e.c
    let row := (cxVal e.c f.k slC true (accRowGen b)).toNat
    let fresh := rowFresh m.s e.c.g md row || otherView (galX e m).work md row
    let (old, m) := if accFlag b then readAcc e row cyc (unitOfSet f.k 2) m else rowHeld e row m
    let (ws, m) :=
      if accFlag b then
        let (fold, m) := foldOf e f.k m
        let rs := List.zipWith (accLane md f.fp (accWrap b) fold) old f.ws
        let m := countEvents e (accSatc b) (rs.filter (fun r => r.2.1)).length (rs.filter (fun r => r.2.2)).length m
        (rs.map (·.1), m)
      else (f.ws, m)
    let ws := if md then ws.map (· % 2 ^ 64) else ws.map (· % 2 ^ 32)
    let m := simWork e m (writeAcc md row ws)
    let m := if e.watch then simS m (fun s => (accHalves md row).foldl (fun x h => markWritten e.c.g 1 h 1 x) s) else m
    let was : RowBefore := { cycle := cyc, row := row, ws := old, fresh := fresh }
    let m := { m with accOld := (m.accOld.filter (fun x => decide (cyc < x.cycle + 2))) ++ [was] }
    let f := { f with ws := ws }
    (f, signAcc e (cyc + 2) f m)

/-- A direct read of a row in cycle `cyc`: it sees what entered at cyc - 2 or earlier (09 R184, 11 Table 11-2). -/
def peekAcc (e : Exe) (row cyc unit : Nat) (m : Sim) : List Nat × Sim :=
  match m.accOld.find? (fun x => x.row == row && decide (cyc < x.cycle + 2)) with
  | some x => (x.ws, if x.fresh then simHz e (aloneHz e 4 cyc unit row 1 e.c.g) m else m)
  | .none => readAcc e row cyc unit m

/-! ### Vector (09) -/

/-- Tile register `i` and operand-cache tile row `t`. -/
def tileReg (w : Work) (i : Nat) : List Nat := (smRead 0 (256 * i) 256 w.tiles).map (·.toNat)
def cacheRow (w : Work) (t : Nat) : List Nat := (smRead 0 (16 * t) 16 w.opcache).map (·.toNat)

/-- Tile rows that a ROWS read addresses and those it receives: the lower i wins a bank (09 R189). -/
def rowsRead (ra rs : Int) : List Nat :=
  let tr := (List.range 16).map (fun i => (ra + (i : Nat) * rs).toNat)
  (List.range 16).map (fun i =>
    let t := tr.getD i 0
    tr.getD (((List.range 16).find? (fun j => tr.getD j 0 % 16 == t % 16)).getD i) 0)

def rowsClash (ra rs : Int) : Bool :=
  let tr := (List.range 16).map (fun i => ((ra + (i : Nat) * rs).toNat) % 16)
  tr.eraseDups.length != 16

/-- Hazard of reading a tile register or a cache row that nothing has written since the exchange. -/
def watchFresh (e : Exe) (space w cyc unit : Nat) (m : Sim) : Sim :=
  if writtenState m.s e.c.g space w = 0 then simHz e (aloneHz e 4 cyc unit w space e.c.g) m else m

/-- One operand of a Vector block, with `tiles` operands from the tile file taken before it. -/
def vecOperand (e : Exe) (b : Nat) (f : Flight) (cyc src tiles : Nat) (m : Sim) : List Nat × Nat × Sim :=
  let w := (galX e m).work
  let unit := unitOfSet f.k 3
  match src with
  | 0 => (f.ws, tiles, m)
  | 1 => (f.b, tiles, m)
  | 2 =>
    let (ws, m) := peekAcc e (cxVal e.c f.k slV false (vecAccGen b)).toNat cyc unit m
    (ws, tiles, m)
  | 3 =>
    let i := (cxVal e.c f.k slV (tiles == 0) (if tiles = 0 then vecT1Gen b else vecT2Gen b)).toNat
    (tileReg w i, tiles + 1, watchFresh e 2 i cyc unit m)
  | 4 =>
    let oa := (cxVal e.c f.k slV false (vecOcGen b)).toNat
    ((smRead 0 (256 * oa) 256 w.opcache).map (·.toNat), tiles, watchFresh e 3 (16 * oa) cyc unit m)
  | 5 =>
    let ra := cxVal e.c f.k slV false (vecOcGen b)
    let rs := cxStride e.c f.k b
    let m := if rowsClash ra rs then simHz e (aloneHz e 7 cyc unit ra.toNat 3 e.c.g) m else m
    let m := (rowsRead ra rs).foldl (fun x t => watchFresh e 3 t cyc unit x) m
    ((rowsRead ra rs).flatMap (cacheRow w), tiles, m)
  | 6 => (List.replicate 256 (vecImm b), tiles, m)
  | _ => (noWords, tiles, m)

/-- Lane `l` of a word set after LAYOUT TRANSPOSE comes from this lane. -/
def transLane (transpose : Bool) (l : Nat) : Nat := if transpose then nibSwap l else l

def permLanes {α : Type} (transpose : Bool) (d : α) (xs : List α) : List α :=
  if transpose then let a := xs.toArray; lanes.map (fun l => a.getD (transLane true l) d) else xs

/-- Y and Z are bits [31:0] of their lanes (09 R185). -/
def lowWords (ws : List Nat) : List Nat := ws.map (· % 2 ^ 32)

/-- Vector acts on a word set that enters in cycle `cyc`. -/
def doVector (e : Exe) (cyc : Nat) (f : Flight) (m : Sim) : Flight × Sim :=
  match cxBlk e.c f.k slV with
  | .none => (f, signWords e 4 (cyc + cxLV e.c) (cxModular e.c) f.ws m)
  | some b =>
    let (x, n, m) := vecOperand e b f cyc (vecX b) 0 m
    let (y, n, m) := vecOperand e b f cyc (vecY b) n m
    let (z, _, m) := vecOperand e b f cyc (vecZ b) n m
    let y := lowWords y
    let z := lowWords z
    let op := vecOp b
    let ent := cxEntry e.c f.k
    let valid := lanes.map (laneValid e.c f.k b)
    let m := if vecDescEn b && valid.any (! ·) then simRegs e m (fun r => { r with maskedSets := bump8 r.maskedSets }) else m
    let tr := vecTranspose b
    let lat := cxLV e.c
    if isTap op then
      let taps := (List.range (tapCount (vecTap b))).map (tapResult op ent.q (vecTap b) x valid)
      let ta := taps.toArray
      let opts := lanes.map (fun l => ta[l]?)
      let m := if vecRacc b then m
        else countEvents e (vecSatc b) (taps.filter (fun t => t.sat && !t.nan)).length (taps.filter (·.nan)).length m
      let ws := permLanes tr 0 (lanes.map (fun l => match ta[l]? with | some t => tapWord t | .none => 0))
      let vl := permLanes tr false (lanes.map (fun l => decide (l < taps.length)))
      let m := if vecWb b = 0 then m
        else { m with wbacks := m.wbacks ++ [{ cycle := cyc + lat, k := f.k, b := b, ws := ws, valid := vl,
                                               taps := permLanes tr .none opts, q := ent.q }] }
      let f := { f with ws := ws, valid := vl, fp := vecIsFp b }
      (f, signWords e 4 (cyc + lat) false ws m)
    else
      let seed := imgSeed e.c.rd (vecSeed b)
      let xa := x.toArray
      let ya := y.toArray
      let za := z.toArray
      let va := valid.toArray
      let rs := lanes.map (fun l =>
        if va.getD l false then
          vecLane op ent (vecNegexp b) (vecM1 b) (vecImm b) seed z (ya.getD 0 0) (laneLidx e.c f.k b l)
            (xa.getD l 0) (ya.getD l 0) (za.getD l 0)
        else vres 0)
      let m := countEvents e (vecSatc b) (sumNat (rs.map (·.sats))) (sumNat (rs.map (·.nans))) m
      let ws := permLanes tr 0 (rs.map (·.v))
      let vl := permLanes tr false valid
      let m := if vecWb b = 0 then m
        else { m with wbacks := m.wbacks ++ [{ cycle := cyc + lat, k := f.k, b := b, ws := ws, valid := vl,
                                               taps := [], q := ent.q }] }
      let f := { f with ws := ws, valid := vl, fp := vecIsFp b }
      (f, signWords e 4 (cyc + lat) false ws m)

/-- The write-backs of cycle `cyc` (09 R188, R201, R468). -/
def doWriteBack (e : Exe) (w : WBack) (m : Sim) : Sim :=
  let i := (cxVal e.c w.k slV false (vecWbGen w.b)).toNat
  let m := simRegs e m (fun r => { r with stateClear := false })
  let fresh := writtenState m.s e.c.g 2 i == 0
  let m := if e.watch then
      simS m (fun s => if vecWb w.b = 1 then markWritten e.c.g 2 i 1 s
        else foldRange 16 (fun j x => markWritten e.c.g 3 (16 * i + j) 1 x) s)
    else m
  if vecRacc w.b then
    let op := vecOp w.b
    let m := if e.watch && fresh then simHz e (aloneHz e 4 w.cycle (unitOfSet w.k 3) i 2 e.c.g) m else m
    let old := (tileReg (galX e m).work i).toArray
    let ta := w.taps.toArray
    let rs := lanes.map (fun l => (ta.getD l .none).map (fun t => raccVal op w.q (old.getD l 0) t))
    let evs := rs.filterMap id
    let m := countEvents e (vecSatc w.b) (evs.filter (fun t => t.sat && !t.nan)).length (evs.filter (·.nan)).length m
    let ws := List.zipWith (fun (r : Option TapVal) l => match r with | some t => tapWord t | .none => old.getD l 0) rs lanes
    simWork e m (fun x => { x with tiles := smPut 0 (256 * i) (ws.map (BitVec.ofNat 32)) x.tiles })
  else
    let cells := List.zipWith (fun v ok => BitVec.ofNat 32 (if ok then v else 0)) w.ws w.valid
    if vecWb w.b = 1 then simWork e m (fun x => { x with tiles := smPut 0 (256 * i) cells x.tiles })
    else simWork e m (fun x => { x with opcache := smPut 0 (256 * i) cells x.opcache })

/-! ### Outlet (03 R60, 08 R172 to R179, 10 R223, 13 R288) -/

/-- What Outlet forms of a word set: words by index, which of them are padding; the counters advance (08 R175, R178). -/
def outWords (e : Exe) (b : Nat) (f : Flight) (m : Sim) : List (Nat × Nat × Bool) × Sim :=
  let n := storeWords b
  if outNarrows b then
    let lidx := (cxVal e.c f.k slO false (outLidxGen b)).toNat
    let seed := imgSeed e.c.rd (outSeed b)
    let wa := f.ws.toArray
    let u := fun l => mixNat seed (lidx + l) (wa.getD l 0 % 256) % 65536
    let p := packRow (outNfmt b) (outShift b) (outRmode b) u f.fp f.valid f.ws
    let m := countEvents e (outSatc b) p.sats p.nans m
    let hit := outRateLog b != 0 && !e.secret && mixNat (imgSeed e.c.rd (outSseed b)) lidx 0 % 2 ^ outRateLog b == 0
    let m := if hit then
        let m := simRegs e m (fun r => { r with sampled := bump8 r.sampled })
        p.devs.foldl (fun x d => simS x (modCounters e.c.g (fun c => { c with sent := vmod c.sent (sentBin d) 0 (fun y => bumpBy32 y 1) }))) m
      else m
    let pa := p.pad.toArray
    let pw := p.words.toArray
    ((List.range n).map (fun i => (i, pw.getD i 0, pa.getD i false)), m)
  else
    let wa := f.ws.toArray
    let va := f.valid.toArray
    (((List.range n).filter (fun l => va.getD l false)).map (fun l => (l, wa.getD l 0 % 2 ^ 32, false)), m)

/-- Outlet takes a word set that enters in cycle `cyc` and sends it on to land. Lanes that are invalid, masked or hold no word of
a packed row are 0 in the relay and in the window (04 R78, 08 R172; log entry 77). -/
def doOutlet (e : Exe) (cyc : Nat) (f : Flight) (m : Sim) : Sim :=
  match cxBlk e.c f.k slO with
  | .none => signWords e 5 (cyc + 1) false f.ws m
  | some b =>
    let (ws, m) := outWords e b f m
    let set := lanesOf (ws.map (fun w => (w.1, w.2.1)))
    let m := signWords e 5 (cyc + 3) false set m
    let land := fun (x : Sim) (l : Land) => { x with lands := x.lands ++ [l] }
    let m := if storesCab b then
        let at_ := ws.filterMap (fun (i, v, pad) =>
          (cxStoreAddr e.c f.k b i).bind (fun pa =>
            if pad && !inExtent e.c b pa then .none else some (i, pa, v, pad)))
        let short := ws.find? (fun (i, _, pad) => pad && (match cxStoreAddr e.c f.k b i with
          | some pa => !inExtent e.c b pa | .none => true))
        let m := match short with
          | some (i, _) => simHz e (aloneHz e 5 cyc (unitOfSet f.k 4) ((cxStoreAddr e.c f.k b i).getD 0) 0 (outDgal b)) m
          | .none => m
        let parts := blockParts e.c (outShape b) (outRate e.c b)
        let lat := if outDest b = 1 then relOf e.c.per e.c.g (outDgal b) else 3
        let first := (at_.headD (0, 0, 0, false)).2.1
        foldRange parts (fun q x =>
          let mine := at_.filter (fun (i, _, _, _) => i / (256 / parts) == q)
          land x { cycle := cyc + lat + q, dest := .cab (outDgal b) false, words := mine.map (fun (_, pa, v, _) => (pa, v)),
                   pads := mine.filterMap (fun (_, pa, _, pad) => if pad then some pa else .none), k := f.k, last := false,
                   sig := if q + 1 = parts then some (outDest b % 16 + 16 * outDrgn b + 1024 * first, set) else .none }) m
      else m
    let all := fun (cycle : Nat) (dest : LandTo) (head : Nat) => (
      { cycle := cycle, dest := dest, words := (List.range 256).zip set, pads := [], k := f.k, last := false,
        sig := some (head, set) } : Land)
    if outDest b = 2 then
      let sc := cxSched e.c (outStream b)
      match schedWord sc.runs f.k with
      | some w =>
        let t := cxStepCycle e.c w.tick (slotCycle w.slot + 2)
        land m { all t.toNat (.hbm (streamAddr sc w)) (2 + 16 * (sc.stack + 8 * sc.half) + 1024 * w.lineSet.toNat) with
                 words := ws.map (fun (i, v, _) => (i, v)) }
      | .none => m
    else if outDest b = 3 then land m (all (cyc + 3) .relay 3)
    else if outDest b = 4 then land m (all (cyc + 24) .window (4 + 1024 * f.k))
    else m

/-! ### Landings -/

/-- A write of some words of a word set to device memory: whole lines replace, others keep an uncorrectable line (14 R306). -/
def streamWrite (a : Nat) (ws : List (Nat × Nat)) (s : State) : State :=
  foldRange 16 (fun j x =>
    let mine := ws.filter (fun w => w.1 / 16 == j)
    let line := lineOf a + j
    if mine.length = 16 then
      let x := { x with hbm := { x.hbm with weak := x.hbm.weak.filter (· ≠ line), dead := x.hbm.dead.filter (· ≠ line) } }
      hbmPutBytes (a + 64 * j) (mine.flatMap (fun w => leBytes 4 w.2)) x
    else if x.hbm.dead.contains line then x
    else mine.foldl (fun y w => hbmPutBytes (a + 4 * w.1) (leBytes 4 w.2) y) x) s

/-- A relay word set that reaches the head's stage in module cycle `X` is forwarded along the span, as far as it is clocked (03 R64,
R65; 02 R24); what arrived before the present cycle `now` is gone. -/
def relaySend (per : Nat) (sp : Span) (now X : Nat) (w : RelayWord) (s : State) : State :=
  foldRange (sp.last - sp.head + 1) (fun i x =>
    let j := sp.head + i
    let bridge := if dieAt per sp.head = dieAt per j then 0 else X + relayDelta per sp.head per
    if !relayClocked per s sp j then x
    else modGal x j (fun y =>
      { y with relay := { w with cycle := X + relayDelta per sp.head j, bridge := bridge } ::
          y.relay.filter (fun r => decide (now ≤ r.cycle)) })) s

/-- A landing is the cabinet engine's. -/
def landEngine (l : Land) : Bool := match l.dest with | .cab _ engine => engine | _ => false

/-- The last chunk of an engine fill has landed: a region it covers loses POISONED, an internal one takes READY (04 R96, 10 R227). -/
def fillCovers (e : Exe) (s : State) : State :=
  match e.c.st.engine with
  | .none => s
  | some b =>
    foldRange 64 (fun j x =>
      let r := rgnOf x e.c.g j
      if r.valid && decide (engDst b ≤ rgnBase r) && decide (rgnBase r + rgnWords r ≤ engDst b + engLen b) then
        modRgn x e.c.g j (fun y => let y := unpoisonRgn y; if y.feed = 0 then readyRgn x.time.now y else y)
      else x) s

/-- What lands in its cycle. -/
def doLand (e : Exe) (l : Land) (m : Sim) : Sim :=
  let m := match l.sig with
    | some (head, set) => if e.sign then signBytes e 6 l.cycle (leBytes 8 head ++ set.flatMap (fun w => leBytes 4 w)) m else m
    | .none => m
  match l.dest with
  | .cab owner engine =>
    let m := landWords e owner (if engine then 32 else requesterOf e.c.per e.c.g owner true) l.cycle
      (unitOfSet l.k (if engine then 5 else 4)) l.pads l.words m
    if l.last then simS m (fillCovers e) else m
  | .hbm a => if islandUp m.s (32 + stackOf a) then simS m (streamWrite a l.words) else m
  | .relay =>
    let w : RelayWord := { cycle := 0, bridge := 0, words := (lanesOf l.words).map (BitVec.ofNat 32), addr := .none,
                           poisoned := false, lost := false }
    (match spanOf e.tour e.c.g with
     | some sp => simS m (relaySend e.c.per sp (modCycle e l.cycle) (modCycle e l.cycle) w)
     | .none => m)
  | .window =>
    simS m (fun s => raiseLine (windowLine e.c.g) 1 (modGal s e.c.g (fun x => { x with
      window := x.window ++ [{ tourId := e.tour.tourId, words := (lanesOf l.words).map (BitVec.ofNat 32) }],
      winDue := x.winDue - 1 })))

end Sys2Proof.Machine
end

