-- ==== Sys2Proof/Machine/Run.lean ====
section
/-!
DEFINITION. Sys2Proof/Machine/Run.lean: the module cycles of a tick: in each cycle every gallery's running step issues its
reads, lands its words and moves its word sets through the stations (02 R29, R47, 03 R50 to R61), with the cabinet engine
(04 R83, R84), the bursts of HBM streams (14 R299), the key relay (03 R64, R65) and the faults that end steps (03 R61).
-/

set_option Elab.async false

namespace Sys2Proof.Machine

/-! ### What a step runs with -/

/-- The bytes of a tour-store bank, as many as its image says. -/
def storeArray (m : SMem Byte) : Array Byte :=
  m.foldl (fun a p => a.setIfInBounds p.1 p.2) (Array.replicate (leNat (smRead 0 0x10 4 m)) 0)

/-- The twiddle words of a bank, as far as any is listed: an entry's set may lie past TW_WORDS (05 R98, 16 R339). -/
def twiddleArray (n : Nat) (m : SMem Word) : Array Word :=
  m.foldl (fun a p => a.setIfInBounds p.1 p.2) (Array.replicate (m.foldl (fun k p => max k (p.1 + 1)) n) 0)

/-- The image that a gallery fetches: the one in its active bank. -/
def fetchedImage (s : State) (g : Nat) : Rd := bytesRd (storeArray (activeBank (galOf s g)).store) 0

/-- Some gallery's Invigilator is on (11 R240). -/
def watching (s : State) : Bool := s.sec.debug && s.gals.toList.any (fun x => x.inv.enable)

/-- What the step in progress on gallery `g` runs with. -/
def stepExe (s : State) (t : Tour) (g : Nat) (r : RunStep) : Exe :=
  let rd := fetchedImage s g
  let c := mkCtx s g rd (imgStep rd r.index)
  let tw := if c.st.xform.isSome || !c.native then twiddleArray (imgTwWords rd) (activeBank (galOf s g)).twiddle else #[]
  { c := c, tour := t, index := r.index, launch := r.launched, base := r.base, tw := fun j => (tw.getD j 0).toNat,
    secret := r.secret, watch := watching s, sign := r.sign }

/-- Nothing is under way. -/
def Pipe.empty : Pipe :=
  { fly := [], reads := [], dels := [], bufA := [], bufB := [], lands := [], wbacks := [], faults := [], accOld := [], nA := 0,
    nB := 0 }

/-! ### The cabinet engine (04 R83 to R85) -/

/-- Chunk `k` of a fill: its first word and its length; none past the end. -/
def fillChunk (wa len k : Nat) : Option (Nat × Nat) :=
  let first := min len (256 - wa % 256)
  if k = 0 then some (wa, first)
  else
    let off := first + 256 * (k - 1)
    if off < len then some (wa + off, min 256 (len - off)) else .none

/-- Chunk `k` of a copy: offset and length. -/
def copyChunk (len k : Nat) : Option (Nat × Nat) := if 128 * k < len then some (128 * k, min 128 (len - 128 * k)) else .none

/-- What the engine does in cycle `cyc`: a fill's chunk lands in it, a copy's chunk is read (R83, R84). -/
def engineCycle (e : Exe) (cyc : Nat) (m : Sim) : Sim :=
  match e.c.st.engine with
  | .none => m
  | some b =>
    if engFill b then
      if cyc < engStart b + 1 then m
      else
        let k := cyc - (engStart b + 1)
        match fillChunk (engDst b) (engLen b) k with
        | some (wa, n) =>
          let l : Land :=
            { cycle := cyc, dest := .cab e.c.g true, words := (List.range n).map (fun i => (wa + i, engValue b)), pads := [],
              k := k, last := (fillChunk (engDst b) (engLen b) (k + 1)).isNone, sig := .none }
          { m with lands := m.lands ++ [l] }
        | .none => m
    else if engCopy b then
      if cyc < engStart b then m
      else
        let k := cyc - engStart b
        match copyChunk (engLen b) k with
        | some (o, n) =>
          sendRead e (.copy (engDst b + o)) e.c.g 32 cyc k true
            ((List.range n).map (fun i => (i, engSrc b + o + i))) m
        | .none => m
    else m

/-! ### One cycle -/

/-- A word set goes on: the station that it enters in cycle `cyc` acts on it; none after Outlet. -/
def advance (e : Exe) (cyc : Nat) (f : Flight) (m : Sim) : Option Flight × Sim :=
  let tm := f.enter + cxLX e.c
  let tc := tm + cxLM e.c
  let tv := tc + cxLA e.c
  let toAt := tv + cxLV e.c
  let go := fun (r : Flight × Sim) => ((some r.1 : Option Flight), r.2)
  if cyc = f.enter then go (doTransform e cyc f m)
  else if cyc = tm then go (doMultiply e cyc f m)
  else if cyc = tc then go (doAccumulate e cyc f m)
  else if cyc = tv then go (doVector e cyc f m)
  else if cyc = toAt then (.none, doOutlet e cyc f m)
  else (some f, m)

/-- All word sets under way go on, the oldest first. -/
def advanceAll (e : Exe) (cyc : Nat) : List Flight → Sim → List Flight × Sim
  | [], m => ([], m)
  | f :: fs, m =>
    let (r, m) := advance e cyc f m
    let (rs, m) := advanceAll e cyc fs m
    (match r with | some x => x :: rs | .none => rs, m)

/-- The landings of cycle `cyc`: the stations' or the engine's. -/
def landAll (e : Exe) (cyc : Nat) (engine : Bool) (m : Sim) : Sim :=
  let isIt := fun (l : Land) => decide (l.cycle ≤ cyc) && landEngine l == engine
  (m.lands.filter isIt).foldl (fun x l => doLand e l x) { m with lands := m.lands.filter (fun l => !isIt l) }

/-- Deliveries, stations and write-backs of cycle `cyc`. -/
def stationCycle (e : Exe) (cyc : Nat) (m : Sim) : Sim :=
  let m := deliver e cyc m
  let fly := m.fly
  let (fly, m) := advanceAll e cyc fly { m with fly := [] }
  let m := { m with fly := fly }
  let due := m.wbacks.filter (fun w => decide (w.cycle ≤ cyc))
  due.foldl (fun x w => doWriteBack e w x) { m with wbacks := m.wbacks.filter (fun w => decide (cyc < w.cycle)) }

/-- The first fault in a list: the earliest cycle, then the earliest station. -/
def firstFault : List Flt → Option Flt
  | [] => .none
  | f :: fs =>
    match firstFault fs with
    | .none => some f
    | some g => if f.cycle < g.cycle ∨ (f.cycle = g.cycle ∧ f.station ≤ g.station) then some f else some g

/-- The fault taken in cycle `cyc`, if any. -/
def dueFault (cyc : Nat) (m : Sim) : Option Flt := firstFault (m.faults.filter (fun f => decide (f.cycle ≤ cyc)))

/-! ### Faults (03 R61; 05 R114, 06 R134, R137, 04 R95) -/

/-- The tour ends early with a status at a tick: the earliest ending stands, the lower gallery at one tick. -/
def endEarly (id : Quad) (st : BitVec 16) (loc : FaultAt) (tick stop : Nat) (s : State) : State :=
  modTour s id (fun t =>
    let first := match t.status with
      | .none => true
      | some _ => decide (tick < t.endTick) || (tick == t.endTick && decide (loc.gallery < t.faultAt.gallery))
    if first then { t with status := some st, faultAt := loc, endTick := tick, stopAt := stop } else t)

/-- Cause, lane and limb that `arithFault` packed. -/
def faultCause (f : Flt) : Nat := if f.status = stResidueCheck then f.cause % 16 else f.cause
def faultLane (f : Flt) : Nat := f.cause / 16 % 256
def faultLimb (f : Flt) : Nat := f.cause / 4096

/-- The registers that a fault fills: arithmetic (05 R114) and key mismatch (06). -/
def recordFault (e : Exe) (f : Flt) (s : State) : State :=
  modRegs s e.c.g (fun r =>
    if f.status = stResidueCheck then
      let c := faultCause f
      let r := if c = 4 ∨ c = 5 then { r with arithRange := bump8 r.arithRange } else { r with arithCheck := bump8 r.arithCheck }
      if r.arithFault.valid then r
      else { r with arithFault := arithRecord f.cycle (faultLane f) e.index (faultLimb f) (f.station - 1) c }
    else if f.status = stKeyMismatch then
      let r := { r with keyMismatches := bump8 r.keyMismatches }
      if r.keyFault.valid then r
      else { r with keyFault :=
        { stepCycle := BitVec.ofNat 24 f.cycle, binding := BitVec.ofNat 8 ((e.c.st.key.map keyBinding).getD 0),
          step := BitVec.ofNat 16 e.index, valid := true, cause := BitVec.ofNat 4 f.cause } }
    else r)

/-- A RESIDUE_CHECK fault that enters the risk estimate (18 Table 18-1). -/
def countsArith (f : Flt) : Bool := f.status == stResidueCheck && faultCause f != 4 && faultCause f != 5

/-- A fault is taken: its registers, the issue of the step stopped, and the tour's early end at the next tick edge (R61). -/
def takeFault (e : Exe) (f : Flt) (s : State) : State :=
  let s := recordFault e f s
  let s := if countsArith f then modTaps s (fun t => { t with af := t.af + 1 }) else s
  let s := modGal s e.c.g (fun x => { x with run := x.run.map (fun r => { r with stopped := some f.status }) })
  let loc : FaultAt := { step := e.index, gallery := e.c.g, station := f.station, cause := faultCause f, stepCycle := f.cycle }
  let tick := e.launch + f.cycle / 100
  endEarly e.tour.tourId f.status loc tick (tick + 1) s

/-! ### Tours in progress -/

/-- The tick from which the steps of a tour are counted now: its start with the slip so far. -/
def tourBase (t : Tour) : Nat := t.start + slipOf t

/-- The tour has not been stopped yet: no early end, or one at a later tick edge. -/
def tourAlive (s : State) (t : Tour) : Bool := t.status.isNone || decide (s.time.now < t.stopAt)

/-- The tour that runs on gallery `g`: the latest started. -/
def runningOn (s : State) (g : Nat) : Option Tour :=
  (s.tours.filter (fun t => t.state == .running && t.mask.getLsbD g)).foldl
    (fun b t => match b with | .none => some t | some x => if x.start < t.start then some t else b) .none

/-! ### Bursts of HBM streams (14 R298, R299) -/

/-- A burst of a read schedule in the present tick: its module cycle, the gallery, the schedule, the device address, and the span
that it feeds, where no Intake block names it (03 R63; log entry 46). -/
structure Burst where
  cycle : Nat
  gal   : Nat
  sched : Nat
  addr  : Nat
  span  : Option Span
  deriving DecidableEq, Repr

/-- Read schedules that an Intake block names as the source of A or B. -/
def namedScheds (st : StepV) : List Nat :=
  match st.intake with
  | some b => (if inASrc b = srcHbm then [inAStream b] else []) ++ (if inBSrc b = srcHbm then [inBStream b] else [])
  | .none => []

/-- The tick from which schedule `i` of gallery `g` counts: that of the running step when it names the schedule, else the tour's
(02 R41: a slip moves what has not launched); none when no step to come names it and it feeds no relay. -/
def schedBase (s : State) (t : Tour) (g i : Nat) (steps : List StepV) (feeds : Bool) : Option Nat :=
  let named := fun (st : StepV) => (namedScheds st).contains i
  let next := vget t.next g 0
  let running := match (galOf s g).run with
    | some r => if (steps[r.index]?.map named).getD false then some r.base else .none
    | .none => .none
  match running with
  | some b => some b
  | .none => if feeds || (steps.drop next).any named then some (tourBase t) else .none

/-- Bursts that a run of a schedule places in the tick `rel` of its count. -/
def runBursts (sc : Sched) (now rel gal i : Nat) (span : Option Span) (r : Run) : List Burst :=
  (runTick r rel).map (fun (sl, ls) =>
    { cycle := 100 * now + slotCycle sl, gal := gal, sched := i,
      addr := sc.stack * stackBytes + sc.half * halfBytes + ls.toNat * 1024, span := span })

/-- The bursts of gallery `g` in the present tick. -/
def galBursts (s : State) (g : Nat) : List Burst :=
  match runningOn s g with
  | .none => []
  | some t =>
    let stopped := match (galOf s g).run with | some r => r.stopped.isSome | .none => false
    if t.restore.isSome || !tourAlive s t || !(galOf s g).regs.clockOn then []
    else
      let rd := fetchedImage s g
      let ss := imgScheds rd
      if ss.isEmpty then []
      else
        let steps := imgStepList rd
        let span := (spanOf t g).filter (fun sp => sp.head == g && !sp.fedOutlet)
        (List.range ss.length).flatMap (fun i =>
          match ss[i]? with
          | some sc =>
            if sc.write then []
            else
              let feeds := span.isSome && !steps.any (fun st => (namedScheds st).contains i)
              match schedBase s t g i steps feeds with
              | some b =>
                if decide (s.time.now < b) || (stopped && !feeds) then []
                else sc.runs.flatMap (runBursts sc s.time.now (s.time.now - b) g i (if feeds then span else .none))
              | .none => []
          | .none => [])

/-- The bursts of the present tick. -/
def tickBursts (s : State) : List Burst := (List.range (numGal s)).flatMap (galBursts s)

/-- A burst reads its word set and sends it to the gallery or along the relay, while its stream interface has its clock (02 R24). -/
def doBurst (b : Burst) (s : State) : State :=
  if !islandUp s (32 + stackOf b.addr) then s
  else
  let r := streamRead b.addr s
  let words := r.1.map (BitVec.ofNat 32)
  match b.span with
  | some sp =>
    relaySend (perDie s) sp b.cycle (b.cycle + 80)
      { cycle := 0, bridge := 0, words := words, addr := some b.addr, poisoned := r.2.1, lost := false } r.2.2
  | .none =>
    let at_ := b.cycle + hbmRel (perDie s) b.gal (stackOf b.addr)
    let w : InboxWord := { cycle := at_, sched := b.sched, addr := b.addr, words := words, poisoned := r.2.1, lost := false }
    modGal r.2.2 b.gal (fun x => { x with inbox := w :: x.inbox.filter (fun y => decide (b.cycle ≤ y.cycle)) })

/-- STEP and STEP_CYCLE of a FAULT at gallery `g` in module cycle `X`: those of the step that runs there, else the next step due and 0
(16 R356). -/
def placeAt (s : State) (t : Tour) (g X : Nat) : Nat × Nat :=
  match (galOf s g).run with
  | some r =>
    if r.tourId = t.tourId ∧ X < 100 * r.launched + r.duration then (r.index, X - 100 * r.launched) else (vget t.next g 0, 0)
  | .none => (vget t.next g 0, 0)

/-- Relay word sets whose hop across the dies fails at its release, and hops that miss it, end their tour (03 R64, R67, 02 R33),
whether or not a step taps them. -/
def relayLosses (X : Nat) (s : State) : State :=
  foldRange (numGal s) (fun g x =>
    let bad := (galOf x g).relay.any (fun r => r.cycle == X && r.bridge == X && (r.lost || !dirInto x (dieAt (perDie x) g)))
    match bad, runningOn x g with
    | true, some t =>
      let p := placeAt x t g X
      let loc : FaultAt := { step := p.1, gallery := g, station := 0, cause := 7, stepCycle := p.2 }
      endEarly t.tourId stLateRelease loc (X / 100) (X / 100 + 1) x
    | _, _ => x) s

/-! ### Module cycles -/

/-- A relay may carry word sets: a running tour has a span. -/
def relayLive (s : State) : Bool := s.tours.any (fun t => t.state == .running && !t.spans.isEmpty)

/-- A running step within a tick. -/
structure Lane where
  e : Exe
  p : Pipe

/-- The step of a lane runs in module cycle `X`: it has launched, has not ended, and nothing stopped it. -/
def laneRuns (l : Lane) (X : Nat) (s : State) : Bool :=
  decide (100 * l.e.launch ≤ X) && decide (X < 100 * l.e.launch + l.e.c.st.dur) &&
    (match (galOf s l.e.c.g).run with | some r => r.stopped.isNone | .none => false)

/-- Every running lane does its part of module cycle `X`, the lower galleries first. -/
def onLanes (X : Nat) (f : Exe → Nat → Sim → Sim) : List Lane → State → List Lane × State
  | [], s => ([], s)
  | l :: ls, s =>
    if laneRuns l X s then
      let m := f l.e (X - 100 * l.e.launch) { toPipe := l.p, s := s }
      let (ls, s) := onLanes X f ls m.s
      ({ l with p := m.toPipe } :: ls, s)
    else
      let (ls, s) := onLanes X f ls s
      (l :: ls, s)

/-- In the last cycle of a step that released no other crossing, the one that missed its handshake was the time code (02 R33; log entry
96). -/
def lateAtEnd (e : Exe) (cyc : Nat) (m : Sim) : List Flt :=
  if (galX e m).late then [{ cycle := cyc, station := 0, cause := 5, status := stLateRelease }] else []

/-- A fault of the cycle is taken; in the last cycle of the step any that its stations have still raised. -/
def faultCycle (e : Exe) (cyc : Nat) (m : Sim) : Sim :=
  match (if cyc + 1 = e.c.st.dur then firstFault (m.faults ++ lateAtEnd e cyc m) else dueFault cyc m) with
  | some f => simS m (takeFault e f)
  | .none => m

/-- Uses that a use of a later cycle can still meet, or that a read still to be settled has met (R68). -/
def recentUses (X : Nat) (us : List PortUse) : List PortUse := us.filter (fun u => decide (X < u.cycle + 7))

/-! ### Fills of the Docent through the cabinet engine (04 R92, R470) -/

/-- The last chunk of a fill has landed: a released region's rows are free, another loses POISONED, an internal one takes READY (04 R92,
R96, R470; 10 R227). -/
def fillLanded (g : Nat) (f : CabFill) (s : State) : State :=
  if f.release then setRgn s g f.region Region.none
  else modRgn s g f.region (fun x => let x := unpoisonRgn x; if x.feed = 0 then readyRgn s.time.now x else x)

/-- A fill that has chunks to land. -/
def fillOpen (f : CabFill) : Bool := decide (f.chunk < f.rows)

/-- The next chunk of the oldest fill of gallery `g`: one bank row. -/
def fillChunkAt (s : State) (g : Nat) (f : CabFill) : Nat := rgnBase (rgnOf s g f.region) + 256 * f.chunk

/-- A landed chunk counts; the zero fill of a release is done with its last one, another fill waits for its DONE. -/
def fillSteps (f : CabFill) (fs : List CabFill) : List CabFill :=
  match fs with
  | [] => []
  | x :: xs =>
    if x == f then (if f.release && decide (f.rows ≤ f.chunk + 1) then xs else { f with chunk := f.chunk + 1 } :: xs)
    else x :: fillSteps f xs

/-- A chunk of gallery `g`'s oldest fill lands. -/
def landChunk (g : Nat) (f : CabFill) (s : State) : State :=
  let a := fillChunkAt s g f
  let s := modGal s g (fun x => { x with cab := smFill 0 a 256 f.value x.cab, fills := fillSteps f x.fills })
  let s := if decide (f.rows ≤ f.chunk + 1) then fillLanded g f s else s
  modCabRegs s g (fun c => { c with engineBusy := (galOf s g).fills.any fillOpen })

/-- Some requester numbered 0 to 32 uses a write port of gallery `g` in module cycle `X`. -/
def writeBusy (s : State) (g X : Nat) : Bool :=
  s.useLog.any (fun u => u.owner == g && u.isWrite && u.cycle == X && stationUse u && !u.words.isEmpty)

/-- Fills land one chunk in module cycle `X`, in galleries whose clock runs and whose write ports no requester uses (R470). The log of
uses keeps what the chunk replaced (R71). -/
def fillCycle (X : Nat) (s : State) : State :=
  foldRange (numGal s) (fun g x =>
    match (galOf x g).fills.find? fillOpen with
    | some f =>
      if !(galOf x g).regs.clockOn || writeBusy x g X then x
      else
        let a := fillChunkAt x g f
        let use : PortUse :=
          { owner := g, isWrite := true, cycle := X, requester := 32, gallery := 32, step := 0, launched := 0, unit := 0,
            words := List.zipWith (fun i o => ({ pa := a + i, val := f.value.toNat, old := o, first := false } : PortWord))
              (List.range 256) (cabWords x g ((List.range 256).map (a + ·))), dropped := [] }
        landChunk g f { x with useLog := use :: x.useLog }
    | .none => x) s

/-- Some fill has chunks to land. -/
def filling (s : State) : Bool := s.gals.toList.any (fun x => x.fills.any fillOpen)

/-- What the running steps do in module cycle `X`: reads are issued, words land, reads of 3 cyc ago are settled, word sets move on
(03 R51, 04 R71), and faults are taken. -/
def laneCycle (X : Nat) (r : List Lane × State) : List Lane × State :=
  let r := onLanes X issueReads r.1 r.2
  let r := onLanes X engineCycle r.1 r.2
  let r := onLanes X (fun e cyc m => landAll e cyc false m) r.1 r.2
  let r := onLanes X (fun e cyc m => landAll e cyc true m) r.1 r.2
  let r := onLanes X (fun e cyc m => settleReads e cyc false m) r.1 r.2
  let r := onLanes X (fun e cyc m => settleReads e cyc true m) r.1 r.2
  let r := onLanes X stationCycle r.1 r.2
  onLanes X faultCycle r.1 r.2

/-- One module cycle: bursts start, the steps do their part, hops of the relay fail, fills land a chunk, and the Invigilator compares
the uses that are all known now. -/
def moduleCycle (bs : List Burst) (X : Nat) (r : List Lane × State) : List Lane × State :=
  let s := (bs.filter (fun b => b.cycle == X)).foldl (fun x b => doBurst b x) r.2
  let r := laneCycle X (r.1, s)
  let s := if relayLive r.2 then relayLosses X r.2 else r.2
  let s := if filling s then fillCycle X s else s
  let s := if watching s then watchPairs X s else s
  (r.1, { s with useLog := recentUses X s.useLog })

/-- `n` module cycles from `X` on. -/
def moduleCycles (bs : List Burst) : Nat → Nat → List Lane × State → List Lane × State
  | 0, _, r => r
  | n + 1, X, r => moduleCycles bs n (X + 1) (moduleCycle bs X r)

/-- The running steps, the lower galleries first. -/
def lanesOfTick (s : State) : List Lane :=
  (List.range (numGal s)).filterMap (fun g =>
    match (galOf s g).run with
    | some r =>
      (match tourOf s r.tourId with
       | some t => if r.stopped.isSome then .none else some { e := stepExe s t g r, p := r.pipe }
       | .none => .none)
    | .none => .none)

/-- What is under way in a lane stands in the state again. -/
def putLane (l : Lane) (s : State) : State :=
  modGal s l.e.c.g (fun x => { x with run := x.run.map (fun r => { r with pipe := l.p }) })

/-- The module runs to cycle `n` of the present tick. -/
def runTo (n : Nat) (s : State) : State :=
  if n ≤ s.time.cycle then s
  else
    let ls := lanesOfTick s
    let bs := tickBursts s
    let s' := if ls.isEmpty && bs.isEmpty && !relayLive s && !filling s && (s.useLog.isEmpty || !watching s) then { s with useLog := [] }
      else
        let r := moduleCycles bs (n - s.time.cycle) (100 * s.time.now + s.time.cycle) (ls, s)
        r.1.foldl (fun x l => putLane l x) r.2
    modTime s' (fun t => { t with cycle := n })

/-- `n` cycles of some steps alone, from `X` on. -/
def laneCycles : Nat → Nat → List Lane × State → List Lane × State
  | 0, _, r => r
  | n + 1, X, r =>
    let r := laneCycle X r
    laneCycles n (X + 1) (r.1, if watching r.2 then watchPairs X r.2 else r.2)

/-- The step that has just launched on gallery `g` does the cycles of the present tick that have run before it. -/
def catchUp (g : Nat) (s : State) : State :=
  if s.time.cycle = 0 then s
  else
    let r := laneCycles s.time.cycle (100 * s.time.now) ((lanesOfTick s).filter (fun l => l.e.c.g == g), s)
    r.1.foldl (fun x l => putLane l x) r.2

/-! ### The hub port (04 R81) -/

/-- A use takes a port of one of these banks. -/
def takesBank (u : PortUse) (pas : List Nat) : Bool :=
  pas.any (fun pa => (useAtBank u pa).isSome) || u.dropped.any (fun a => pas.any (fun pa => bankOfPa a == bankOfPa pa))

/-- A port of one of these banks of gallery `g` is used in module cycle `X`: by a requester numbered 0 to 32, or by the hub itself. -/
def portBusy (s : State) (g X : Nat) (isWrite hub : Bool) (pas : List Nat) : Bool :=
  s.useLog.any (fun u => u.owner == g && u.isWrite == isWrite && u.cycle == X && (u.requester == 33) == hub && takesBank u pas)

/-- The cycle of the present tick that has run last. -/
def lastCycle (s : State) : Nat := 100 * s.time.now + s.time.cycle - 1

/-- The module runs until a cycle of the present tick in which the ports are free, at most `n` cycles more: whether there is one, whether
a requester numbered 0 to 32 stood in the way, and the state then. -/
def awaitPort (g : Nat) (isWrite : Bool) (pas : List Nat) : Nat → Bool → State → Bool × Bool × State
  | 0, w, s =>
    let busy := portBusy s g (lastCycle s) isWrite false pas
    (!busy && !portBusy s g (lastCycle s) isWrite true pas, w || busy, s)
  | n + 1, w, s =>
    if portBusy s g (lastCycle s) isWrite false pas then awaitPort g isWrite pas n true (runTo (s.time.cycle + 1) s)
    else if portBusy s g (lastCycle s) isWrite true pas then awaitPort g isWrite pas n w (runTo (s.time.cycle + 1) s)
    else (true, w, s)

/-- A step runs on some gallery. -/
def anyStep (s : State) : Bool := s.gals.toList.any (fun x => x.run.isSome)

/-- The hub's access stands in the log of uses: it takes its ports for the cycle (04 R70). A read makes a word no alias (11 R242). -/
def noteHub (g : Nat) (isWrite : Bool) (pas : List Nat) (s : State) : State :=
  let s := if watching s && !isWrite then markRead g pas s else s
  { s with useLog := { owner := g, isWrite := isWrite, cycle := lastCycle s, requester := 33, gallery := 32, step := 0, launched := 0,
                       unit := 0, words := List.zipWith seenWord pas (cabWords s g pas), dropped := [] } :: s.useLog }

/-- The hub's turn at the ports of some banks of gallery `g`, one word a bank: in the first cycle from the present one on in which no
requester numbered 0 to 32 uses them (R81). Answers whether the present tick has one; `held` says that the access was held before. An
access that was held advances HUB_DEFERS when it is performed. -/
def hubTurn (g : Nat) (isWrite held : Bool) (pas : List Nat) (s : State) : Bool × State :=
  let count := fun (x : State) => modCabRegs x g (fun c => { c with hubDefers := bump8 c.hubDefers })
  if !anyStep s && !filling s then (true, if held then count s else s)
  else
    let s := runTo (max 1 s.time.cycle) s
    let (ok, waited, s) := awaitPort g isWrite pas (100 - s.time.cycle) false s
    let s := if ok then noteHub g isWrite pas s else s
    (ok, if ok && (held || waited) then count s else s)

/-- The words that a hub read sees in the cycle that has just run: what its landings replaced is still there (04 R71). -/
def hubWords (s : State) (g : Nat) (pas : List Nat) : List Nat :=
  let fresh := s.useLog.filter (fun u => u.owner == g && u.isWrite && u.cycle == lastCycle s)
  if fresh.isEmpty || s.time.cycle == 0 then cabWords s g pas
  else List.zipWith (fun pa w => match fresh.findSome? (fun u => useAtWord u pa) with | some x => x.old | .none => w) pas
    (cabWords s g pas)

/-- Words in rounds of which each uses a bank once: a port serves one word a cycle (04 R70). -/
def bankRounds {α : Type} (bank : α → Nat) (xs : List α) : List (List α) :=
  let r := xs.foldl (fun (r : List (List α) × List α) x =>
    if r.2.any (fun y => bank y == bank x) then (r.2.reverse :: r.1, [x]) else (r.1, x :: r.2)) ([], [])
  (if r.2.isEmpty then r.1 else r.2.reverse :: r.1).reverse

/-- A hub read of many words, a round each turn: the words, or none when the present tick has no turn left for a round. -/
def hubReads (g : Nat) : Bool → List (List Nat) → State → Option (List Nat) × State
  | _, [], s => (some [], s)
  | held, ps :: rs, s =>
    let (ok, s) := hubTurn g false held ps s
    if !ok then (.none, s)
    else
      let ws := hubWords s g ps
      let (r, s) := hubReads g false rs s
      (r.map (ws ++ ·), s)

/-- A hub write of many words, a round each turn: whether the present tick had a turn for every round. -/
def hubWrites (g : Nat) : Bool → List (List (Nat × Nat)) → State → Bool × State
  | _, [], s => (true, s)
  | held, ws :: rs, s =>
    let (ok, s) := hubTurn g true held (ws.map (·.1)) s
    if !ok then (false, s) else hubWrites g false rs (cabPut g ws s)

/-- The words of physical addresses `pas`, as the hub reads them. None, with nothing done, when the present tick has no turn left for one
of the rounds: the access is tried again later (log entry 137). -/
def hubGet (g : Nat) (held : Bool) (pas : List Nat) (s : State) : Option (List Nat) × State :=
  match hubReads g held (bankRounds bankOfPa pas) s with
  | (some ws, s') => (some ws, s')
  | (.none, _) => (.none, s)

/-- The words `ws`, as (physical address, word), as the hub writes them. Answers false, with nothing done, when the present tick has no
turn left for one of the rounds (log entry 137). -/
def hubPut (g : Nat) (held : Bool) (ws : List (Nat × Nat)) (s : State) : Bool × State :=
  match hubWrites g held (bankRounds (fun w => bankOfPa w.1) ws) s with
  | (true, s') => (true, s')
  | (false, _) => (false, s)

end Sys2Proof.Machine
end

