-- ==== Sys2Proof/Machine/Regions.lean ====
section
/-!
DEFINITION. Sys2Proof/Machine/Regions.lean: cabinet regions (04): their declaration, release and fill, and the enabling
of Restoration (07 R145 to R147).
-/

set_option Elab.async false

namespace Sys2Proof.Machine

/-- A region that occupies its bank rows: declared, or being filled with zeros on release (04 R92). -/
def holdsRows (r : Region) : Bool := r.valid || r.zeroizing

/-- Two runs of bank rows overlap. -/
def rowsOverlap (b1 n1 b2 n2 : Nat) : Bool := decide (b1 < b2 + n2) && decide (b2 < b1 + n1)

/-- Some region of gallery `g` occupies one of these bank rows. -/
def rowsTaken (s : State) (g base rows : Nat) : Bool :=
  (List.range 64).any (fun j =>
    let r := rgnOf s g j
    holdsRows r && rowsOverlap base rows r.baseRow.toNat r.rows.toNat)

/-- Bj of gallery `g` exists on this grade and is declared. -/
def declared (s : State) (g j : Nat) : Bool := decide (g < numGal s) && decide (j < 64) && (rgnOf s g j).valid

/-- A region freshly declared (04 R469): READY of an internal region is 0 (10 R227). -/
def newRegion (mode2D : Bool) (feed : Nat) (isSealed : Bool) (base rows wblk : Nat) : Region :=
  { Region.none with baseRow := BitVec.ofNat 14 base, rows := BitVec.ofNat 14 rows, mode2D := mode2D,
                     wblk := BitVec.ofNat 10 wblk, feed := BitVec.ofNat 3 feed, isSealed := isSealed, valid := true }

/-- B60 to B63 belong to Restoration while it is enabled, from the REPLY of its enable on (07 R147, 16 R351). -/
def restorationHolds (s : State) : Bool :=
  s.rst.enabled || working s (fun k => match k with | .restorationEnable _ => true | _ => false)

/-- ENABLED as refusal rules see it: from the REPLY of an enable on, and no longer from that of a disable on (16 R351). -/
def restorationOn (s : State) : Bool :=
  restorationHolds s && !working s (fun k => match k with | .restorationDisable => true | _ => false)

/-- The scratch of Restoration, when it is in force: from the REPLY of its enable on, until that of a disable (07 R147, 16 R351). -/
def scratchDue (s : State) : Option Nat :=
  if !restorationOn s then .none
  else if s.rst.enabled then some s.rst.scratch
  else s.host.longWork.findSome? (fun w => match w.kind with | .restorationEnable a => some a | _ => .none)

/-- A host command may not declare, fill or release this region (07 R147). -/
def reservedRegion (s : State) (j : Nat) : Bool := restorationHolds s && decide (60 ≤ j)

/-- REGION_DECLARE (04 R72, R73, R469); debug mode refuses a sealed region, after the other checks (19 R420; log entry 75). -/
def doRegionDeclare (g j mode feed sealed base rows wblk : Nat) (s : State) : Answer × State :=
  if decide (numGal s ≤ g) || decide (64 ≤ j) || decide (1 < mode) || decide (4 < feed) || decide (1 < sealed) ||
      rows == 0 || decide (12288 < base + rows) || (mode == 0 && wblk != 0) ||
      (mode == 1 && (wblk == 0 || decide (512 < wblk) || rows % wblk != 0)) || holdsRows (rgnOf s g j) ||
      reservedRegion s j || regionNamed s g j || rowsTaken s g base rows then (ansFail stBadParam, s)
  else if sealed == 1 && s.sec.debug then (ansFail stSealedAccess, s)
  else (ansOk, setRgn s g j (newRegion (mode == 1) feed (sealed == 1) base rows wblk))

/-- Fills that wait for region `j` or run in it are given up. -/
def dropFills (j : Nat) (fs : List CabFill) : List CabFill := fs.filter (fun f => f.region != j)

/-- ENGINE_BUSY of gallery `g` follows its fills. -/
def freeEngine (g : Nat) (s : State) : State :=
  modCabRegs s g (fun c => { c with engineBusy := (galOf s g).fills.any fillOpen })

/-- A fill joins those of gallery `g`'s cabinet engine (04 R470). -/
def startFill (g : Nat) (f : CabFill) (s : State) : State := freeEngine g (modGal s g (fun x => { x with fills := x.fills ++ [f] }))

/-- Releases a region: a sealed one is filled with zeros first, chunk by chunk, and its rows are free when the fill has landed (04 R92,
R470). Its registration to a party group ends (12 R266), and so does a fill of it. -/
def releaseRgn (g j : Nat) (s : State) : State :=
  let r := rgnOf s g j
  let s := { s with fab := { s.fab with groups := s.fab.groups.map (fun x => { x with regions := x.regions.filter (· ≠ (g, j)) }) } }
  let s := freeEngine g (modGal s g (fun x => { x with fills := dropFills j x.fills }))
  if r.isSealed then
    startFill g { region := j, value := 0, rows := r.rows.toNat, chunk := 0, release := true }
      (setRgn s g j { r with valid := false, zeroizing := true, ready := false })
  else setRgn s g j Region.none

/-- The zero fills of released regions of gallery `g` that are under way all land (04 R470): a restore and the disabling of Restoration
end after them. -/
def landZeroFills (g : Nat) (s : State) : State :=
  let zeros := (galOf s g).fills.filter (·.release)
  let s := zeros.foldl (fun x f => setRgn (zeroRgnWords x g f.region) g f.region Region.none) s
  freeEngine g (modGal s g (fun x => { x with fills := x.fills.filter (!·.release) }))

/-- REGION_RELEASE (04 R73, R469, R92). -/
def doRegionRelease (g j : Nat) (s : State) : Answer × State :=
  if !declared s g j || reservedRegion s j || regionNamed s g j then (ansFail stBadParam, s)
  else (ansOk, releaseRgn g j s)

/-- REGION_FILL (04 R470): its REPLY reports that the fill has started. -/
def doRegionFill (g j : Nat) (v : Word) (s : State) : Answer × State :=
  if !declared s g j || reservedRegion s j || regionNamed s g j then (ansFail stBadParam, s)
  else if !(galOf s g).regs.clockOn then (ansFail stNotReady, s)
  else (ansLong (.regionFill g j v),
    startFill g { region := j, value := v, rows := (rgnOf s g j).rows.toNat, chunk := 0, release := false } s)

/-- A whole region is filled at once: the Docent fills the working buffers of Restoration so before the next one (07 R153). -/
def landFill (g j : Nat) (v : Word) (s : State) : State :=
  let r := rgnOf s g j
  let s := modGal s g (fun x => { x with cab := smFill 0 (rgnBase r) (rgnWords r) v x.cab })
  modRgn s g j (fun x => let x := unpoisonRgn x; if x.feed = 0 then readyRgn s.time.now x else x)

/-- The long work number `i` with its removal from the list. -/
def takeWork (i : Nat) (s : State) : Option LongWork × State :=
  (s.host.longWork[i]?, modHost s (fun h => { h with longWork := h.longWork.eraseIdx i }))

/-- The oldest fill of gallery `g` that a REGION_FILL of region `j` with value `v` started. -/
def fillOf (s : State) (g j : Nat) (v : Word) : Option CabFill :=
  (galOf s g).fills.find? (fun f => f.region == j && f.value == v && !f.release)

/-- The DONE entry of a REGION_FILL follows the landing of its last chunk. A reset or a release that took the region away meanwhile
took the fill with it: DONE carries NOT_READY (log entry 21). -/
def doRegionFillDone (i : Nat) (s : State) : State :=
  match s.host.longWork[i]? with
  | some w =>
    match w.kind with
    | .regionFill g j v =>
      (match fillOf s g j v with
       | .none => writeDone (takeWork i s).2 w.hdr w.opcode (ansFail stNotReady)
       | some f =>
         if fillOpen f then s
         else writeDone (modGal (takeWork i s).2 g (fun x => { x with fills := x.fills.erase f })) w.hdr w.opcode ansOk)
    | _ => s
  | .none => s

/-! ### Enabling Restoration (07 R145 to R147) -/

/-- Scratch of Restoration: 4 GiB. -/
def scratchBytes : Nat := 2 ^ 32

/-- RESTORATION_ENABLE's refusals (07 R146; 16 R354). The scratch must be a 4 GiB-aligned range of device memory. Log entry 151: where both
kinds of refusal hold, BAD_PARAM comes first. -/
def doRestorationEnable (addr : Nat) (s : State) : Answer × State :=
  let blocked := (List.range (numGal s)).any (fun g =>
    rowsTaken s g 8192 4096 || (List.range 4).any (fun i => holdsRows (rgnOf s g (60 + i))))
  if addr % scratchBytes ≠ 0 ∨ hbmBytes < addr + scratchBytes ∨
      (catExists s ∧ addr < s.cat.base + 2 ^ 24 ∧ s.cat.base < addr + scratchBytes) then (ansFail stBadParam, s)
  else if restorationHolds s || blocked || anyLive s || !hbmUsable s addr scratchBytes then (ansFail stNotReady, s)
  else
    let decl := fun (g : Nat) (x : State) =>
      let x := setRgn x g 60 (newRegion true 0 false 8192 1024 1)
      let x := setRgn x g 61 (newRegion true 0 false 9216 1024 1)
      let x := setRgn x g 62 (newRegion false 0 false 10240 1024 0)
      setRgn x g 63 (newRegion false 0 false 11264 1024 0)
    (ansLong (.restorationEnable addr), foldRange (numGal s) decl s)

/-- A Restoration tour is loaded or accepted. -/
def restorationLive (s : State) : Bool := s.tours.any (fun t => tourLive t && t.restore.isSome)

/-- RESTORATION_DISABLE (07 R147). -/
def doRestorationDisable (s : State) : Answer × State :=
  if restorationLive s then (ansFail stNotReady, s) else (ansLong .restorationDisable, s)

/-- The release of B60 to B63 as sealed regions and of the scratch (07 R147). Where the gallery's clock runs their zero fills have
landed by the DONE entry; elsewhere they wait for it (04 R470). -/
def disableRestoration (s : State) : State :=
  if !s.rst.enabled then s else
  let s := foldRange (numGal s) (fun g x =>
    let x := foldRange 4 (fun i y =>
      if (rgnOf y g (60 + i)).valid then
        releaseRgn g (60 + i) (modRgn y g (60 + i) (fun r => { r with isSealed := true }))
      else y) x
    if (galOf x g).regs.clockOn then landZeroFills g x else x) s
  { s with rst := { s.rst with enabled := false, scratch := 0, refill := false } }

/-! ### Meanings -/

def execRegionDeclare (h : Hdr) (gallery region mode feed sealed : BitVec 8) (baseRow rows wblk : BitVec 16)
    (s : State) : Out :=
  .next (command h 0x0201 (doRegionDeclare gallery.toNat region.toNat mode.toNat feed.toNat sealed.toNat baseRow.toNat
    rows.toNat wblk.toNat) s)

def execRegionRelease (h : Hdr) (gallery region : BitVec 8) (s : State) : Out :=
  .next (command h 0x0202 (doRegionRelease gallery.toNat region.toNat) s)

def execRegionFill (h : Hdr) (gallery region : BitVec 8) (value : Word) (s : State) : Out :=
  .next (command h 0x0203 (doRegionFill gallery.toNat region.toNat value) s)

def execRegionFillDone (work : Nat) (s : State) : Out := .next (doRegionFillDone work s)

def execRestorationEnable (h : Hdr) (scratch : Quad) (s : State) : Out :=
  .next (command h 0x0208 (doRestorationEnable scratch.toNat) s)

def execRestorationDisable (h : Hdr) (s : State) : Out := .next (command h 0x0209 doRestorationDisable s)

end Sys2Proof.Machine
end

