-- ==== Sys2Proof/Machine/Module.lean ====
section
/-!
DEFINITION. Sys2Proof/Machine/Module.lean: the module commands of family 0x01xx (16 R353; 20 R426 to R430).
-/

set_option Elab.async false

namespace Sys2Proof.Machine

/-- HUB_ID (00 Table 00-2). -/
def hubId (s : State) : Nat := 0x4B5AB000 + numGal s

/-- IDENTIFY's result (16 Table 16-6). -/
def identifyResult (s : State) : List Byte :=
  leBytes 4 (hubId s) ++ leBytes 4 s.sec.fwVersion.toNat ++ leBytes 4 (bit01 s.sec.slotB) ++
    leBytes 4 s.sec.bootSvn.toNat

/-- The gallery bits of HUB_ISLAND_LOCK for the grade. -/
def gradeMask (s : State) : Nat := 2 ^ numGal s - 1

/-- HUB_ISLAND_LOCK with the gallery bits replaced, and with the bridge bits replaced (02 Table 02-5). -/
def lockGalleries (v : Quad) (gals : Nat) : Quad := (v &&& 0xFFFFFFFF00000000) ||| BitVec.ofNat 64 (gals % 2 ^ 32)
def lockBridge (v : Quad) (ends : Nat) : Quad := (v &&& 0xFFFFFCFFFFFFFFFF) ||| BitVec.ofNat 64 (ends % 4 * 2 ^ 40)

/-- The island of gallery `g` is locked. -/
def galLocked (s : State) (g : Nat) : Bool := s.time.islandLock.getLsbD g

/-- Stops the clocks of every gallery: their lock bits read 0 while they are gated (02, after Table 02-5). -/
def gateGalleries (s : State) : State :=
  let s := modTime s (fun t => { t with islandLock := lockGalleries t.islandLock 0 })
  { s with gals := s.gals.map (fun g => { g with regs := { g.regs with clockOn := false } }) }

/-- Starts the clock of gallery `g`: the zeroization after a reset has landed (04 R93); fills that wait go on (R470). -/
def startGallery (g : Nat) (s : State) : State :=
  modCabRegs (modRegs s g (fun r => { r with clockOn := true })) g (fun c => { c with zeroized := true })

/-- Galleries of the grade named in a mask of failures. -/
def failedGals (s : State) (failed : BitVec 64) : List Nat := (List.range (numGal s)).filter (fun g => failed.getLsbD g)

/-- The end of GALLERIES_START (20 R426): the bridge ends and every gallery that locked within 1 ms run; a gallery that
did not ends the command with NOT_READY and stays gated (log entry 22). One that was issued while ACTIVE has no effect. -/
def finishGalleriesStart (idle : Bool) (failed : BitVec 64) (s : State) : Answer × State :=
  if !idle || s.power.state == .active then (ansOk, s)
  else
    let bad := failedGals s failed
    let good := (List.range (numGal s)).filter (fun g => !bad.contains g)
    let mask := sumNat (good.map (fun g => 2 ^ g))
    let s := modTime s (fun t => { t with islandLock := lockBridge (lockGalleries t.islandLock mask) 3 })
    let s := { s with bridge := { s.bridge with dir10Up := true, dir01Up := true } }
    let s := good.foldl (fun x g => startGallery g x) s
    match bad with
    | [] => (ansOk, setPowerState s .active)
    | g :: _ => (ansFailAt stNotReady (detailOf 0 g 0), s)

/-- GALLERIES_START (20 R426). -/
def doGalleriesStart (s : State) : Answer × State :=
  if trainedOrDue s = 0xFF then (ansLong (.galleriesStart (s.power.state != .active)), s) else (ansFail stNotReady, s)

/-- GALLERIES_STOP (16 Table 16-6; 20, after R427): gates the clocks and keeps everything else. -/
def doGalleriesStop (s : State) : Answer × State :=
  if anyLive s then (ansFail stNotReady, s)
  else (ansOk, setPowerState (gateGalleries s) .idle)

/-- HBM_TRAIN (20 R427): accepted for any set of stacks. -/
def doHbmTrain (stks : BitVec 8) (s : State) : Answer × State := (ansLong (.hbmTrain stks), s)

/-- The end of training: the named stacks that trained, and their stream islands locked; stacks already trained are skipped (20 R427).
-/
def finishHbmTrain (stks : BitVec 8) (failed : BitVec 64) (s : State) : Answer × State :=
  let newly := stks &&& ~~~(failed.setWidth 8) &&& ~~~s.hbm.trained
  let t := s.hbm.trained ||| newly
  let s := { s with hbm := { s.hbm with trained := t } }
  let s := modTime s (fun x => { x with islandLock := x.islandLock ||| (newly.setWidth 64 <<< 32) })
  (ansRes [t], s)

/-! ### Resets by command (20 R428 to R430) -/

/-- A checkpoint or a restore is in progress. -/
def checkpointBusy (s : State) : Bool := s.health.stage != .idle

/-- Every Catalogue entry in cabinet space takes POISONED (20 R430). -/
def poisonCabinetEntries (s : State) : State :=
  if !s.cat.enabled then s else
  (usedEnts s).foldl (fun x i => if (catEnt x i).space = 1 then modEnt i (fun e => { e with poisoned := true }) x else x) s

/-- Loan windows over cabinet regions close (20 Table 20-3). -/
def closeCabinetWindows (s : State) : State :=
  { s with fab := { s.fab with windows := s.fab.windows.map (fun w => if w.cabinet then LoanWindow.closed else w) } }

/-- A GALLERIES reset (20 R430, Table 20-3). -/
def galleriesReset (s : State) : State :=
  let s := poisonCabinetEntries (clearGalleries s)
  let s := closeCabinetWindows { s with rst := { s.rst with enabled := false, scratch := 0, refill := false } }
  let s := modTime s (fun t => { t with islandLock := lockBridge (lockGalleries t.islandLock 0) 0 })
  let s := modPower s (fun p => { p with resetCause := 3 })
  if docentUp s then setPowerState s .idle else s

/-- What KIND 0x01 is refused for (20 R428). -/
def galleriesBusy (s : State) : Bool := anyLive s || checkpointBusy s

/-- The command would be taken now by the Docent or the recovery image. -/
def commandTaken (h : Hdr) (op : BitVec 16) (s : State) : Bool :=
  docentUp s || (s.power.state == .recovery && h.src == .mbox && recoveryTakes op)

/-- MODULE_RESET with KIND 0x01: the reset follows its REPLY (20 R428). -/
def resetGalleries (h : Hdr) (s : State) : State :=
  let t := command h 0x0104 (fun x => (if galleriesBusy x then ansFail stNotReady else ansOk, x)) s
  if commandTaken h 0x0104 s && !galleriesBusy s then galleriesReset t else t

/-- MODULE_RESET with KIND 0x02: never refused; the reset follows its REPLY (20 R428). -/
def resetDevice (h : Hdr) (s : State) : State :=
  if commandTaken h 0x0104 s then deviceReset 2 (writeReply s h 0x0104 ansOk) else s

/-! ### Meanings -/

def execIdentify (h : Hdr) (s : State) : Out := .next (command h 0x0100 (fun x => (ansRes (identifyResult x), x)) s)
def execGalleriesStart (h : Hdr) (s : State) : Out := .next (command h 0x0101 doGalleriesStart s)
def execGalleriesStop (h : Hdr) (s : State) : Out := .next (command h 0x0102 doGalleriesStop s)
def execHbmTrain (h : Hdr) (stks : BitVec 8) (s : State) : Out := .next (command h 0x0103 (doHbmTrain stks) s)
def execModuleResetGalleries (h : Hdr) (s : State) : Out := .next (resetGalleries h s)
def execModuleResetDevice (h : Hdr) (s : State) : Out := .next (resetDevice h s)

end Sys2Proof.Machine
end

