-- ==== Sys2Proof/Machine/Random.lean ====
section
/-!
DEFINITION. Sys2Proof/Machine/Random.lean: the entropy source and the DRBG (12 R252 to R256), generator fills (12 R251).
Raw bits of the entropy source are opaque constants (Config.entropy), taken in turn.
-/

set_option Elab.async false

namespace Sys2Proof.Machine

/-- `n` fresh blocks of 64 raw bytes of the entropy source. -/
def rawBits : Nat → State → List Byte × State
  | 0, s => ([], s)
  | n + 1, s =>
    let b := beBytes 64 (Config.entropy s.freeCount).toNat
    let r := rawBits n { s with freeCount := s.freeCount + 1 }
    (b ++ r.1, r.2)

/-- The device identity public key (19 R402): the point of ID_SCALAR. -/
def identityKey : List Byte := keyBytesOf (pointMul Config.identityScalar.toNat p521G)

def drbgOf (s : State) : DrbgState := { key := s.drbg.key, v := s.drbg.v }
def setDrbg (d : DrbgState) (s : State) : State := { s with drbg := { s.drbg with key := d.key, v := d.v } }

/-- The start-up tests passed: DRBG registers of a fresh instance. -/
def drbgFresh (s : State) : State :=
  { s with drbg := { s.drbg with error := false, instantiated := true, esOk := true, requests := 0, fresh := true } }

/-- The DRBG registers after a reseed. -/
def drbgReseeded (s : State) : State :=
  { s with drbg := { s.drbg with requests := 0, fresh := false, reseeds := bump8 s.drbg.reseeds } }

/-- An instance from raw bits, with a 512-bit nonce (12 R252). -/
def drbgInstantiateFrom (r : List Byte × State) : State := drbgFresh (setDrbg (drbgInit (r.1 ++ sha512 identityKey)) r.2)

/-- The start-up tests pass and the DRBG is instantiated from 1,024 raw bits and a 512-bit nonce (12 R252). -/
def drbgInstantiateNow (s : State) : State := drbgInstantiateFrom (rawBits 3 s)

/-- An instance where no command asks for one: none after a failed health test, whose state lasts until a command instantiates the DRBG
anew (12 R254). -/
def drbgStart (s : State) : State := if s.drbg.error then s else drbgInstantiateNow s

/-- A reseed from raw bits. -/
def drbgReseedFrom (r : List Byte × State) : State := drbgReseeded (setDrbg (drbgReseedWith r.1 (drbgOf r.2)) r.2)

/-- A reseed from 1,024 fresh raw bits (12 R253). -/
def drbgReseed (s : State) : State := drbgReseedFrom (rawBits 2 s)

/-- A generate request has been answered. -/
def drbgAnswer (s : State) (r : List Byte × DrbgState) : List Byte × State :=
  (r.1, { setDrbg r.2 s with drbg := { s.drbg with key := r.2.key, v := r.2.v, requests := s.drbg.requests + 1 } })

/-- One generate request of at most 65,536 bytes, with the reseed that R253 puts before it. -/
def drbgRequest (n : Nat) (s : State) : List Byte × State :=
  let s := if s.drbg.fresh || decide (2 ^ 20 ≤ s.drbg.requests.toNat) then drbgReseed s else s
  drbgAnswer s (drbgGenerate n (drbgOf s))

/-- `n` bytes of DRBG output: one stream of requests. -/
def drbgDrawFrom : Nat → Nat → State → List Byte × State
  | 0, _, s => ([], s)
  | fuel + 1, n, s =>
    if n = 0 then ([], s)
    else
      let q := drbgRequest (min n 65536) s
      let r := drbgDrawFrom fuel (n - min n 65536) q.2
      (q.1 ++ r.1, r.2)

def drbgDraw (n : Nat) (s : State) : List Byte × State := drbgDrawFrom (n / 65536 + 1) n s

/-- The DRBG's working state overwritten with zeros (12 R254, R268). -/
def drbgZero (s : State) : State := setDrbg { key := 0, v := 0 } s

/-! ### DRBG_INSTANTIATE (12 R254) -/

def doDrbgInstantiate (s : State) : Answer × State := (ansLong .drbgInstantiate, drbgZero s)

/-- Its end: bit 0 of `failed` is a repetition count failure, bit 1 an adaptive proportion failure of the repeated
start-up tests; either leaves the error state and ends the command with NOT_READY (log entry 24). -/
def finishDrbgInstantiate (failed : BitVec 64) (s : State) : Answer × State :=
  let rct := failed.getLsbD 0
  let apt := failed.getLsbD 1
  if rct || apt then
    (ansFail stNotReady, { s with drbg := { s.drbg with
      error := true, esOk := false, instantiated := false,
      rctFails := if rct then bump8 s.drbg.rctFails else s.drbg.rctFails,
      aptFails := if apt then bump8 s.drbg.aptFails else s.drbg.aptFails } })
  else (ansOk, drbgInstantiateNow s)

/-! ### DRBG_FILL (12 R255, R256) -/

/-- NOISE_BITS and Q are a form of R256. -/
def noiseOk (w q : Nat) : Bool :=
  if w = 0 then q == 0 else decide (w ≤ 30) && (q == 0 || (q % 2 == 1 && decide (2 ^ 29 < q) && decide (q < 2 ^ 31)))

/-- A word of a DRBG fill from 32 bits r (12 R256). -/
def noiseWord (w q r : Nat) : Word :=
  if w = 0 then BitVec.ofNat 32 r
  else
    let v : Int := (r % 2 ^ (w + 1) : Nat) - (2 ^ w : Nat)
    if q = 0 then BitVec.ofInt 32 v else BitVec.ofNat 32 (v % (q : Int)).toNat

/-- The DRBG is instantiated, or will be by a command that has its REPLY (16 R351). -/
def drbgDue (s : State) : Bool := s.drbg.instantiated || working s (fun k => match k with | .drbgInstantiate => true | _ => false)

/-- DRBG_FILL's checks (12 R254 to R256; 07 R147; 19 R420). -/
def doDrbgFill (g j flags noise count q : Nat) (s : State) : Answer × State :=
  let r := rgnOf s g j
  if decide (numGal s ≤ g) || decide (64 ≤ j) || decide (4 ≤ flags) || !noiseOk noise q || reservedRegion s j then (ansFail stBadParam, s)
  else if s.sec.debug || !r.valid || !r.isSealed || r.feed == 0 then (ansFail stSealedAccess, s)
  else if s.drbg.error || !drbgDue s then (ansFail stNotReady, s)
  else if rgnWords r < count then (ansFail stAddressRange, s)
  else (ansLong (.drbgFill g j (bitAt flags 1) (bitAt flags 0) noise (BitVec.ofNat 32 q) count), s)

/-- Words written from the base of a region on, in physical order. -/
def putRgnWords (g j : Nat) (ws : List Word) (s : State) : State :=
  let b := rgnBase (rgnOf s g j)
  modGal s g (fun x => { x with cab := smPut 0 b ws x.cab })

/-- The Docent moves many words of gallery `g` through the hub port while tours may use its banks: what the port makes it wait is not
followed word by word; once a tour has run, HUB_DEFERS advances by a free number of accesses that waited (04 R81; log entry 148). -/
def hubDefer (g : Nat) (s : State) : State :=
  if s.tours.any (fun t => t.state == .running || t.state == .completed) then
    let (n, s) := freeBits 8 s
    modCabRegs s g (fun c => { c with hubDefers := BitVec.ofNat 8 (min 255 (c.hubDefers.toNat + n.toNat)) })
  else s

/-- Words that the Docent puts into a region. -/
def hubBulk (g j : Nat) (ws : List Word) (s : State) : State := hubDefer g (putRgnWords g j ws s)

/-- A hub write to the region can be performed now: the gallery's clock runs (04 R70) and READY is 0 (10 R226). -/
def hubCanWrite (s : State) (g j : Nat) : Bool := (galOf s g).regs.clockOn && !(rgnOf s g j).ready

/-- The words of a byte string. -/
def wordsOf (bs : List Byte) : List Word :=
  (List.range (bs.length / 4)).map (fun i => BitVec.ofNat 32 (bytesAt bs (4 * i) 4))

/-- The 32-bit values of a byte string read four bytes at a time. -/
def nats32 : List Byte → List Nat
  | a :: b :: c :: d :: rest => leNat [a, b, c, d] :: nats32 rest
  | _ => []

/-- The end of a DRBG fill; none while the hub must hold it. A region that is of class INTERNAL by now takes no hub write (04 R82), and one
that is no longer a sealed one of the fill's size ends it with NOT_READY (log entry 21). -/
def finishDrbgFill (g j : Nat) (setReady fresh : Bool) (noise : Nat) (q : Word) (count : Nat) (s : State) :
    Option (Answer × State) :=
  let r := rgnOf s g j
  if s.drbg.error || !r.valid || !r.isSealed || decide (rgnWords r < count) then some (ansFail stNotReady, s)
  else if r.feed = 0 then some (ansFail stAddressRange, s)
  else if !s.drbg.instantiated then .none
  else if !hubCanWrite s g j then .none
  else
    let s := if fresh then drbgReseed s else s
    let (bs, s) := drbgDraw (4 * count) s
    let s := hubBulk g j ((nats32 bs).map (noiseWord noise q.toNat)) s
    let s := if setReady then modRgn s g j (readyRgn s.time.now) else s
    some (ansOk, { s with drbg := { s.drbg with fills := bump8 s.drbg.fills } })

/-! ### Signatures of the identity key (19 R403, R416) -/

/-- SEC_PK_CYCLES.LAST after an operation of the engine (19 Tables 19-7, 19-16). -/
def noteOp (cycles : Nat) (s : State) : State := { s with sec := { s.sec with pkCycles := BitVec.ofNat 64 cycles } }

/-- A scalar from 66 bytes of the DRBG (19 R418; log entry 136). -/
def drbgScalar (s : State) : Nat × State :=
  let r := drbgRequest 66 s
  (1 + leNat r.1 % (p521N - 1), r.2)

/-- The check of a fresh signature with the key's own point (19 R416). -/
def signatureGood (d e k : Nat) : Bool :=
  match pointMul d p521G with
  | some (x, y) => ecdsaVerify x y e (ecdsaSign d e k).1 (ecdsaSign d e k).2
  | .none => false

/-- A signature that fails its own check is counted. -/
def selfFailed (s : State) : State := { s with sec := { s.sec with selfFails := bump8 s.sec.selfFails } }

/-- A signature of a digest number by the identity key, its nonce from the DRBG, checked before it leaves the engine; one that fails is
replaced by zeros and PK_FAIL (R416). -/
def identitySign (e : Nat) (s : State) : List Byte × State :=
  let k := drbgScalar s
  let s := noteOp 4187500 k.2
  let d := Config.identityScalar.toNat
  if signatureGood d e k.1 then (leBytes 66 (ecdsaSign d e k.1).1 ++ leBytes 66 (ecdsaSign d e k.1).2, s)
  else (List.replicate 132 0, selfFailed { s with sec := { s.sec with pkFails := bump8 s.sec.pkFails } })

/-! ### GENERATOR_FILL (12 R251) -/

/-- Words of a generator fill. -/
def genFillWords (seed lidx : Quad) (count : Nat) : List Word :=
  (List.range count).map (fun i => (mix seed (lidx + BitVec.ofNat 64 i) 0).setWidth 32)

def doGeneratorFill (dest flags g j count addr : Nat) (seed lidx : Quad) (s : State) : Answer × State :=
  if 2 ≤ flags then (ansFail stBadParam, s)
  else if dest = 1 then
    if hbmBytes < addr + 4 * count then (ansFail stAddressRange, s)
    else if count ≠ 0 ∧ !hbmUsable s addr (4 * count) then (ansFail stNotReady, s)
    else (ansLong (.generatorFill .hbm (bitAt flags 0) g j count addr seed lidx), s)
  else if dest = 2 then
    let r := rgnOf s g j
    if !declared s g j || reservedRegion s j then (ansFail stBadParam, s)
    else if r.isSealed then (ansFail stSealedAccess, s)
    else if r.feed = 0 ∨ rgnWords r < count then (ansFail stAddressRange, s)
    else (ansLong (.generatorFill .cabinet (bitAt flags 0) g j count addr seed lidx), s)
  else (ansFail stBadParam, s)

/-- The end of a generator fill; none while the hub must hold it. A region that is of class INTERNAL by now takes no hub write (04 R82),
and one that fails another check of the REPLY ends it with NOT_READY (log entry 21). -/
def finishGeneratorFill (dest : EndKind) (setReady : Bool) (g j count addr : Nat) (seed lidx : Quad) (s : State) :
    Option (Answer × State) :=
  let ws := genFillWords seed lidx count
  if dest = .hbm then
    let (n, s) := hubWrite s addr (ws.flatMap (fun w => leBytes 4 w.toNat))
    some (if n = 4 * count then ansOk else ansFail stRegionPoisoned, s)
  else if !(rgnOf s g j).valid || (rgnOf s g j).isSealed || decide (rgnWords (rgnOf s g j) < count) then some (ansFail stNotReady, s)
  else if (rgnOf s g j).feed = 0 then some (ansFail stAddressRange, s)
  else if !hubCanWrite s g j then .none
  else
    let s := hubBulk g j ws s
    some (ansOk, if setReady then modRgn s g j (readyRgn s.time.now) else s)

/-! ### ES_HEALTH_FAIL (12 R254) -/

/-- DRBG fills in progress stop: each writes its DONE entry with NOT_READY, and its region keeps READY 0. -/
def stopFills (s : State) : State :=
  let isFill := fun (w : LongWork) => match w.kind with | .drbgFill .. => true | _ => false
  let fills := s.host.longWork.filter isFill
  let s := modHost s (fun h => { h with longWork := h.longWork.filter (fun w => !isFill w) })
  fills.foldl (fun x w => writeDone x w.hdr w.opcode (ansFail stNotReady)) s

/-- A health test of the entropy source fails. -/
def doEsHealthFail (repetition : Bool) (s : State) : State :=
  if !hubRuns s then s else
  let s := drbgZero s
  let s := { s with drbg := { s.drbg with
    error := true,
    rctFails := if repetition then bump8 s.drbg.rctFails else s.drbg.rctFails,
    aptFails := if repetition then s.drbg.aptFails else bump8 s.drbg.aptFails } }
  stopFills s

/-! ### Meanings -/

def execDrbgInstantiate (h : Hdr) (s : State) : Out := .next (command h 0x0700 doDrbgInstantiate s)

def execDrbgFill (h : Hdr) (gallery region flags noiseBits : BitVec 8) (count q : Word) (s : State) : Out :=
  .next (command h 0x0701 (doDrbgFill gallery.toNat region.toNat flags.toNat noiseBits.toNat count.toNat q.toNat) s)

def execGeneratorFill (h : Hdr) (destKind flags gallery region : BitVec 8) (count : Word) (addr seed lidxBase : Quad)
    (s : State) : Out :=
  .next (command h 0x020C
    (doGeneratorFill destKind.toNat flags.toNat gallery.toNat region.toNat count.toNat addr.toNat seed lidxBase) s)

def execEsHealthFail (repetition : Bool) (s : State) : Out := .next (doEsHealthFail repetition s)

end Sys2Proof.Machine
end

