-- ==== Sys2Proof/Machine/Vault.lean ====
section
/-!
DEFINITION. Sys2Proof/Machine/Vault.lean: the Vault (15): slots, commits, relocations, and the Vault commands.
-/

set_option Elab.async false

namespace Sys2Proof.Machine

def extentCount : Nat := 1048576
def slotCount : Nat := 1310720

def modMedium (s : State) (f : Medium → Medium) : State := modVault s (fun v => { v with medium := f v.medium })

/-! ### Encryption at rest (15 R327) -/

/-- The two XTS keys as drawn: the key of unsealed extents, then the one of sealed extents. -/
def xtsKey (v : Vault) (isSealed : Bool) : List Byte := if isSealed then v.openKeys.drop 64 else v.openKeys.take 64

/-- What data unit `u` of a slot of extent `e` holds on the medium: its plaintext under the extent's key, tweaked by extent and
unit, and not by the slot. -/
def unitCipher (v : Vault) (e : Nat) (isSealed : Bool) (slot u : Nat) : List Byte :=
  xtsSeal (xtsKey v isSealed) (e * 2048 + u) (smRead 0 (slot * extBytes + u * 4096) 4096 v.medium.data)

/-! ### Slots and block stripes (15, before R314; R317, R323) -/

/-- Slots whose extent a descriptor is reading: they are not erased before the read has finished (15 R319). -/
def readSlots (s : State) : List Nat :=
  s.dma.chans.toList.filterMap (fun c => match c.cur with
    | some p => (match p.vread with
      | some r => if !p.ended && (p.desc.srcAddr + p.written) / extBytes == r.extent then some r.slot else .none
      | .none => .none)
    | .none => .none)

/-- A slot that holds an extent, a candidate of a conflict or a write in progress, or that is being read. -/
def slotLive (s : State) (k : Nat) : Bool :=
  let v := s.vault
  v.map.any (fun p => p.2.state != .free && p.2.slot.toNat == k) || v.inFlight.any (fun w => w.slot == k) ||
    v.medium.candidates.any (fun c => c.slot == k) || (readSlots s).contains k

/-- A slot of stripe `k` is being read. -/
def stripeRead (s : State) (k : Nat) : Bool := (readSlots s).any (fun x => x / stripeSlots == k)

/-- A block stripe of the two reserved groups of 32 (15 R323). Which groups they are is open. -/
def reservedStripe (k : Nat) : Bool :=
  let a := Config.mapGroup0 % 870
  k / 32 == a || k / 32 == (a + 1 + Config.mapGroup1 % 869) % 870

/-- A block stripe that extents use: formed, not retired, and outside the reserved groups. -/
def stripeUsed (m : Medium) (k : Nat) : Bool := decide (k < m.formed) && !m.retired.contains k && !reservedStripe k

/-- The erase count of a stripe. -/
def wearOf (m : Medium) (k : Nat) : Nat := m.eraseBase + smGet 0 k m.erases

/-- A slot ready to program. -/
def slotErased (s : State) (k : Nat) : Bool := !s.vault.medium.programmed.contains k && !slotLive s k

/-- The erased slots of a stripe. -/
def erasedIn (s : State) (k : Nat) : List Nat :=
  ((List.range stripeSlots).map (k * stripeSlots + ·)).filter (slotErased s)

/-- A stripe in use with an erased slot, other than stripe `avoid`. -/
def stripeOpen (s : State) (avoid k : Nat) : Bool := stripeUsed s.vault.medium k && k != avoid && !(erasedIn s k).isEmpty

/-- A stripe in use whose programmed slots are all stale. -/
def stripeStale (s : State) (k : Nat) : Bool :=
  let slots := (List.range stripeSlots).map (k * stripeSlots + ·)
  stripeUsed s.vault.medium k && slots.any (s.vault.medium.programmed.contains ·) && !slots.any (slotLive s)

/-- The first stripe from `k` on, in a circle, that `hit` picks. -/
def stripeFrom (hit : Nat → Bool) : Nat → Nat → Option Nat
  | 0, _ => .none
  | n + 1, k => if hit k then some k else stripeFrom hit n ((k + 1) % stripeCount)

/-- The lowest-wear stripe that has erased slots (15 R317); which of several equal ones is open: `start` says where to look first. -/
def leastWorn (s : State) (avoid start : Nat) : Option Nat :=
  let m := s.vault.medium
  (List.range (m.erases.foldl (fun x p => max x p.2) 0 + 1)).findSome? (fun d =>
    stripeFrom (fun k => stripeOpen s avoid k && wearOf m k == m.eraseBase + d) stripeCount start)

/-- Some stripe has an erased slot, or can be erased at once: a write need not wait (15, after R331). -/
def slotReady (s : State) : Bool :=
  (stripeFrom (fun k => stripeOpen s stripeCount k || stripeStale s k) stripeCount 0).isSome

/-- READ_ONLY under R331. -/
def checkReadOnly (s : State) : State :=
  let m := s.vault.medium
  if m.goodStripes < 32960 ∨ 5000 ≤ meanErases m then modVault s (fun v => { v with readOnly := true }) else s

/-- What an erase leaves of a stripe: nothing programmed, one erase more, which may make the Vault read-only (R331). -/
def wipeStripe (k : Nat) (s : State) : State :=
  checkReadOnly (modMedium s (fun m => { dropData (fun x => x / stripeSlots == k) m with
    badUnits := m.badUnits.filter (fun u => u / 2048 / stripeSlots != k),
    lost := m.lost.filter (fun x => x / stripeSlots != k),
    programmed := m.programmed.filter (fun x => x / stripeSlots != k),
    erases := smSet 0 k (smGet 0 k m.erases + 1) m.erases }))

/-- With no erased slot left, a stripe of stale slots is erased. -/
def reclaim (avoid start : Nat) (s : State) : State :=
  if (leastWorn s avoid start).isSome then s
  else match stripeFrom (stripeStale s) stripeCount start with
    | some k => wipeStripe k s
    | .none => s

/-- A fresh slot: an erased one of the lowest-wear stripe (15 R317), at a place in it that is open. With none left, which DMA writes
wait out, a relocation takes a slot that holds nothing (log entry 81). -/
def pickSlot (avoid : Nat) (s : State) : Nat × State :=
  let (f, s) := freeBits 32 s
  let start := f.toNat % stripeCount
  let s := reclaim avoid start s
  let k := match leastWorn s avoid start with
    | some x => let free := erasedIn s x; free.getD (f.toNat / stripeCount % free.length) 0
    | .none => (stripeFrom (fun x => !slotLive s x && x / stripeSlots != avoid) slotCount (start * stripeSlots)).getD 0
  (k, modMedium s (fun m => { dropData (· == k) m with
    badUnits := m.badUnits.filter (fun u => u / 2048 != k), lost := m.lost.filter (· != k),
    programmed := insertRising k m.programmed }))

/-- Moves a slot's content as it stands, its uncorrectable codewords with it, to another slot. -/
def moveSlot (old new : Nat) (s : State) : State :=
  modMedium s (fun m =>
    let cells := (smSpan (old * extBytes) extBytes m.data).map (fun p => (p.1 - old * extBytes + new * extBytes, p.2))
    let rest := m.data.filter (fun p => !(decide (old * extBytes ≤ p.1) && decide (p.1 < (old + 1) * extBytes)))
    { m with
      data := rest.filter (fun p => decide (p.1 < new * extBytes)) ++
                (cells ++ rest.filter (fun p => decide ((new + 1) * extBytes ≤ p.1))),
      lost := m.lost.map (fun k => if k == old then new else k),
      badUnits := m.badUnits.map (fun u => if u / 2048 == old then new * 2048 + u % 2048 else u) })

/-! ### The map and its journal (15 Tables 15-2, 15-3; R317, R323) -/

def stateCode (x : ExtState) : Nat := match x with | .free => 0 | .written => 1 | .damaged => 2 | .conflict => 3

/-- A map entry as EXTENT_QUERY returns it (15 Table 15-2). -/
def mapWord (x : MapEntry) : Nat :=
  x.seq % 2 ^ 32 * 2 ^ 32 + bit01 x.isSealed * 2 ^ 24 + stateCode x.state * 2 ^ 21 + x.slot.toNat

/-- The first 28 bytes of a journal record. -/
def recordBody (seq extent : Nat) (entry oldSlot : Word) : List Byte :=
  leBytes 8 seq ++ leBytes 4 extent ++ leBytes 4 entry.toNat ++ leBytes 4 oldSlot.toNat ++ List.replicate 8 0

/-- A journal record with its CRC. -/
def newRecord (seq extent : Nat) (x : MapEntry) (oldSlot : Word) : JournalRec :=
  let entry := BitVec.ofNat 32 (mapWord x)
  { seq := seq, extent := extent, entry := entry, oldSlot := oldSlot,
    crc := BitVec.ofNat 32 (crc32c (recordBody seq extent entry oldSlot)) }

/-- The CRC of a record is valid. -/
def recordOk (r : JournalRec) : Bool := crc32c (recordBody r.seq r.extent r.entry r.oldSlot) == r.crc.toNat

/-- The map entry that a record gives its extent. -/
def recordEntry (r : JournalRec) : MapEntry :=
  let st := fieldAt r.entry.toNat 21 3
  { seq := r.seq, isSealed := bitAt r.entry.toNat 24,
    state := if st = 0 then .free else if st = 1 then .written else if st = 2 then .damaged else .conflict,
    slot := BitVec.ofNat 21 r.entry.toNat }

/-- A new snapshot of a replica. The one before stays, with the records since, until the next. -/
def snapReplica (seq : Nat) (map : SMem MapEntry) (r : Replica) : Replica :=
  let kept := r.snapshots.take 1
  { snapshots := { seq := seq, map := map, valid := true } :: kept,
    records := match kept with | [] => [] | p :: _ => r.records.filter (fun x => decide (p.seq < x.seq)) }

/-- A snapshot of the map on both replicas (15 R323, R326). -/
def writeSnapshots (s : State) : State :=
  let v := s.vault
  modMedium s (fun m => { m with replica0 := snapReplica m.seq v.map m.replica0, replica1 := snapReplica m.seq v.map m.replica1 })

/-- Records of a replica since its latest snapshot. -/
def recordsSince (m : Medium) : Nat := m.seq - (match m.replica0.snapshots with | p :: _ => p.seq | [] => 0)

def addRecord (r : JournalRec) (x : Replica) : Replica := { x with records := r :: x.records }

/-- The slot that a change of an extent's entry makes stale, as its record names it. -/
def oldSlotOf (old : MapEntry) (slot : Nat) : Word :=
  if old.state = .free ∨ old.slot.toNat = slot then 0xFFFFFFFF else old.slot.setWidth 32

/-- Changes a map entry: a journal record on both replicas, and a new snapshot after every 262,144 records (15 R317, R323). -/
def putMap (e : Nat) (st : ExtState) (slot : Nat) (isSealed : Bool) (s : State) : State :=
  let q := s.vault.medium.seq + 1
  let x : MapEntry := { seq := q, isSealed := isSealed, state := st, slot := BitVec.ofNat 21 slot }
  let r := newRecord q e x (oldSlotOf (mapOf s e) slot)
  let s := modVault s (fun v => { v with
    map := smSet freeMap e x v.map,
    medium := { v.medium with seq := q, replica0 := addRecord r v.medium.replica0, replica1 := addRecord r v.medium.replica1 } })
  if 262144 ≤ recordsSince s.vault.medium then writeSnapshots s else s

/-- An extent whose content can be read: its entry names the one slot that holds it (15 R334, R335). -/
def patrolled (x : MapEntry) : Bool := x.state == .written || x.state == .damaged

/-- A live slot moves to a fresh one (15 R321, R329). -/
def relocateExtent (e : Nat) (s : State) : State :=
  let x := mapOf s e
  let (k, s) := pickSlot (x.slot.toNat / stripeSlots) s
  putMap e x.state k x.isSealed (moveSlot x.slot.toNat k s)

/-- The content of a slot that no map entry names moves out of its stripe: what held it follows. -/
def moveOut (slot : Nat) (follow : Nat → Nat → State → State) (s : State) : State :=
  let (n, s) := pickSlot (slot / stripeSlots) s
  follow slot n (moveSlot slot n s)

/-- Every live slot of a stripe is relocated, candidates and writes in progress too, and the stripe erased (15 R329). -/
def eraseStripe (k : Nat) (s : State) : State :=
  let here := fun (slot : Nat) => slot / stripeSlots == k
  let live := (s.vault.map.filter (fun p => patrolled p.2 && here p.2.slot.toNat)).map (·.1)
  let s := live.foldl (fun x e => relocateExtent e x) s
  let s := ((s.vault.medium.candidates.map (·.slot)).filter here).foldl (fun x c =>
    moveOut c (fun old new y => modMedium y (fun m => { m with
      candidates := m.candidates.map (fun z => if z.slot == old then { z with slot := new } else z) })) x) s
  let s := ((s.vault.inFlight.map (·.slot)).filter here).foldl (fun x w =>
    moveOut w (fun old new y => modVault y (fun v => { v with
      inFlight := v.inFlight.map (fun z => if z.slot == old then { z with slot := new } else z) })) x) s
  wipeStripe k s

/-- Background erasing goes on with every commit: which of the stripes of stale slots it reaches is open (log entry 81). -/
def wearOn (s : State) : State :=
  let (v, s) := freeBits 40960 s
  let stale := (sortRising (s.vault.medium.programmed.map (· / stripeSlots))).filter (fun k => v.getLsbD k && stripeStale s k)
  stale.foldl (fun x k => wipeStripe k x) s

/-- The slots that the end of an extent's entry makes stale, and whether each is sealed: of a conflict, both candidates. -/
def staleSlots (s : State) (e : Nat) : List (Nat × Bool) :=
  let old := mapOf s e
  match old.state with
  | .free => []
  | .conflict => (s.vault.medium.candidates.filter (fun c => c.extent == e)).map (fun c => (c.slot, c.isSealed))
  | .written | .damaged => [(old.slot.toNat, old.isSealed)]

/-- Sealed slots that became stale have their stripes erased (15 R329). -/
def eraseSealed (stale : List (Nat × Bool)) (s : State) : State :=
  (stale.filter (·.2)).foldl (fun x p => eraseStripe (p.1 / stripeSlots) x) s

/-- A sealed slot that the end of an extent's entry makes stale shares its stripe with a slot that is being read: its erase, and with it the
operation, waits for the read (15 R319, R329). -/
def readHolds (s : State) (e : Nat) : Bool := (staleSlots s e).any (fun p => p.2 && stripeRead s (p.1 / stripeSlots))

/-- An extent takes a new entry; a sealed slot that becomes stale has its stripe erased first (15 R329). -/
def commitExtent (e : Nat) (st : ExtState) (slot : Nat) (isSealed : Bool) (s : State) : State :=
  let stale := staleSlots s e
  let s := putMap e st slot isSealed s
  let s := modMedium s (fun m => { m with candidates := m.candidates.filter (fun c => c.extent != e) })
  checkReadOnly (eraseSealed stale (wearOn s))

/-! ### Commands (15 Table 15-5) -/

/-- A descriptor in progress names the Vault. -/
def vaultMoving (s : State) : Bool :=
  s.dma.chans.toList.any (fun c => match c.cur with | some p => p.desc.src == .vault || p.desc.dst == .vault | .none => false)

/-- A descriptor in progress or a command running names the Vault. -/
def vaultNamed (s : State) : Bool :=
  vaultMoving s || s.host.longWork.any (fun w => match w.kind with
      | .vaultOpen => true | .extentRelease .. => true | .vaultSanitize => true | .checkpointTake => true
      | .checkpointRestore _ => true | _ => false) ||
    s.health.stage != .idle

/-- A descriptor is in progress on some channel. -/
def descriptorActive (s : State) : Bool := s.dma.chans.toList.any (fun c => c.cur.isSome)

def doVaultOpen (s : State) : Answer × State :=
  if s.vault.isOpen then (ansLong .vaultOpen, s)
  else (ansLong .vaultOpen, modVault s (fun v => { v with rebuilding := true }))

/-- The entry taken from two replicas (15 Table 15-4), and whether it is a conflict. An absent entry has sequence 0. -/
def mergeEntry (a b : MapEntry) : MapEntry × Bool :=
  if a = b then (a, false)
  else if b.seq < a.seq then (a, false)
  else if a.seq < b.seq then (b, false)
  else ({ a with state := .conflict }, true)

/-- A replica's map: its latest snapshot whose CRC is valid, and every valid record behind it in SEQ order. None where no
snapshot is valid (15 R324). -/
def rebuildReplica (r : Replica) : Option (SMem MapEntry) :=
  match r.snapshots.find? (·.valid) with
  | .none => .none
  | some p => some ((r.records.filter (fun x => decide (p.seq < x.seq) && recordOk x)).reverse.foldl
      (fun m x => smSet freeMap x.extent (recordEntry x) m) p.map)

/-- The extents on which two maps differ. -/
def differing (a b : SMem MapEntry) : List Nat :=
  (sortRising (a.map (·.1) ++ b.map (·.1))).filter (fun e => smGet freeMap e a != smGet freeMap e b)

/-- The merged map (15 Table 15-4). -/
def mergeMaps (a b : SMem MapEntry) : SMem MapEntry :=
  (differing a b).foldl (fun m e => smSet freeMap e (mergeEntry (smGet freeMap e a) (smGet freeMap e b)).1 m) a

/-- The candidates of the conflicts between two maps (15 R325). -/
def conflictSlots (a b : SMem MapEntry) : List Candidate :=
  ((differing a b).filter (fun e => (mergeEntry (smGet freeMap e a) (smGet freeMap e b)).2)).flatMap (fun e =>
    ([smGet freeMap e a, smGet freeMap e b].filter (fun x => x.state != .free)).map (fun x =>
      { extent := e, slot := x.slot.toNat, isSealed := x.isSealed }))

/-- Slots of sealed extents that only the map not taken names: stale since the loss of power (15 R322, R329). -/
def lostSealed (a b taken : SMem MapEntry) : List (Nat × Bool) :=
  (differing a b).flatMap (fun e =>
    ([smGet freeMap e a, smGet freeMap e b].filter (fun x =>
      patrolled x && (smGet freeMap e taken).state != .conflict && x.slot != (smGet freeMap e taken).slot)).map
        (fun x => (x.slot.toNat, x.isSealed)))

/-- Slots that the records of a replica made stale, and whether each was sealed. -/
def recordStale (r : Replica) : List (Nat × Bool) :=
  match r.snapshots.find? (·.valid) with
  | .none => []
  | some p => ((r.records.filter (fun x => decide (p.seq < x.seq) && recordOk x)).reverse.foldl (fun a x =>
      let old := smGet freeMap x.extent a.2
      (if patrolled old && old.slot != (recordEntry x).slot then (old.slot.toNat, old.isSealed) :: a.1 else a.1,
       smSet freeMap x.extent (recordEntry x) a.2)) ([], p.map)).1

/-- The map that an open rebuilds, the new candidates of conflicts, and the sealed slots it leaves stale (15 Table 15-4). -/
def mergeReplicas (m : Medium) : SMem MapEntry × List Candidate × List (Nat × Bool) :=
  match rebuildReplica m.replica0, rebuildReplica m.replica1 with
  | some a, some b => (mergeMaps a b, conflictSlots a b, lostSealed a b (mergeMaps a b))
  | some a, .none => (a, [], [])
  | .none, some b => (b, [], [])
  | .none, .none => ([], [], [])

/-- The first open of a medium: its block stripes are formed and its keys drawn (15 R327, after R330). -/
def firstOpen (s : State) : State :=
  let (ks, s) := drbgDraw 128 s
  let n := stripeCount - Config.unformed % 13108
  modMedium s (fun m => { m with keys := wrapKeys ks, formed := n, goodStripes := n })

/-- The extents that a list of candidates names, each once. -/
def conflicted (cs : List Candidate) : List Nat := sortRising (cs.map (·.extent))

/-- Candidates of extents that the map no longer gives as conflicts. -/
def settledCandidates (m : Medium) (mp : SMem MapEntry) : List Candidate :=
  m.candidates.filter (fun c => (smGet freeMap c.extent mp).state != .conflict)

/-- Stripes of sealed slots that an open finds stale, each once (15 R322, R329): of extents that the replicas named differently, of those
whose last change reached a replica before a loss of power and whose erase did not follow, and of candidates of conflicts so ended. -/
def staleStripes (s : State) (stale : List (Nat × Bool)) : List Nat :=
  ((stale.filter (fun p => p.2 && s.vault.medium.programmed.contains p.1 && !slotLive s p.1)).map (fun p => p.1 / stripeSlots)).eraseDups

/-- VAULT_OPEN ends (15 R324 to R327, R335); `failed` names channels that did not train. -/
def finishVaultOpen (failed : BitVec 64) (s : State) : Answer × State :=
  if s.vault.isOpen then (ansOk, s)
  else if failed.toNat % 65536 ≠ 0 then
    (ansFail stNotReady, modVault s (fun v => { v with rebuilding := false, mediumOk := false }))
  else
    let s := if s.vault.medium.keys.isEmpty then firstOpen s else s
    let (mp, new, stale) := mergeReplicas s.vault.medium
    let settled := settledCandidates s.vault.medium mp
    let stale := stale ++ recordStale s.vault.medium.replica0 ++ recordStale s.vault.medium.replica1 ++
      settled.map (fun c => (c.slot, c.isSealed))
    let s := modVault s (fun v => { v with
      rebuilding := false, mediumOk := true, isOpen := true, openKeys := wrapKeys v.medium.keys, openPass := true, map := mp,
      wearRead := true, eraseRead := true,
      conflicts := bumpBy8 v.conflicts (conflicted new).length, passLeft := (mp.filter (fun p => patrolled p.2)).map (·.1),
      medium := { v.medium with candidates := v.medium.candidates.filter (fun c => !settled.contains c) ++ new } })
    let s := writeSnapshots s
    (ansOk, checkReadOnly ((staleStripes s stale).foldl (fun x k => eraseStripe k x) s))

def doVaultClose (s : State) : Answer × State :=
  if vaultNamed s then (ansFail stNotReady, s) else (ansLong .vaultClose, s)

/-- The Vault is locked: the map, the unwrapped keys and the pass are gone (15 Table 15-5; 19 Table 19-10). -/
def lockVault (v : Vault) : Vault :=
  { v with isOpen := false, openPass := false, map := [], openKeys := [], inFlight := [], passLeft := [], relocs := [] }

/-- VAULT_CLOSE ends once no descriptor that runs names the Vault (15 Table 15-5): an open Vault writes a snapshot to each replica. -/
def finishVaultClose (s : State) : Option (Answer × State) :=
  if vaultMoving s then .none
  else some (ansOk, modVault (if s.vault.isOpen then writeSnapshots s else s) lockVault)

/-- Extents FIRST to FIRST + COUNT - 1 exist. -/
def extentsOk (first count : Nat) : Bool := decide (0 < count) && decide (first + count ≤ extentCount)

def doExtentRelease (first count : Nat) (s : State) : Answer × State :=
  if !extentsOk first count then (ansFail stAddressRange, s)
  else if !vaultDue s || s.vault.readOnly then (ansFail stVaultFull, s)
  else (ansLong (.extentRelease first count), s)

/-- EXTENT_RELEASE ends; none while a read holds the erase of a sealed slot. -/
def finishExtentRelease (first count : Nat) (s : State) : Option (Answer × State) :=
  if !s.vault.isOpen then some (ansFail stVaultFull, s)
  else if (List.range count).any (fun i => readHolds s (first + i)) then .none
  else some (ansOk, foldRange count (fun i x => commitExtent (first + i) .free 0 false x) s)

/-- EXTENT_QUERY (15 Table 15-5): while the Vault is not open its map reports no extent as written (R316). -/
def doExtentQuery (first count addr : Nat) (s : State) : Answer × State :=
  if count = 0 ∨ 64 < count then (ansFail stBadParam, s)
  else if extentCount < first + count ∨ hbmBytes < addr + 8 * count then (ansFail stAddressRange, s)
  else if !hbmUsable s addr (8 * count) then (ansFail stNotReady, s)
  else
    let bs := (List.range count).flatMap (fun i => leBytes 8 (mapWord (mapOf s (first + i))))
    let (n, s) := hubWrite s addr bs
    (if n = 8 * count then ansOk else ansFail stRegionPoisoned, s)

/-- Both keys are overwritten (15 R328): no slot's data can be decrypted any longer. -/
def newKeys (s : State) : State :=
  let (ks, s) := drbgDraw 128 s
  modMedium (modVault s (fun v => { v with openKeys := ks })) (fun m => { m with
    keys := wrapKeys ks, data := [],
    lost := sortRising (((s.vault.map.filter (fun p => p.2.state != .free)).map (·.2.slot.toNat)) ++ m.candidates.map (·.slot)) })

/-- VAULT_SANITIZE (15 R328): both wrapped keys are overwritten before the reply. -/
def doVaultSanitize (s : State) : Answer × State :=
  if anyLive s || descriptorActive s || checkpointStageBusy s then (ansFail stNotReady, s)
  else if !vaultOpenNow s || s.vault.readOnly then (ansFail stVaultFull, s)
  else
    (ansLong .vaultSanitize, modVault (newKeys s) (fun v => { v with sanitizing := true }))
where
  checkpointStageBusy (s : State) : Bool := s.health.stage != .idle

/-- The medium after the erase of every stripe: only the slots of extent writes in progress are programmed again, which wait for it
(log entry 52). -/
def wipeMedium (v : Vault) : Medium :=
  let busy := fun (k : Nat) => v.inFlight.any (fun w => w.slot == k)
  let empty : Replica := { snapshots := [{ seq := v.medium.seq, map := [], valid := true }], records := [] }
  { dropData (fun k => !busy k) v.medium with
    replica0 := empty, replica1 := empty, candidates := [], lost := [], eraseBase := v.medium.eraseBase + 1,
    programmed := v.medium.programmed.filter busy, badUnits := v.medium.badUnits.filter (fun u => busy (u / 2048)) }

/-- The erase of every stripe has ended: every extent is FREE. -/
def finishVaultSanitize (s : State) : Answer × State :=
  let s := modVault s (fun v => { v with sanitizing := false, map := [], passLeft := [], relocs := [], medium := wipeMedium v })
  (ansOk, checkReadOnly s)

def doPatrolSet (enable threshold : Nat) (s : State) : Answer × State :=
  if 1 < enable ∨ 144 < threshold then (ansFail stBadParam, s)
  else (ansOk, modVault s (fun v => { v with patrolEn := enable == 1, threshold := BitVec.ofNat 8 threshold }))

/-! ### Events of the medium -/

/-- The bytes that the descriptor of a write in progress has moved cover its extent. -/
def extentProgrammed (s : State) (w : ExtWrite) : Bool :=
  match (chanOf s w.channel).cur with
  | some p => decide (w.extent * extBytes + extBytes ≤ p.desc.dstAddr + p.written)
  | .none => false

/-- A wholly programmed write of the extent that is the next of its descriptor: extents are written in ascending order (15, before
R317). -/
def nextCommit (s : State) (e : Nat) : Option ExtWrite :=
  s.vault.inFlight.find? (fun w => w.extent == e && extentProgrammed s w &&
    s.vault.inFlight.find? (fun x => x.channel == w.channel) == some w)

/-- EXTENT_COMMIT (15 R317, R318): the first write of the extent that can commit does. -/
def doExtentCommit (e : Nat) (s : State) : State :=
  match nextCommit s e with
  | some w =>
    if readHolds s e then s
    else
      let s := modVault s (fun v => { v with inFlight := v.inFlight.erase w })
      commitExtent e .written w.slot w.isSealed (modMedium s (fun m => { m with bytesWritten := m.bytesWritten + extBytes }))
  | .none => s

/-- PROGRAM_FAIL (15 R318): the block's stripe is retired, its live slots relocated, the write goes to another slot; a read of a slot of
the stripe ends first (R319). -/
def doProgramFail (e : Nat) (s : State) : State :=
  match s.vault.inFlight.find? (fun w => w.extent == e) with
  | some w =>
    let k := w.slot / stripeSlots
    if stripeRead s k then s else
    let s := eraseStripe k s
    let s := modVault s (fun v => { v with
      progFails := bump8 v.progFails,
      medium := { v.medium with retired := k :: v.medium.retired, goodStripes := v.medium.goodStripes - 1 } })
    checkReadOnly s
  | .none => s

/-- A codeword of an extent stays uncorrectable (15 R330). -/
def damageExtent (e unit : Nat) (s : State) : State :=
  let x := mapOf s e
  let s := modTaps s (fun t => { t with uc := t.uc + 1 })
  let s := modVault s (fun v => { v with uncorrectable := bump8 v.uncorrectable })
  let u := x.slot.toNat * 2048 + unit
  let s := modMedium s (fun m => { m with badUnits := if m.badUnits.contains u then m.badUnits else u :: m.badUnits })
  putMap e .damaged x.slot.toNat x.isSealed s

/-- PATROL_READ (15 R334, R335): an extent needing more corrected bits than THRESHOLD is to be relocated. -/
def doPatrolRead (e corrected : Nat) (uncorrectable : Bool) (s : State) : State :=
  let x := mapOf s e
  if !s.vault.isOpen || !(s.vault.patrolEn || s.vault.openPass) || !patrolled x then s
  else
    let s := modVault s (fun v => { v with passLeft := v.passLeft.filter (· ≠ e) })
    if uncorrectable then
      let (u, s) := freeBits 11 s
      damageExtent e u.toNat s
    else if s.vault.threshold.toNat < corrected then
      modVault s (fun v => { v with relocs := (e, x.slot.toNat) :: v.relocs })
    else s

/-- How far the erase counts of two stripes in use differ. -/
def wearSpread (m : Medium) : Nat :=
  let xs := extraErases m
  xs.foldl max 0 - (if xs.length < m.goodStripes then 0 else xs.foldl min (xs.headD 0))

/-- EXTENT_RELOCATE (15 R321): commits only while the extent still names the slot it copied. The Vault relocates what the patrol has
noted (R334), and cold extents when the erase counts of two stripes differ by more than 200 (R330). -/
def doExtentRelocate (e copied : Nat) (s : State) : State :=
  let patrol := s.vault.relocs.contains (e, copied)
  if !s.vault.isOpen || (!patrol && decide (wearSpread s.vault.medium ≤ 200)) || readHolds s e then s
  else
    let s := modVault s (fun v => { v with relocs := v.relocs.filter (· ≠ (e, copied)) })
    let x := mapOf s e
    if x.state = .free ∨ x.state = .conflict ∨ x.slot.toNat ≠ copied then s
    else
      let s := if patrol then
          modTaps (modVault s (fun v => { v with relocations := bump8 v.relocations })) (fun t => { t with rl := t.rl + 1 })
        else s
      let s := relocateExtent e s
      if x.isSealed then eraseStripe (copied / stripeSlots) s else s

/-! ### Writes that end without a commit (15 R318, R322) -/

/-- The extent writes of a channel are given up: what they programmed is gone, the stripe of a sealed slot erased (15 R318, R329; 12
R268). -/
def dropWrites (ch : Nat) (s : State) : State :=
  let ws := s.vault.inFlight.filter (fun w => w.channel == ch)
  let s := modVault s (fun v => { v with inFlight := v.inFlight.filter (fun w => w.channel ≠ ch) })
  let s := modMedium s (dropData (fun k => ws.any (fun w => w.slot == k)))
  eraseSealed (ws.map (fun w => (w.slot, w.isSealed))) s

/-- A loss of power finds a write wholly programmed: its record may have reached either replica, both or none (15 R322): two free
bits. -/
def tornCommit (s : State) (w : ExtWrite) : State :=
  let (f, s) := freeBits 2 s
  if !extentProgrammed s w || nextCommit s w.extent != some w || f == 0 then s
  else
    let q := s.vault.medium.seq + 1
    let x : MapEntry := { seq := q, isSealed := w.isSealed, state := .written, slot := BitVec.ofNat 21 w.slot }
    let r := newRecord q w.extent x (oldSlotOf (mapOf s w.extent) w.slot)
    modVault s (fun v => { v with
      inFlight := v.inFlight.erase w,
      medium := { v.medium with
        seq := q, bytesWritten := v.medium.bytesWritten + extBytes,
        replica0 := if f.getLsbD 0 then addRecord r v.medium.replica0 else v.medium.replica0,
        replica1 := if f.getLsbD 1 then addRecord r v.medium.replica1 else v.medium.replica1 } })

/-- What the medium holds after a loss of power, and the free values used. -/
def unpowered (s : State) : Medium × Nat :=
  let t := s.vault.inFlight.foldl tornCommit s
  (abandonWrites t.vault, t.freeCount)

/-- OPEN_PASS_DONE (15 R335): once every extent written at the open has been patrolled, or is written no longer. -/
def doOpenPassDone (s : State) : State :=
  if s.vault.isOpen && s.vault.passLeft.all (fun e => !patrolled (mapOf s e)) then modVault s (fun v => { v with openPass := false }) else s

/-! ### Extents that the Docent writes -/

/-- The Vault takes writes (row 10; 15 R316, R331): it never refuses one for want of an erased slot. -/
def vaultTakes (s : State) : Bool := vaultOpenNow s && !s.vault.readOnly

/-- Writes bytes into extents from `e` on, each committed (15 R317): none when the Vault cannot take them. -/
def storeExtents : Nat → Nat → Bool → List Byte → State → Option State
  | 0, _, _, _, s => some s
  | n + 1, e, isSealed, bs, s =>
    if bs.isEmpty then some s
    else if !vaultTakes s then .none
    else
      let r := pickSlot slotCount s
      let s' := modMedium r.2 (fun m => { m with
        data := smPut 0 (r.1 * extBytes) (bs.take extBytes) m.data, bytesWritten := m.bytesWritten + extBytes })
      storeExtents n (e + 1) isSealed (bs.drop extBytes) (commitExtent e .written r.1 isSealed s')

/-! ### Meanings -/

def execVaultOpen (h : Hdr) (s : State) : Out := .next (command h 0x0410 doVaultOpen s)
def execVaultClose (h : Hdr) (s : State) : Out := .next (command h 0x0411 doVaultClose s)
def execExtentRelease (h : Hdr) (first count : Word) (s : State) : Out :=
  .next (command h 0x0412 (doExtentRelease first.toNat count.toNat) s)
def execExtentQuery (h : Hdr) (first count : Word) (addr : Quad) (s : State) : Out :=
  .next (command h 0x0413 (doExtentQuery first.toNat count.toNat addr.toNat) s)
def execVaultSanitize (h : Hdr) (s : State) : Out := .next (command h 0x0414 doVaultSanitize s)
def execPatrolSet (h : Hdr) (enable threshold : BitVec 8) (s : State) : Out :=
  .next (command h 0x0415 (doPatrolSet enable.toNat threshold.toNat) s)
def execExtentCommit (extent : BitVec 20) (s : State) : Out := .next (doExtentCommit extent.toNat s)
def execProgramFail (extent : BitVec 20) (s : State) : Out := .next (doProgramFail extent.toNat s)
def execPatrolRead (extent : BitVec 20) (correctedBits : Nat) (uncorrectable : Bool) (s : State) : Out :=
  .next (doPatrolRead extent.toNat correctedBits uncorrectable s)
def execExtentRelocate (extent : BitVec 20) (copied : BitVec 21) (s : State) : Out :=
  .next (doExtentRelocate extent.toNat copied.toNat s)
def execOpenPassDone (s : State) : Out := .next (doOpenPassDone s)

end Sys2Proof.Machine
end

