-- ==== Sys2Proof/Machine/Dma.lean ====
section
/-!
DEFINITION. Sys2Proof/Machine/Dma.lean: the DMA engine (13): rings and doorbells, descriptor checks, bursts, completion
records, aborts and the engine stop; the sending of fabric packets (17 R364, R365) and opening messages (12 R264); the hub
port to the cabinets (04 R81, R82).
-/

set_option Elab.async false

namespace Sys2Proof.Machine

/-! ### Descriptors (13 Tables 13-1 to 13-4) -/

/-- Endpoint kind of a code of Table 13-2. -/
def endKind (n : Nat) : Option EndKind :=
  match n with
  | 0 => some .host | 1 => some .hbm | 2 => some .cabinet | 3 => some .vault | 4 => some .fabric | 5 => some .outwin
  | _ => .none

/-- Reads a descriptor from its 64 bytes. A kind outside Table 13-2 reads as HOST here; the checks look at its byte. -/
def descOf (bs : List Byte) : Desc :=
  let f := bytesAt bs 1 1
  { reduce := bytesAt bs 0 1 == 2, setReady := bitAt f 0, irq := bitAt f 1, catLoad := bitAt f 2, credit := bitAt f 3,
    reqLine := bytesAt bs 2 1, burstLog := bytesAt bs 3 1, tag := BitVec.ofNat 32 (bytesAt bs 4 4),
    src := (endKind (bytesAt bs 8 1)).getD .host, dst := (endKind (bytesAt bs 9 1)).getD .host,
    epoch := BitVec.ofNat 8 (bytesAt bs 0xA 1), redOp := BitVec.ofNat 8 (bytesAt bs 0xB 1), length := bytesAt bs 0xC 4,
    srcAddr := bytesAt bs 0x10 8, dstAddr := bytesAt bs 0x18 8, srcAux := BitVec.ofNat 32 (bytesAt bs 0x20 4),
    dstAux := BitVec.ofNat 32 (bytesAt bs 0x24 4), catIndex := bytesAt bs 0x28 4 % 2 ^ 18 }

def auxGal (a : Word) : Nat := fieldAt a.toNat 0 5
def auxRgn (a : Word) : Nat := fieldAt a.toNat 8 6
def auxModule (a : Word) : Nat := fieldAt a.toNat 0 14
def auxWindow (a : Word) : Nat := fieldAt a.toNat 16 6
def auxGroup (a : Word) : Nat := fieldAt a.toNat 24 8

/-- ADDR and AUX have the form of their kind (Table 13-2); a gallery of OUTWIN exists on the grade, a party group slot
holds a formed group (log entry 48). -/
def auxOk (s : State) (k : EndKind) (addr : Nat) (aux : Word) : Bool :=
  match k with
  | .host => aux == 0
  | .hbm => aux == 0
  | .vault => aux == 0
  | .cabinet => aux &&& 0xFFFFC0E0 == 0
  | .fabric => aux &&& 0x00C0C000 == 0 && (auxGroup aux == 0xFF || (decide (auxGroup aux < 4) && (groupOf s (auxGroup aux)).formed))
  | .outwin => addr == 0 && aux &&& 0xFFFFFFE0 == 0 && decide (auxGal aux < numGal s)

/-- A request line of Table 13-4. -/
def lineOk (s : State) (n : Nat) : Bool :=
  decide (n ≤ 0x18) || (decide (0x20 ≤ n) && decide (n < 0x20 + numGal s))

/-- Row 1 of Table 13-3, with R310 and R379: the descriptor's fields lie in Tables 13-1, 13-2 and 13-4. -/
def descFieldsOk (s : State) (bs : List Byte) : Bool :=
  let d := descOf bs
  let op := bytesAt bs 0 1
  (op == 1 || op == 2) && decide (bytesAt bs 1 1 < 16) && lineOk s d.reqLine && decide (6 ≤ d.burstLog) &&
    decide (d.burstLog ≤ 12) && decide (bytesAt bs 8 1 ≤ 5) && decide (bytesAt bs 9 1 ≤ 4) && decide (1 ≤ d.length) &&
    decide (bytesAt bs 0x28 4 < 2 ^ 18) && bytesAt bs 0x2C 20 == 0 && auxOk s d.src d.srcAddr d.srcAux &&
    auxOk s d.dst d.dstAddr d.dstAux &&
    (if d.reduce then
      d.dst == .hbm && decide (1 ≤ d.redOp.toNat) && decide (d.redOp.toNat ≤ 6) &&
        d.length % redSize d.redOp.toNat == 0 && d.dstAddr % redSize d.redOp.toNat == 0 && !lockstepOn s
     else d.redOp == 0)

/-! ### The checks of Table 13-3 -/

/-- A route entry of the fabric (17 Table 17-5). -/
def noRoute : Route := { valid := false, minimal := 0, dport := 0 }
def routeOf (s : State) (m : Nat) : Route := smGet noRoute m s.fab.routes

/-- The window that another module announced to this one. -/
def announcedOf (s : State) (aux : Word) : Option Announced :=
  s.fab.announced.find? (fun w => w.owner.toNat == auxModule aux && w.window.toNat == auxWindow aux)

/-- Extents of a VAULT range. -/
def rangeExtents (addr n : Nat) : List Nat :=
  (List.range ((addr + n - 1) / extBytes + 1 - addr / extBytes)).map (fun i => addr / extBytes + i)

/-- An address range lies in its endpoint (row 3; 15 R315, R316; 17 R369). `rd` says whether the range is read. -/
def rangeOk (s : State) (k : EndKind) (addr n : Nat) (aux : Word) (rd : Bool) : Bool :=
  match k with
  | .host => decide (addr + n ≤ 2 ^ 64)
  | .hbm => decide (addr + n ≤ hbmBytes)
  | .cabinet =>
    let r := rgnOf s (auxGal aux) (auxRgn aux)
    decide (auxGal aux < numGal s) && r.valid && decide (addr + n ≤ 4 * rgnWords r)
  | .vault =>
    decide (addr + n ≤ extentCount * extBytes) &&
      (!rd || (vaultOpenNow s && (rangeExtents addr n).all (fun e => (mapOf s e).state != .free)))
  | .fabric =>
    (match announcedOf s aux with
     | some w => decide (addr + n ≤ w.length) && w.access.getLsbD (if rd then 0 else 1)
     | .none => false)
  | .outwin => true

/-- Every byte lies in an open atomic range (14 R310); ranges are whole lines (R307). -/
def inRanges (s : State) (addr n : Nat) : Bool :=
  (List.range ((addr + n - 1) / 64 + 1 - addr / 64)).all (fun i => (findRange s (64 * (addr / 64 + i))).isSome)

/-- The module a FABRIC endpoint names has no valid route entry (17 R365). -/
def unrouted (s : State) (k : EndKind) (aux : Word) : Bool := k == .fabric && !(routeOf s (auxModule aux)).valid

/-- The range reaches the Restoration scratch (07 R147). -/
def inScratch (s : State) (addr n : Nat) : Bool :=
  match scratchDue s with | some a => decide (addr < a + 2 ^ 32) && decide (a < addr + n) | .none => false

/-- Feed class of a source kind (Table 13-3). -/
def feedOf (k : EndKind) : Nat :=
  match k with | .host => 1 | .hbm => 4 | .cabinet => 4 | .outwin => 4 | .vault => 2 | .fabric => 3

def cabRgn (s : State) (aux : Word) : Region := rgnOf s (auxGal aux) (auxRgn aux)

/-- The source range reads sealed data: a sealed region, or a sealed extent. -/
def sealedCab (s : State) (d : Desc) : Bool := d.src == .cabinet && (cabRgn s d.srcAux).isSealed
def sealedExt (s : State) (d : Desc) : Bool :=
  d.src == .vault && (rangeExtents d.srcAddr d.length).any (fun e => (mapOf s e).isSealed)

/-- Row 8 (04 R90, 12 R267). -/
def sealedRefusal (s : State) (d : Desc) : Bool :=
  (sealedCab s d && d.dst != .vault) || (sealedExt s d && !(d.dst == .cabinet && (cabRgn s d.dstAux).isSealed))

/-- Some channel drains the window of gallery `g`. -/
def drainerOf (s : State) (g : Nat) : Option Progress :=
  s.dma.chans.toList.findSome? (fun c => match c.cur with
    | some p => if p.desc.src == .outwin && auxGal p.desc.srcAux == g && !p.ended then some p else .none
    | .none => .none)

/-- The status of the first failing condition of Table 13-3, in table order; OK when all hold. A REDUCE outside
open ranges fails row 3 (14 R310), a range over a CONFLICT extent fails with REPLICA_CONFLICT (15 R315), a module without a
route with FABRIC_UNREACHABLE (17 R365). -/
def descCheck (s : State) (ch : Nat) (bs : List Byte) : BitVec 16 :=
  let d := descOf bs
  let dr := cabRgn s d.dstAux
  if !descFieldsOk s bs then stBadParam
  else if ((d.src == .host || d.dst == .host) && !s.host.busMaster) || (d.catLoad && !catExists s) then stNotReady
  else if unrouted s d.src d.srcAux || unrouted s d.dst d.dstAux then stUnreachable
  else if !rangeOk s d.src d.srcAddr d.length d.srcAux true || !rangeOk s d.dst d.dstAddr d.length d.dstAux false ||
      (d.reduce && !inRanges s d.dstAddr d.length) then
    stAddressRange
  else if (d.dst == .cabinet && dr.feed == 0) ||
      (decide (ch < 56) && ((d.src == .hbm && inScratch s d.srcAddr d.length) ||
        (d.dst == .hbm && inScratch s d.dstAddr d.length))) then stAddressRange
  else if d.dst == .cabinet && dr.feed.toNat != feedOf d.src then stBadParam
  else if (d.src == .cabinet && (d.srcAddr % 4 != 0 || d.length % 4 != 0)) ||
      (d.dst == .cabinet && (d.dstAddr % 4 != 0 || d.length % 4 != 0)) then stBadParam
  else if d.dst == .vault && (d.dstAddr % extBytes != 0 || d.length % extBytes != 0) then stBadParam
  else if sealedRefusal s d then stSealedAccess
  else if d.src == .vault && (rangeExtents d.srcAddr d.length).any (fun e => (mapOf s e).state == .conflict) then
    stReplicaConflict
  else if d.src == .outwin && (drainerOf s (auxGal d.srcAux)).isSome then stNotReady
  else if d.dst == .vault && !vaultTakes s then stVaultFull
  else stOk

/-! ### Completion records (13 Table 13-6, R279 to R282) -/

def ringSize (log : BitVec 5) : Nat := 2 ^ (max 4 (min 16 log.toNat))

/-- The completion queue has no free entry (R271). -/
def cqFull (c : Channel) : Bool := (c.cqTail.toNat + 1) % ringSize c.cqLog == c.cqHead.toNat % ringSize c.cqLog

/-- The bytes of a completion record. -/
def recordBytes (now : Nat) (ch : Nat) (c : Channel) (p : Progress) (st : BitVec 16) (residue : Nat)
    (readySet stop catLoaded : Bool) : List Byte :=
  leBytes 8 now ++ leBytes 4 p.desc.tag.toNat ++ leBytes 2 p.index ++
    [BitVec.ofNat 8 ch,
     BitVec.ofNat 8 (bit01 c.phase + 2 * bit01 readySet + 4 * bit01 stop + 8 * bit01 catLoaded)] ++
    leBytes 2 st.toNat ++ leBytes 2 0 ++ leBytes 4 residue ++ leBytes 4 (min p.waits 0xFFFFFFFF) ++ leBytes 4 0

/-- Writes the record of a descriptor, advances HEAD and CQ_TAIL, and raises the channel's vector (R271, R279). -/
def writeRecord (ch : Nat) (p : Progress) (st : BitVec 16) (residue : Nat) (readySet stop catLoaded : Bool) (s : State) :
    State :=
  let c := chanOf s ch
  let s := locPut s c.cqLoc (c.cqAddr.toNat * 64 + 32 * c.cqTail.toNat)
    (recordBytes s.time.now ch c p st residue readySet stop catLoaded)
  let t := (c.cqTail.toNat + 1) % ringSize c.cqLog
  let s := modChan s ch (fun x => { x with
    cqTail := BitVec.ofNat 16 t, phase := if t = 0 then !x.phase else x.phase,
    head := BitVec.ofNat 16 ((p.index + 1) % ringSize x.ringLog), completions := bump8 x.completions,
    errors := if st = stOk then x.errors else bump8 x.errors, cur := .none })
  if c.irqEn && (p.desc.irq || st != stOk) then raiseVec s c.vector else s

/-- Extent writes of a channel that have not committed. -/
def openWrites (s : State) (ch : Nat) : Nat := (s.vault.inFlight.filter (fun w => w.channel == ch)).length

/-- Extents of a descriptor with a VAULT destination that have committed: those before its first open write. -/
def committed (s : State) (ch : Nat) (p : Progress) : Nat :=
  match s.vault.inFlight.find? (fun w => w.channel == ch) with
  | some w => w.extent - p.desc.dstAddr / extBytes
  | .none => p.written / extBytes

/-- Bytes of LENGTH not written: for a VAULT destination only committed extents count (15 R318). -/
def residueOf (s : State) (ch : Nat) (p : Progress) : Nat :=
  if p.desc.dst = .vault then p.desc.length - extBytes * committed s ch p
  else p.desc.length - p.written

/-- A descriptor that moved bytes, or might have, ends: READY and LOADING first, then its record (R275, R279, R282; 04
R96). Extent writes that have not committed are dropped (15 R318). -/
def endDesc (ch : Nat) (p : Progress) (st : BitVec 16) (stop : Bool) (s : State) : State :=
  let d := p.desc
  let residue := residueOf s ch p
  let s := dropWrites ch s
  let g := auxGal d.dstAux
  let j := auxRgn d.dstAux
  let live := d.dst == .cabinet && (rgnOf s g j).valid
  let whole := residue == 0 && st == stOk && !d.reduce
  let ready := whole && d.setReady && (live || d.dst == .fabric)
  let s := if ready && live then
      modRgn s g j (fun r =>
        let r := if d.dstAddr == 0 && d.length == 4 * rgnWords r then unpoisonRgn r else r
        readyRgn s.time.now r)
    else s
  let s := if whole && d.catLoad && catExists s then modEnt d.catIndex (fun e => { e with loading := false }) s else s
  let s := if decide (0 < residue) && live then modRgn s g j (poisonRgn st) else s
  let s := if decide (0 < residue) && d.catLoad && catExists s then
      modEnt d.catIndex (fun e => { e with poisoned := true, loading := false }) s
    else s
  writeRecord ch p st residue ready stop (whole && d.catLoad) s

/-! ### Doorbells and control (13 R270, R271, R281, R286) -/

/-- The driver's channels (R269). -/
def driverChan (ch : Nat) : Bool := decide (ch < 56)

/-- A write of DMA_CH_TAIL, after what the driver wrote into host memory. -/
def doDmaDoorbell (ch tail : Nat) (writes : HostWrites) (s : State) : State :=
  let s := hostPutAll s writes
  if hubRuns s && driverChan ch then modChan s ch (fun c => { c with tail := BitVec.ofNat 16 tail }) else s

/-- ENABLE is set from 0: after a ring change the indices and PHASE restart (Table 13-9). -/
def enableChan (c : Channel) : Channel :=
  if c.enable then c
  else if c.ringChange then
    { c with enable := true, ringChange := false, head := 0, tail := 0, cqTail := 0, phase := true }
  else { c with enable := true }

/-- The RW fields of DMA_CH_CTRL; RING_LOG and CQ_LOG while ENABLE is 0. -/
def writeCtrl (v : Nat) (c : Channel) : Channel :=
  let c := { c with vector := BitVec.ofNat 6 (fieldAt v 24 6), irqEn := bitAt v 1 }
  let cq := BitVec.ofNat 5 (fieldAt v 16 5)
  let rl := BitVec.ofNat 5 (fieldAt v 8 5)
  let c := if c.enable then c
    else { c with cqLog := cq, ringLog := rl, ringChange := c.ringChange || cq != c.cqLog || rl != c.ringLog }
  if bitAt v 0 then enableChan c else { c with enable := false }

/-- ABORT (R281): ENABLE clears, and a descriptor in progress issues no further burst; its record follows with DMA_COMPLETION, so
that an engine stop before it still makes it BUS_ERROR (R287). -/
def abortChan (ch : Nat) (s : State) : State :=
  modChan s ch (fun c => { c with enable := false, cur := c.cur.map (fun p => { p with aborted := true }) })

/-- A write of DMA_CH_CTRL: its fields, then ABORT. -/
def doDmaCtrl (ch v : Nat) (s : State) : State :=
  if hubRuns s && driverChan ch then
    let s := modChan s ch (writeCtrl v)
    if bitAt v 2 then abortChan ch s else s
  else s

/-- DMA_CH_CREDIT_ADD (R274). -/
def doCreditAdd (ch n : Nat) (s : State) : State :=
  if hubRuns s && driverChan ch then
    modChan s ch (fun c => { c with credit := BitVec.ofNat 24 (min 0xFFFFFF (c.credit.toNat + n % 2 ^ 24)) })
  else s

/-- DMA_ENGINE_CTRL.RESUME (R286). -/
def doEngineResume (v : Nat) (s : State) : State :=
  if hubRuns s && bitAt v 0 then { s with dma := { s.dma with stopped := false } } else s

/-! ### Fetching a descriptor (13 R271, R272, R275) -/

/-- The channel may fetch the descriptor at HEAD. A ring or queue in host memory waits for bus mastering, one in HBM for a
trained stack (log entry 49). -/
def mayFetch (s : State) (ch : Nat) : Bool :=
  let c := chanOf s ch
  let at_ := fun (hbm : Bool) (a n : Nat) => if hbm then decide (a + n ≤ hbmBytes) && hbmTrained s a n else s.host.busMaster
  hubRuns s && c.enable && !s.dma.stopped && c.cur.isNone && c.head.toNat != c.tail.toNat % ringSize c.ringLog && !cqFull c &&
    at_ c.ringLoc (c.ringAddr.toNat * 64 + 64 * c.head.toNat) 64 &&
    at_ c.cqLoc (c.cqAddr.toNat * 64 + 32 * c.cqTail.toNat) 32

/-- The bytes of the descriptor at HEAD, as the channel reads them. -/
def descBytes (s : State) (ch : Nat) : List Byte × State :=
  let c := chanOf s ch
  locRead c.ringLoc (c.ringAddr.toNat * 64 + 64 * c.head.toNat) 64 s

/-- A channel fetches its descriptor (R272): refused with a record, or started, with LOADING set for CAT_LOAD (R275). A
refused descriptor never started, so R282 poisons nothing (log entry 50). -/
def fetchDesc (ch : Nat) (s : State) : State :=
  let (bs, s) := descBytes s ch
  let d := descOf bs
  let st := descCheck s ch bs
  let p : Progress := { desc := d, index := (chanOf s ch).head.toNat, written := 0, waits := 0, lastWait := .none,
                        status := stOk, ended := false, vread := .none, serial := s.dma.started, held := false, aborted := false }
  if st = stOk then
    let s := modChan s ch (fun c => { c with cur := some p })
    let s := { s with dma := { s.dma with started := s.dma.started + 1 } }
    if d.catLoad then modEnt d.catIndex (fun e => { e with loading := true }) s else s
  else
    let s := if st = stSealedAccess && sealedCab s d then
        modCabRegs s (auxGal d.srcAux) (fun c => { c with sealedRefusals := bump8 c.sealedRefusals })
      else s
    writeRecord ch p st d.length false false false s

/-- DMA_COPY: the descriptor at HEAD is fetched when it is not a REDUCE. -/
def doDmaCopy (ch : Nat) (s : State) : State :=
  if mayFetch s ch && !(descOf (descBytes s ch).1).reduce then fetchDesc ch s else s

/-- DMA_REDUCE: the descriptor at HEAD is fetched when it is a REDUCE. -/
def doDmaReduce (ch : Nat) (s : State) : State :=
  if mayFetch s ch && (descOf (descBytes s ch).1).reduce then fetchDesc ch s else s

/-! ### Requests -/

/-- DMA_REQUEST (R273). A request of a fabric line also tells that its port has link credits for one burst more. -/
def doDmaRequest (line n : Nat) (s : State) : State :=
  if hubRuns s && lineOk s line && line != 0 then
    let s := raiseLine line n s
    if decide (0x11 ≤ line) && decide (line ≤ 0x18) then
      modPort s (line - 0x11) (fun p => { p with credits := p.credits + n })
    else s
  else s

/-! ### Fabric sends (17 R364, R365; 12 R264) -/

/-- ADAPTIVE, which reads 0 while lock-step comparison is enabled (17 R379). -/
def adaptiveOn (s : State) : Bool := s.fab.adaptive && !lockstepOn s

/-- The port of MINIMAL with the most credits, the lowest-numbered on a tie. -/
def bestPort (s : State) (minimal : BitVec 8) : Option Nat :=
  ((List.range 8).filter (fun k => minimal.getLsbD k)).foldl (fun b k =>
    match b with
    | .none => some k
    | some j => if (portOf s j).credits < (portOf s k).credits then some k else b) .none

/-- The port on which a packet for module `m` leaves. -/
def routePort (s : State) (m : Nat) : Option Nat :=
  let r := routeOf s m
  if !r.valid then .none else if adaptiveOn s then bestPort s r.minimal else some r.dport.toNat

/-- The nonce of a frame (R363): the direction bit (bit 31) and the port number, then the frame counter, little-endian (log entry
136). -/
def frameNonce (k counter : Nat) : List Byte := leBytes 4 (k + 2 ^ 31 * bit01 (Config.linkDirection k)) ++ leBytes 8 counter

/-- Port `k` carries packets: it is up (R361), and its frame counter is not about to reach 2^32 (R363: new keys come first). -/
def portCarries (s : State) (k : Nat) : Bool := (portOf s k).up && decide ((portOf s k).frameTx + 1 < 2 ^ 32)

/-- A packet leaves by its route, as one frame (log entry 136); a packet whose entry has VALID 0 is dropped and counted (R365).
Answers whether it left. -/
def sendPacket (p : Packet) (s : State) : Bool × State :=
  match routePort s p.dst.toNat with
  | .none => (false, { s with fab := { s.fab with hopDrops := bump8 s.fab.hopDrops } })
  | some k =>
    if portCarries s k then
      let sent : SentPacket := { port := BitVec.ofNat 3 k, nonce := frameNonce k (portOf s k).frameTx, packet := p }
      let s := modPort s k (fun x => { x with credits := x.credits - 1, frameTx := x.frameTx + 1 })
      (true, { s with fab := { s.fab with sent := sent :: s.fab.sent } })
    else (false, s)

/-- The packet of a burst of a descriptor with a FABRIC endpoint. -/
def burstPacket (s : State) (d : Desc) (off : Nat) (kind : PacketKind) (aux : Word) : Packet :=
  { dst := BitVec.ofNat 14 (auxModule aux), src := s.fab.module, epoch := d.epoch, hops := 0,
    window := BitVec.ofNat 6 (auxWindow aux), offset := off, kind := kind }

/-- Word sets of a byte string. -/
def wordSets : Nat → List Word → List WordSet
  | 0, _ => []
  | n + 1, ws => if ws.isEmpty then [] else ws.take 256 :: wordSets n (ws.drop 256)

/-- The nonce of an opening message (R264): the sender's index in 32 bits, the sequence number in 64, little-endian (00 R4). -/
def openingNonce (sender seq : Nat) : List Byte := leBytes 4 sender ++ leBytes 8 seq

/-- What the tag of an opening message covers beside its payload: its other fields (log entry 136). -/
def openingHeader (m : Opening) : List Byte :=
  leBytes 4 m.groupId.toNat ++ leBytes 4 m.sender.toNat ++ leBytes 8 m.seq ++ leBytes 8 m.tourId.toNat ++
    [BitVec.ofNat 8 m.gallery.toNat, BitVec.ofNat 8 m.region.toNat] ++ leBytes 8 m.offset

/-- A message sealed with AES-256-GCM under the sender-to-receiver key (R264). -/
def sealOpening (receiver : Nat) (key : Nat) (m : Opening) : SentOpening :=
  let iv := openingNonce m.sender.toNat m.seq
  let r := gcmSeal (beBytes 32 key) iv (openingHeader m) ((m.data.flatMap id).flatMap (fun w => leBytes 4 w.toNat))
  { receiver := receiver, message := m, nonce := iv, body := r.1, tag := r.2 }

/-- The other members of a group. -/
def otherMembers (grp : Group) : List Nat := (List.range grp.parties.toNat).filter (fun i => i != grp.self.toNat)

/-- Every other member of a group can be reached by a port that carries packets (17 R361). -/
def membersReached (s : State) (slot : Nat) : Bool :=
  (otherMembers (groupOf s slot)).all (fun i => match routePort s ((groupOf s slot).members.getD i 0) with
    | some k => portCarries s k
    | .none => false)

/-- Opening messages of a burst to every other member of the group (R264). The spec names no field that tells the
destination region, so gallery and region are free values (log entry 51). -/
def sendOpenings (slot : Nat) (tour : Quad) (off : Nat) (bs : List Byte) (s : State) : State :=
  let grp := groupOf s slot
  (otherMembers grp).foldl (fun x i =>
    let (rg, x) := freeBits 11 x
    let seq := (groupOf x slot).sendSeq.getD i 0 + 1
    let m : Opening := { groupId := grp.groupId, sender := grp.self, seq := seq, tourId := tour,
                         gallery := BitVec.ofNat 5 (rg.toNat % 32), region := BitVec.ofNat 6 (rg.toNat / 32),
                         offset := off, data := wordSets (bs.length / 1024 + 1) (wordsOf bs), tagOk := true }
    let x := modGroup x slot (fun y => { y with sendSeq := y.sendSeq.set i seq })
    let x := match routePort x (grp.members.getD i 0) with
      | some k => modPort x k (fun y => { y with frameTx := y.frameTx + 1 })
      | .none => x
    { x with fab := { x.fab with opened := sealOpening i (grp.keys.getD (2 * i) 0) m :: x.fab.opened } }) s

/-! ### Bursts (13 R273 to R277, Table 13-7) -/

/-- Bytes of the next burst. -/
def burstBytes (p : Progress) : Nat :=
  let left := p.desc.length - p.written
  if p.desc.src = .outwin then min 1024 left
  else let size := 2 ^ p.desc.burstLog; min (size - (p.desc.dstAddr + p.written) % size) left

/-- The descriptor waits for a request, a credit or READY of its destination to fall. -/
def burstWaits (s : State) (c : Channel) (p : Progress) : Bool :=
  let d := p.desc
  !p.ended && !p.aborted && decide (p.written < d.length) &&
    ((d.reqLine != 0 && lineCount s d.reqLine == 0) || (d.credit && c.credit == 0) ||
      (d.dst == .cabinet && (cabRgn s d.dstAux).ready))

/-- Its interfaces can move a burst: the clock of a gallery named runs, an outbound window holds a word set, and the first byte of an
extent finds a slot to program (15, after R331). -/
def burstCan (s : State) (p : Progress) : Bool :=
  let d := p.desc
  (d.src != .cabinet || (galOf s (auxGal d.srcAux)).regs.clockOn) &&
    (d.dst != .cabinet || (galOf s (auxGal d.dstAux)).regs.clockOn) &&
    (d.src != .outwin || !(galOf s (auxGal d.srcAux)).window.isEmpty) &&
    (d.dst != .vault || (d.dstAddr + p.written) % extBytes != 0 || slotReady s)

/-- A burst of `n` bytes takes hub slots at the stacks it reads and writes (14 R301); none when it finds too few. A REDUCE works in
SRAM. -/
def burstSlots (s : State) (p : Progress) (n : Nat) : Option State :=
  (if p.desc.src = .hbm then placeRange (p.desc.srcAddr + p.written) n false s else some s).bind (fun s =>
    if p.desc.dst = .hbm then placeRange (p.desc.dstAddr + p.written) n true s else some s)

/-- A tick in which a descriptor waits is counted once. -/
def countWait (now : Nat) (p : Progress) : Progress :=
  if p.lastWait = some now then p else { p with waits := p.waits + 1, lastWait := some now }

/-- What a burst read: its bytes up to a failure, the failure, and for a word set of an outbound window the tour that wrote it. -/
structure Got where
  bytes  : List Byte
  status : BitVec 16
  tour   : Quad := 0
  deriving DecidableEq, Repr

/-- Physical addresses of `n` bytes at a byte offset of a region (log entry 115). -/
def cabPas (r : Region) (off n : Nat) : List Nat := (List.range (n / 4)).map (fun i => rgnBase r + off / 4 + i)

/-- A read of `n` bytes at a byte offset of a region through the hub port; none when the present tick has no turn for it (04 R81). -/
def cabRead (g j off n : Nat) (held : Bool) (s : State) : Option (List Byte) × State :=
  let (r, s) := hubGet g held (cabPas (rgnOf s g j) off n) s
  (r.map (fun ws => ws.flatMap (leBytes 4)), s)

/-- A write of whole words at a byte offset of a region through the hub port; whether the present tick has a turn for it (04 R81). -/
def cabWrite (g j off : Nat) (bs : List Byte) (held : Bool) (s : State) : Bool × State :=
  hubPut g held ((wordsOf bs).mapIdx (fun i w => (rgnBase (rgnOf s g j) + off / 4 + i, w.toNat))) s

/-- The content of an extent when its read begins (15 R319). -/
def beginRead (s : State) (e : Nat) : VRead :=
  let k := (mapOf s e).slot.toNat
  { extent := e, slot := k, lost := s.vault.medium.lost.contains k,
    data := (smSpan (k * extBytes) extBytes s.vault.medium.data).map (fun p => (p.1 - k * extBytes, p.2)),
    bad := (s.vault.medium.badUnits.filter (fun u => u / 2048 == k)).map (fun u => u % 2048) }

/-- A read finds a codeword uncorrectable (15 R330): the counters advance and the extent takes DAMAGED, while it still names the slot
that the read takes its data from (log entry 52). -/
def vaultBad (e slot unit : Nat) (s : State) : State :=
  if (mapOf s e).state = .written ∧ (mapOf s e).slot.toNat = slot then damageExtent e unit s
  else modVault (modTaps s (fun t => { t with uc := t.uc + 1 })) (fun v => { v with uncorrectable := bump8 v.uncorrectable })

/-- A read of the Vault from address `a` on, inside one extent after another: bytes up to an uncorrectable codeword. -/
def vaultRead : Nat → Nat → Nat → Option VRead → State → Got × Option VRead × State
  | 0, _, _, v, s => ({ bytes := [], status := stOk }, v, s)
  | fuel + 1, a, n, v, s =>
    if n = 0 then ({ bytes := [], status := stOk }, v, s)
    else
      let e := a / extBytes
      let off := a % extBytes
      let r := match v with | some r => if r.extent = e then r else beginRead s e | .none => beginRead s e
      let m := min n (extBytes - off)
      match ((List.range ((off + m - 1) / 4096 + 1 - off / 4096)).map (fun i => off / 4096 + i)).find? (r.bad.contains ·) with
      | some u => ({ bytes := smRead 0 off (u * 4096 - off) r.data, status := stVaultUncorrectable }, some r, vaultBad e r.slot u s)
      | .none =>
        let (bs, s) := if r.lost then freeBytes m s else (smRead 0 off m r.data, s)
        let (rest, v, s) := vaultRead fuel (a + m) (n - m) (some r) s
        ({ bytes := bs ++ rest.bytes, status := rest.status }, v, s)

/-- How a burst is answered on the fabric: by its window's owner, or not at all when it found no port. -/
def ackStatus (sent : Bool) (a : BurstAck) : BitVec 16 :=
  if !sent then stUnreachable else match a with | .ok => stOk | .unreachable => stUnreachable | .stale => stStaleEpoch

/-- Reads the source of a burst of `n` bytes; none when a CABINET source has no turn at its bank ports in the present tick (04 R81).
What a remote window returns is a free value (log entry 53). -/
def burstRead (p : Progress) (n : Nat) (ack : BurstAck) (s : State) : Option (Got × Option VRead × State) :=
  let d := p.desc
  let a := d.srcAddr + p.written
  match d.src with
  | .host => some ({ bytes := hostGet s a n, status := stOk }, p.vread, s)
  | .hbm =>
    let (bs, bad, s) := hubRead s a n
    some ({ bytes := bs, status := if bad.isSome then stRegionPoisoned else stOk }, p.vread, s)
  | .cabinet =>
    (match cabRead (auxGal d.srcAux) (auxRgn d.srcAux) a n p.held s with
     | (some bs, s) => some ({ bytes := bs, status := stOk }, p.vread, s)
     | (.none, _) => .none)
  | .vault => some (vaultRead 2 a n p.vread s)
  | .fabric =>
    let (ok, s) := sendPacket (burstPacket s d a (.read n) d.srcAux) s
    let st := ackStatus ok ack
    if st = stOk then let (bs, s) := freeBytes n s; some ({ bytes := bs, status := stOk }, p.vread, s)
    else some ({ bytes := [], status := st }, p.vread, s)
  | .outwin =>
    let g := auxGal d.srcAux
    let w := (galOf s g).window.headD { tourId := 0, words := [] }
    let bs := ((List.range 256).flatMap (fun i => leBytes 4 (w.words.getD i 0).toNat)).take n
    some ({ bytes := bs, status := stOk, tour := w.tourId }, p.vread, modGal s g (fun x => { x with window := x.window.drop 1 }))

/-- A REDUCE combines its elements in turn (14 R309 to R311): bytes combined, and the status that stopped it. -/
def reduceFrom (op n : Nat) : Nat → Nat → List Byte → Nat → State → Nat × BitVec 16 × State
  | 0, _, _, done, s => (done, stOk, s)
  | fuel + 1, a, bs, done, s =>
    if bs.length < n then (done, stOk, s)
    else
      let (r, s) := applyUpdate a op (leNat (bs.take n)) 0 s
      if r.status = stOk then reduceFrom op n fuel (a + n) (bs.drop n) (done + n) s else (done, r.status, s)

/-- Programs bytes of an extent that a channel writes (15 R317): its slot is picked at the extent's first byte. -/
def vaultProgram (ch a : Nat) (isSealed : Bool) (bs : List Byte) (s : State) : State :=
  let e := a / extBytes
  let s := if a % extBytes = 0 then
      let (k, s) := pickSlot slotCount s
      modVault s (fun v => { v with inFlight := v.inFlight ++ [{ extent := e, slot := k, isSealed := isSealed, channel := ch }] })
    else s
  match (s.vault.inFlight.filter (fun w => w.channel == ch && w.extent == e)).getLast? with
  | some w => modMedium s (fun m => { m with data := smPut 0 (w.slot * extBytes + a % extBytes) bs m.data })
  | .none => s

/-- Writes bytes of a burst at its destination: how many were written, and the status that stopped it; none when a CABINET destination
has no turn at its bank ports in the present tick (04 R81). -/
def burstWrite (ch : Nat) (p : Progress) (tour : Quad) (bs : List Byte) (ack : BurstAck) (s : State) :
    Option (Nat × BitVec 16 × State) :=
  let d := p.desc
  let a := d.dstAddr + p.written
  match d.dst with
  | .host => some (bs.length, stOk, hostPut s a bs)
  | .hbm =>
    if d.reduce then some (reduceFrom d.redOp.toNat (redSize d.redOp.toNat) (bs.length + 1) a bs 0 s)
    else
      let (n, s) := hubWrite s a bs
      some (n, if n = bs.length then stOk else stRegionPoisoned, s)
  | .cabinet =>
    let n := bs.length / 4 * 4
    (match cabWrite (auxGal d.dstAux) (auxRgn d.dstAux) a (bs.take n) p.held s with
     | (true, s) => some (n, stOk, s)
     | (false, _) => .none)
  | .vault => some (bs.length, stOk, vaultProgram ch a (sealedCab s d || sealedExt s d) bs s)
  | .fabric =>
    let slot := auxGroup d.dstAux
    if slot = 0xFF then
      let (ok, s) := sendPacket (burstPacket s d a (.write bs p.serial d.length d.setReady) d.dstAux) s
      let st := ackStatus ok ack
      some (if st = stOk then bs.length else 0, st, s)
    else
      let there := membersReached s slot
      let st := ackStatus there ack
      some (if st = stOk then bs.length else 0, st, if there then sendOpenings slot tour a bs s else s)
  | .outwin => some (0, stOk, s)

/-- The line or codeword that a HOST destination receives as a poisoned write (Table 13-7, 15 R330): its bytes are open. -/
def poisonHost (p : Progress) (done n : Nat) (st : BitVec 16) (s : State) : State :=
  let src := p.desc.srcAddr + p.written + done
  let a := p.desc.dstAddr + p.written + done
  let size := if p.desc.src = .hbm ∧ st = stRegionPoisoned then 64
    else if p.desc.src = .vault ∧ st = stVaultUncorrectable then 4096 else 0
  if p.desc.dst = .host ∧ size ≠ 0 then
    let (bs, s) := freeBytes (min (size - src % size) (n - done)) s
    hostPut s a bs
  else s

/-- What stops a burst at its CABINET endpoints: a region that was released or declared anew meanwhile is judged as it stands now
(04 R82, R90; log entry 135). -/
def burstRefusal (s : State) (p : Progress) : BitVec 16 :=
  let d := p.desc
  let gone := fun (aux : Word) (addr : Nat) => let r := cabRgn s aux; !r.valid || decide (4 * rgnWords r < addr + d.length)
  if d.src = .cabinet ∧ gone d.srcAux d.srcAddr then stAddressRange
  else if d.dst = .cabinet ∧ (gone d.dstAux d.dstAddr ∨ (cabRgn s d.dstAux).feed = 0) then stAddressRange
  else if sealedRefusal s d then stSealedAccess
  else stOk

/-- Moves one burst (R276, R277): request, credit, read, write. None when a CABINET endpoint has no turn at its bank ports in the present
tick: nothing of the burst has happened then (04 R81; log entry 137). -/
def moveBurst (ch : Nat) (p : Progress) (ack : BurstAck) (s : State) : Option State :=
  let d := p.desc
  let n := burstBytes p
  let s := if d.reqLine = 0 then s else takeLine d.reqLine s
  let s := if d.credit then modChan s ch (fun c => { c with credit := c.credit - 1 }) else s
  match burstRead p n ack s with
  | .none => .none
  | some (got, v, s) =>
    match burstWrite ch p got.tour got.bytes ack s with
    | .none => .none
    | some (w, wst, s) =>
      let st := if wst = stOk then got.status else wst
      let s := poisonHost p w n st s
      some (modChan s ch (fun c => { c with cur := some { p with
        held := false, written := p.written + w, vread := v, status := st,
        ended := st != stOk || decide (d.length ≤ p.written + w) } }))

/-- A descriptor's next burst is refused: it ends with the status. -/
def refuseBurst (ch : Nat) (p : Progress) (st : BitVec 16) (s : State) : State :=
  let s := if st = stSealedAccess ∧ sealedCab s p.desc then
      modCabRegs s (auxGal p.desc.srcAux) (fun c => { c with sealedRefusals := bump8 c.sealedRefusals })
    else s
  modChan s ch (fun c => { c with cur := some { p with status := st, ended := true } })

/-- DMA_BURST: a burst moves when request, credit, READY and bank ports allow it; otherwise the tick counts as a wait, or the burst
is held at the ports. -/
def doDmaBurst (ch : Nat) (ack : BurstAck) (s : State) : State :=
  let c := chanOf s ch
  match c.cur with
  | .none => s
  | some p =>
    if !hubRuns s || s.dma.stopped || p.ended || p.aborted || decide (p.desc.length ≤ p.written) then s
    else if burstWaits s c p then modChan s ch (fun x => { x with cur := some (countWait s.time.now p) })
    else if !burstCan s p then s
    else
      match burstSlots s p (burstBytes p) with
      | .none => s
      | some placed =>
        let st := burstRefusal s p
        if st ≠ stOk then refuseBurst ch p st s
        else
          match moveBurst ch p ack placed with
          | some s => s
          | .none => modChan s ch (fun x => { x with cur := some { p with held := true } })

/-- DMA_COMPLETION: the last write has been accepted, or the bursts issued before an abort have completed (R281); a Vault
destination completes when every extent has committed. -/
def doDmaCompletion (ch : Nat) (s : State) : State :=
  match (chanOf s ch).cur with
  | some p =>
    let failed := p.ended && p.status != stOk
    if hubRuns s && !s.dma.stopped && (p.aborted || (p.ended && (failed || p.desc.dst != .vault || openWrites s ch == 0))) then
      endDesc ch p (if p.aborted && !failed then stDmaAborted else p.status) false s
    else s
  | .none => s

/-! ### The engine stop (13 R283 to R285) -/

def ifaceCode (i : BusIface) : BitVec 8 := match i with | .cxl => 1 | .hbm => 2 | .vault => 3 | .fabric => 4

/-- Bytes of the bursts that a descriptor can have in flight: at most 8, and no more than its requests, credits and word sets
allow (R273, R274, R276). -/
def inFlightLength (s : State) (ch : Nat) (p : Progress) : Nat :=
  let d := p.desc
  let n := min 8 (min (if d.reqLine = 0 then 8 else lineCount s d.reqLine)
    (min (if d.credit then (chanOf s ch).credit.toNat else 8)
      (if d.src = .outwin then (galOf s (auxGal d.srcAux)).window.length else 8)))
  let size := if d.src = .outwin then 1024 else 2 ^ d.burstLog
  if n = 0 then 0 else min (d.length - p.written) (burstBytes p + (n - 1) * size)

/-- The destination bytes of bursts in flight are undefined (R285): free values (log entry 54). A descriptor that waited when it was
aborted has none in flight. -/
def inFlightBytes (ch : Nat) (p : Progress) (s : State) : State :=
  if p.ended || burstWaits s (chanOf s ch) { p with aborted := false } || !burstCan s p || burstRefusal s p != stOk then s
  else
    let a := p.desc.dstAddr + p.written
    let (bs, s) := freeBytes (inFlightLength s ch p) s
    match p.desc.dst with
    | .host => hostPut s a bs
    | .hbm => hbmPutBytes a bs (snoopRange a bs.length s)
    | .cabinet => modGal s (auxGal p.desc.dstAux) (fun x => { x with
        cab := smPut 0 (rgnBase (cabRgn s p.desc.dstAux) + a / 4) (wordsOf bs) x.cab })
    | _ => s

/-- The descriptor in progress on a channel ends with BUS_ERROR. -/
def stopChan (ch : Nat) (s : State) : State :=
  match (chanOf s ch).cur with
  | some p => endDesc ch p stBusError true (inFlightBytes ch p s)
  | .none => s

/-- ENGINE_STOP. -/
def doEngineStop (iface : BusIface) (addr : Quad) (s : State) : State :=
  if !hubRuns s then s
  else
    let e := s.dma
    let e := if e.errValid then e else { e with errValid := true, errIface := ifaceCode iface, errAddr := addr }
    let s := { s with dma := { e with busErrors := bump8 e.busErrors, stopped := true } }
    let s := foldRange 64 stopChan s
    if s.host.irq.engineEn then raiseVec s s.host.irq.engineVec else s

/-! ### The hub port (04 R81, R82, R90, R226) -/

/-- A read of one word through the hub port answers the host; whether the present tick has a turn for it. -/
def hubReadWord (g pa : Nat) (held : Bool) (s : State) : Bool × State :=
  match hubGet g held [pa] s with
  | (some ws, s) => (true, returned (ws.flatMap (leBytes 4)) false s)
  | (.none, s) => (false, s)

/-- A read of one word through the hub port, or its refusal (R90); a write, or its refusal (R82). Answers none while it is held,
by the port or by READY (R226). -/
def hubWord (g pa : Nat) (acc : Access Word) (held : Bool) (s : State) : Bool × State :=
  match rgnAt s g pa, acc with
  | some j, .read =>
    if (rgnOf s g j).isSealed then
      (true, returned (leBytes 4 0) false (modCabRegs s g (fun c => { c with sealedRefusals := bump8 c.sealedRefusals })))
    else hubReadWord g pa held s
  | .none, .read => hubReadWord g pa held s
  | some j, .write v =>
    let r := rgnOf s g j
    if r.feed = 0 then (true, returned (leBytes 2 stAddressRange.toNat) false s)
    else if r.ready then (false, s)
    else hubPut g held [(pa, v.toNat)] s
  | .none, .write _ => (true, returned (leBytes 2 stAddressRange.toNat) false s)

/-- A write waits for READY of its region to fall (R226). -/
def readyHolds (s : State) (g pa : Nat) (acc : Access Word) : Bool :=
  match acc, rgnAt s g pa with
  | .write _, some j => (rgnOf s g j).ready
  | _, _ => false

/-- HUB_PORT_ACCESS: an access of one word on the host's behalf from a cycle of the present tick on; held while its port is in
use or READY is 1, and performed later. -/
def doHubPort (g pa cycle : Nat) (acc : Access Word) (s : State) : State :=
  if !hubRuns s || decide (numGal s ≤ g) || !(galOf s g).regs.clockOn then s
  else
    let s := if anyStep s then runTo (min 100 (cycle + 1)) s else s
    let (ok, s) := hubWord g pa acc false s
    if ok then s else { s with held := s.held ++ [.word g pa acc (!readyHolds s g pa acc)] }

/-! ### Meanings -/

def execDmaDoorbell (ch : BitVec 6) (tail : Word) (writes : HostWrites) (s : State) : Out :=
  .next (doDmaDoorbell ch.toNat tail.toNat writes s)
def execDmaChEnable (ch : BitVec 6) (value : Word) (s : State) : Out := .next (doDmaCtrl ch.toNat value.toNat s)
def execDmaAbort (ch : BitVec 6) (value : Word) (s : State) : Out := .next (doDmaCtrl ch.toNat value.toNat s)
def execCreditAdd (ch : BitVec 6) (value : Word) (s : State) : Out := .next (doCreditAdd ch.toNat value.toNat s)
def execEngineResume (value : Word) (s : State) : Out := .next (doEngineResume value.toNat s)
def execDmaCopy (ch : BitVec 6) (s : State) : Out := .next (doDmaCopy ch.toNat s)
def execDmaReduce (ch : BitVec 6) (s : State) : Out := .next (doDmaReduce ch.toNat s)
def execDmaRequest (line : BitVec 8) (count : Nat) (s : State) : Out := .next (doDmaRequest line.toNat count s)
def execDmaBurst (ch : BitVec 6) (ack : BurstAck) (s : State) : Out := .next (doDmaBurst ch.toNat ack s)
def execDmaCompletion (ch : BitVec 6) (s : State) : Out := .next (doDmaCompletion ch.toNat s)
def execEngineStop (iface : BusIface) (addr : Quad) (s : State) : Out := .next (doEngineStop iface addr s)
def execHubPortAccess (gallery : BitVec 5) (pa : Nat) (cycle : Nat) (acc : Access Word) (s : State) : Out :=
  .next (doHubPort gallery.toNat pa cycle acc s)

end Sys2Proof.Machine
end

