-- ==== Sys2Proof/Machine/Monitors.lean ====
section
/-!
DEFINITION. Sys2Proof/Machine/Monitors.lean: capture units, stall counters, module totals and snapshots (21).
-/

set_option Elab.async false

namespace Sys2Proof.Machine

/-! ### Capture units (21 R441 to R444) -/

/-- A source of Table 21-1. -/
def sourceOk (n : Nat) : Bool :=
  n == 0 || (decide (0x10 ≤ n) && decide (n ≤ 0x17)) || n == 0x20 || n == 0x28 || (decide (0x30 ≤ n) && decide (n ≤ 0x37)) ||
    n == 0x40 || (decide (0x50 ≤ n) && decide (n ≤ 0x6C)) || n == 0x70 || n == 0x71

/-- A value saturates at the ends of the signed 32-bit range (R444). -/
def clampSample (v : Int) : Int := max (-(2 ^ 31)) (min (2 ^ 31 - 1) v)

/-- Bin of a sample (R442). -/
def sampleBin (u : Unit16) (v : Int) : Nat := (max 0 (min 63 ((v - u.offset.toInt) / 2 ^ u.binShift.toNat))).toNat

/-- One sample of a unit's source. -/
def takeSample (v : Int) (u : Unit16) : Unit16 :=
  let v := clampSample v
  let w : Word := BitVec.ofInt 32 v
  { u with count := bumpBy64 u.count 1, bins := vmod u.bins (sampleBin u v) 0 (fun c => bumpBy32 c 1),
           min := if v < u.min.toInt then w else u.min, max := if u.max.toInt < v then w else u.max }

/-- A source gives a sample to every unit that it feeds. -/
def captureFrom (source : Nat) (v : Int) (s : State) : State :=
  { s with mon := { s.mon with units := s.mon.units.map (fun u =>
      if u.source.toNat = source ∧ source ≠ 0 then takeSample v u else u) } }

/-- Sources that the module's own tours feed: their samples are taken by STEP_LAUNCH and TOUR_END. -/
def tourSource (n : Nat) : Bool := n == 0x40 || n == 0x70 || n == 0x71

/-- MONITOR_CONFIG (R443): it takes effect at the next tick edge. -/
def doMonitorConfig (unit source shift : Nat) (offset : Word) (s : State) : Answer × State :=
  if decide (16 ≤ unit) || !sourceOk source || decide (32 ≤ shift) then (ansFail stBadParam, s)
  else (ansOk, modUnit s unit (fun u => { u with pending := some (BitVec.ofNat 8 source, BitVec.ofNat 5 shift, offset) }))

/-- A reconfiguration that waited for the tick edge takes effect. -/
def configUnit (u : Unit16) : Unit16 :=
  match u.pending with
  | some (source, shift, offset) =>
    { Unit16.reset with source := source, binShift := shift, offset := offset }
  | .none => u

/-! ### Snapshots (21 R450) -/

/-- MON_UNIT_CFG (Table 21-4). -/
def unitCfg (u : Unit16) : Nat :=
  u.source.toNat + 2 ^ 8 * u.binShift.toNat + 2 ^ 16 * bit01 (u.source != 0) + 2 ^ 32 * u.offset.toNat

/-- One unit of the snapshot image. -/
def unitImage (u : Unit16) : List Byte :=
  leBytes 8 (unitCfg u) ++ leBytes 8 u.count.toNat ++ leBytes 4 u.min.toNat ++ leBytes 4 u.max.toNat ++
    u.bins.toList.flatMap (fun b => leBytes 4 b.toNat) ++ List.replicate 8 0

/-- The snapshot image of Table 21-3, captured in the present tick. -/
def snapshotImage (s : State) : List Byte :=
  leBytes 8 s.time.now ++ leBytes 2 1 ++ List.replicate 54 0 ++ s.mon.units.toList.flatMap unitImage ++
    s.mon.stall.toList.flatMap (fun c => leBytes 8 c.toNat) ++ leBytes 8 s.mon.satTotal.toNat ++
    leBytes 8 s.mon.nanTotal.toNat ++ s.mon.sentTotal.toList.flatMap (fun c => leBytes 8 c.toNat)

/-- Bytes of the image. -/
def snapshotBytes : Nat := 5232

/-- MONITOR_SNAPSHOT (R450; 16 R354). -/
def doMonitorSnapshot (space addr : Nat) (s : State) : Answer × State :=
  if 2 ≤ space then (ansFail stBadParam, s)
  else if space = 1 ∧ hbmBytes < addr + snapshotBytes then (ansFail stAddressRange, s)
  else if (space = 0 ∧ !hostReady s) ∨ (space = 1 ∧ !hbmUsable s addr snapshotBytes) then (ansFail stNotReady, s)
  else (ansLong (.monitorSnapshot (space == 1) addr []), s)

/-- The monitors at a tick edge: reconfigurations take effect, snapshots that wait are captured. -/
def monitorEdge (s : State) : State :=
  let s := { s with mon := { s.mon with units := s.mon.units.map configUnit } }
  let img := snapshotImage s
  modHost s (fun h => { h with longWork := h.longWork.map (fun w => match w.kind with
    | .monitorSnapshot hbm a [] => { w with kind := .monitorSnapshot hbm a img }
    | _ => w) })

/-- The end of a snapshot: its image is written. One that no tick edge has captured yet is not done. -/
def finishSnapshot (hbm : Bool) (addr : Nat) (image : List Byte) (s : State) : Option (Answer × State) :=
  if image.isEmpty then .none else some (ansOk, locPut s hbm addr image)

/-! ### Stall counters and module totals (21 R446, R447) -/

/-- One slip tick charged to a cause. -/
def countStall (cause : Nat) (s : State) : State :=
  { s with mon := { s.mon with stall := vmod s.mon.stall cause 0 (fun c => bumpBy64 c 100) } }

/-- Sum of the saturation counters of a set. -/
def satSum (c : CounterSet) : Nat := sumNat (c.sat.toList.map (·.toNat))

/-- The counts of one gallery of a completed tour go to the module totals. -/
def addTotals (c : CounterSet) (s : State) : State :=
  let m := s.mon
  { s with mon := { m with
      satTotal := bumpBy64 m.satTotal (satSum c), nanTotal := bumpBy64 m.nanTotal c.nan.toNat,
      sentTotal := Vector.ofFn (fun (i : Fin 64) => bumpBy64 (vget m.sentTotal i 0) (vget c.sent i 0).toNat) } }

/-! ### Meanings -/

def execMonitorConfig (h : Hdr) (unit source binShift : BitVec 8) (offset : Word) (s : State) : Out :=
  .next (command h 0x0800 (doMonitorConfig unit.toNat source.toNat binShift.toNat offset) s)

def execMonitorSnapshot (h : Hdr) (space : BitVec 8) (addr : Quad) (s : State) : Out :=
  .next (command h 0x0801 (doMonitorSnapshot space.toNat addr.toNat) s)

/-- CAPTURE_SAMPLE: a sample that the outside gives. -/
def execCaptureSample (source : BitVec 8) (value : Int) (s : State) : Out :=
  .next (if hubRuns s && !tourSource source.toNat then captureFrom source.toNat value s else s)

end Sys2Proof.Machine
end

