-- ==== Sys2Proof/Machine/Restore.lean ====
section
/-!
DEFINITION. Sys2Proof/Machine/Restore.lean: what Restoration computes (07 R138 to R144, Table 07-1). The macro tour is one
template of the Docent that the spec does not list step by step: the model computes its result, with exact integers, when
the tour ends (log entry 55).
-/

set_option Elab.async false

namespace Sys2Proof.Machine

/-- One limb: `n` residues. -/
abbrev Limb := Array Nat

def limbOf (n : Nat) (f : Nat → Nat) : Limb := ((List.range n).map f).toArray
def at0 (a : Limb) (i : Nat) : Nat := a.getD i 0

/-- A residue of an integer. -/
def resid (x : Int) (q : Nat) : Nat := (x % (q : Int)).toNat

/-- The representative in (-q/2, q/2]. -/
def centred (x q : Nat) : Int := if q < 2 * x then (x : Int) - q else x

/-- ⌊a / b⌉, ties rounded up. -/
def roundDiv (a b : Nat) : Nat := (2 * a + b) / (2 * b)

/-! ### Transforms (05 R106, evaluation order) -/

/-- Evaluations at ψ^(2j+1), in evaluation order. -/
def toEval (logN q : Nat) (a : Limb) : Limb :=
  let n := 2 ^ logN
  let w := Config.rootOf q logN
  limbOf n (fun j => (List.range n).foldl (fun v i => (v + at0 a i * powMod w ((2 * j + 1) * i) q) % q) 0)

/-- Coefficients from evaluations. -/
def toCoeff (logN q : Nat) (a : Limb) : Limb :=
  let n := 2 ^ logN
  let w := invMod (Config.rootOf q logN) q
  let s := invMod n q
  limbOf n (fun i => s * (List.range n).foldl (fun v j => (v + at0 a j * powMod w ((2 * j + 1) * i) q) % q) 0 % q)

def addLimb (q : Nat) (a b : Limb) : Limb := limbOf a.size (fun i => (at0 a i + at0 b i) % q)
def mulLimb (q : Nat) (a b : Limb) : Limb := limbOf a.size (fun i => at0 a i * at0 b i % q)

/-! ### Objects in HBM (R5, 06 R122, 07 R141) -/

/-- Word `i` of an object at an HBM address. -/
def objWord (s : State) (a i : Nat) : Nat := hbmNat s (a + 4 * i) 4

/-- Limb number `l` of an object whose limbs have `n` words. -/
def objLimb (s : State) (a n l : Nat) : Limb := limbOf n (fun i => objWord s a (n * l + i))

/-- The refresh descriptor of a key object in HBM or in the Vault. -/
def keyDesc (s : State) (idx : Nat) : List Byte :=
  let x := catEnt s idx
  if x.space = 2 then vaultGet s (x.addr * 2 ^ 23 + 1024) 1024 else hbmGet s (x.addr + 1024) 1024

/-- The Docent can read the object: it lies in HBM, or in a written extent of an open Vault. -/
def objReadable (s : State) (idx : Nat) : Bool :=
  let x := catEnt s idx
  x.space == 0 || (x.space == 2 && s.vault.isOpen && (mapOf s x.addr).state == .written)

/-- A word of an object in HBM, in a cabinet or in the Vault. -/
def entWord (s : State) (x : CatEnt) (i : Nat) : Nat :=
  if x.space = 1 then (cabWord s x.gallery (x.addr + i)).toNat
  else if x.space = 2 then leNat (vaultGet s (x.addr * 2 ^ 23 + 4 * i) 4)
  else objWord s x.addr i

/-- Where word `i` of an object's limbs stands: in its order, or in a 2D region 256 columns wide, whose rows are turned (04 R75,
05 Table 05-6; log entry 55). -/
def layoutWord (layout i : Nat) : Nat := if layout = 0 then i else 256 * (i / 256) + (i / 256 + i % 256) % 256

/-- Coefficients of limb `l` of polynomial `c` of a ciphertext. -/
def ctLimb (s : State) (x : CatEnt) (q c l : Nat) : Limb :=
  let n := 2 ^ x.logN
  let a := limbOf n (fun i => entWord s x (layoutWord x.layout (n * ((x.limbs + x.special) * c + l) + i)))
  if x.form = 1 then toCoeff x.logN q a else a

/-! ### RESCALE and key switch (06 Table 06-6, R125) -/

/-- One exact-mode RESCALE of a polynomial with limbs modulo `qs`, plaintext modulus `t`: the last limb goes. -/
def rescaleOnce (t : Nat) (qs : List Nat) (ls : List Limb) : List Limb :=
  let ql := qs.getLast?.getD 1
  let last := ls.getLast?.getD #[]
  (qs.zip ls).dropLast.map (fun p =>
    let inv := invMod (ql % p.1) p.1
    limbOf last.size (fun i =>
      let d : Int := (t : Int) * centred (at0 last i * invMod (t % ql) ql % ql) ql
      resid ((at0 p.2 i : Int) - d) p.1 * inv % p.1))

/-- RESCALE until `k` limbs are left. -/
def rescaleTo (t k : Nat) : Nat → List Nat → List Limb → List Limb
  | 0, _, ls => ls
  | fuel + 1, qs, ls => if ls.length ≤ k then ls else rescaleTo t k fuel qs.dropLast (rescaleOnce t qs ls)

/-- The key switch of one data limb q0 with special limbs `ps`, from the key whose body starts at `body` (R125). -/
def switchKey (s : State) (logN q0 : Nat) (ps : List Nat) (body : Nat) (d : Limb) (i : Nat) : Limb :=
  let n := 2 ^ logN
  let per := 1 + ps.length
  let acc := fun (l m : Nat) =>
    toCoeff logN m (mulLimb m (toEval logN m (limbOf n (fun x => at0 d x % m))) (objLimb s body n (per * i + l)))
  let P := ps.foldl (· * ·) 1
  let sp := ps.mapIdx (fun j p => (p, acc (j + 1) p))
  let a0 := acc 0 q0
  limbOf n (fun x =>
    let conv := sp.foldl (fun v (p, a) => v + at0 a x * invMod (P / p % p) p % p * (P / p)) 0
    resid ((at0 a0 x : Int) - conv) q0 * invMod (P % q0) q0 % q0)

/-! ### Stage 1 (Table 07-1) -/

/-- An LWE sample after the modulus switch: b and a_0 … a_(n-1), modulo 2 N_b. -/
structure Lwe where
  b : Nat
  a : List Nat
  deriving DecidableEq, Repr

/-- SAMPLE_EXTRACT at index j of (c0, c1), switched to 2 N_b; `n` coefficients are kept. -/
def extractAt (q0 n size j : Nat) (c0 c1 : Limb) : Lwe :=
  let sw := fun (v : Nat) => roundDiv (8192 * v) q0 % 8192
  { b := sw (at0 c0 j),
    a := (List.range n).map (fun i => sw (if i ≤ j then at0 c1 (j - i) else (q0 - at0 c1 (size + j - i)) % q0)) }

/-! ### Stage 2 -/

/-- X^e × a for 0 ≤ e < 2 N_b, in Z_q[x]/(x^4096 + 1). -/
def monoMul (q e : Nat) (a : Limb) : Limb :=
  limbOf 4096 (fun k =>
    let i := (k + 8192 - e % 8192) % 8192
    if i < 4096 then at0 a i else (q - at0 a (i - 4096)) % q)

/-- Digits of g^(-1), most significant first (07, after Table 07-3). A tie rounds up, and the carry out of the top digit is dropped
(log entry 141). -/
def gadget (glog count k q v : Nat) : List Int :=
  let e := k - glog * count
  let w : Int := (2 * centred v q + 2 ^ e) / 2 ^ (e + 1)
  ((List.range count).foldl (fun (r : List Int × Int) _ =>
    let d := (r.2 + 2 ^ (glog - 1)) % 2 ^ glog - 2 ^ (glog - 1)
    (d :: r.1, (r.2 - d) / 2 ^ glog)) ([], w)).1

/-- EXTERNAL_PRODUCT of (d0, d1) with BRK_i, whose material starts at `body` (R141): polynomial `p` of the result. -/
def extProduct (s : State) (d : List Byte) (body i : Nat) (ds : List Limb) (p : Nat) : Limb :=
  let q := rdQb d
  let G := rdGcount d
  let rows := (List.range 2).flatMap (fun rho => (List.range G).map (fun beta => (rho, beta)))
  let sum := rows.foldl (fun v (rho, beta) =>
    let dig := limbOf 4096 (fun x =>
      resid ((gadget (rdGlog d) G (rdKb d) q (at0 (ds.getD rho #[]) x)).getD beta 0) q)
    addLimb q v (mulLimb q (toEval 12 q dig) (objLimb s body 4096 (4 * G * i + 2 * (G * rho + beta) + p))))
    (limbOf 4096 (fun _ => 0))
  toCoeff 12 q sum

/-- The test polynomial (R143). -/
def testPoly (q inBits outBits : Nat) (lut : List Nat) : Limb :=
  let dl := roundDiv q (2 ^ outBits)
  limbOf 4096 (fun u => dl * (lut.getD (u / (4096 / 2 ^ inBits)) 0 % 2 ^ outBits) % q)

/-- Blind rotation of one sample, and SAMPLE_EXTRACT of the accumulator at index 0: b' and a'_0 … a'_(N_b-1). -/
def blindRotate (s : State) (d : List Byte) (body inBits outBits : Nat) (lut : List Nat) (x : Lwe) : Nat × Limb :=
  let q := rdQb d
  let w := 4096 / 2 ^ inBits
  let start := [monoMul q (16384 - (x.b + w / 2)) (testPoly q inBits outBits lut), limbOf 4096 (fun _ => 0)]
  let acc := ((List.range x.a.length).zip x.a).foldl (fun (acc : List Limb) (i, a) =>
    let ds := acc.map (fun c => let m := monoMul q (8192 - a) c; limbOf 4096 (fun k => (at0 m k + q - at0 c k) % q))
    [addLimb q (acc.getD 0 #[]) (extProduct s d body i ds 0), addLimb q (acc.getD 1 #[]) (extProduct s d body i ds 1)]) start
  let c1 := acc.getD 1 #[]
  (at0 (acc.getD 0 #[]) 0, limbOf 4096 (fun k => if k = 0 then at0 c1 0 else (q - at0 c1 (4096 - k)) % q))

/-! ### Stage 3 -/

/-- The result at ℓ_f limbs, before the last switch: limb `l` of polynomial `p`, in coefficient form. -/
def repackLimb (s : State) (logN lf qb Qf step body q l p : Nat) (rs : List (Nat × Limb)) : Limb :=
  let n := 2 ^ logN
  let spread := fun (f : Nat × Limb → Nat) =>
    let vs := (rs.map f).toArray
    limbOf n (fun i => if i % step = 0 then resid (centred (vs.getD (i / step) 0) qb) q else 0)
  let c := roundDiv Qf qb
  let own := if p = 0 then let b := spread (·.1); limbOf n (fun i => c * at0 b i % q) else limbOf n (fun _ => 0)
  let sum := (List.range 4096).foldl (fun v k =>
    addLimb q v (mulLimb q (toEval logN q (spread (fun r => at0 r.2 k))) (objLimb s body n (2 * lf * k + lf * p + l))))
    (limbOf n (fun _ => 0))
  addLimb q own (toCoeff logN q sum)

/-! ### The whole macro -/

/-- The words of the result: component by component, limb by limb, in evaluation form (R139, R140). Of an input with three components
the first two enter (log entry 141). -/
def restoreWords (s : State) (j : RestoreJob) (pb : List Byte) : List Nat :=
  let x := catEnt s j.input
  let d := keyDesc s j.keyR
  let kx := catEnt s j.keyX
  let kp := catEnt s j.keyP
  let n := 2 ^ x.logN
  let qs := (List.range x.limbs).map (pbQ pb)
  let down := fun c => (rescaleTo x.ptMod 1 x.limbs qs ((List.range x.limbs).map (fun l => ctLimb s x (pbQ pb l) c l))).getD 0 #[]
  let q0 := pbQ pb 0
  let ps := (List.range kx.special).map (fun i => pbQ pb (pbD pb + i))
  let c1 := down 1
  let u0 := addLimb q0 (down 0) (switchKey s x.logN q0 ps (kx.addr + 2048) c1 0)
  let u1 := switchKey s x.logN q0 ps (kx.addr + 2048) c1 1
  let slots := 2 ^ j.slotsLog
  let rs := (List.range slots).map (fun k =>
    blindRotate s d ((catEnt s j.keyR).addr + 2048) j.inBits j.outBits j.lut
      (extractAt q0 (rdLweDim d) n (k * (n / slots)) u0 u1))
  let fs := (List.range kp.limbs).map (pbQ pb)
  let Qf := fs.foldl (· * ·) 1
  (List.range 2).flatMap (fun p =>
    let full := fs.mapIdx (fun l q => repackLimb s x.logN kp.limbs (rdQb d) Qf (n / slots) (kp.addr + 2048) q l p rs)
    let out := rescaleTo (2 ^ j.outBits) j.outLimbs kp.limbs fs full
    ((fs.zip out).map (fun r => (toEval x.logN r.1 r.2).toList)).flatten)

/-- Whole lines written at device address `a` lose their errors (14 R306). -/
def cleanLines (a n : Nat) (s : State) : State :=
  let whole := fun (l : Nat) => decide (a ≤ l * 64) && decide (l * 64 + 64 ≤ a + n)
  { s with hbm := { s.hbm with weak := s.hbm.weak.filter (fun l => !whole l), dead := s.hbm.dead.filter (fun l => !whole l) } }

/-- Bytes of a result over an object's old bytes: two polynomials, the special limbs of each left as they were. -/
def overlay (logN limbs special : Nat) (ws : List Nat) (old : List Byte) : List Byte :=
  let n := 2 ^ logN
  let part := fun (p : Nat) => ((ws.drop (p * limbs * n)).take (limbs * n)).flatMap (leBytes 4)
  let gap := 4 * n * (limbs + special)
  part 0 ++ (old.take gap).drop (4 * n * limbs) ++ part 1 ++ old.drop (gap + 4 * n * limbs)

/-- A result in the Vault: the object's extents are written again, each committed (15 R317); nothing when the Vault cannot take
them (log entry 55). -/
def storeVault (out : CatEnt) (logN limbs special : Nat) (ws : List Nat) (s : State) : State :=
  let k := ceilDiv (4 * 2 ^ logN * (2 * limbs + special)) extBytes
  let old := vaultGet s (out.addr * extBytes) (k * extBytes)
  (storeExtents k out.addr (mapOf s out.addr).isSealed (overlay logN limbs special ws old) s).getD s

/-- Bytes of each polynomial of the result and of its stride in the output's storage. -/
def storeResult (out : CatEnt) (logN limbs special : Nat) (ws : List Nat) (s : State) : State :=
  let n := 2 ^ logN
  if out.space = 2 then storeVault out logN limbs special ws s
  else foldRange 2 (fun p x =>
    let part := (ws.drop (p * limbs * n)).take (limbs * n)
    let at_ := n * (limbs + special) * p
    if out.space = 1 then
      modGal x out.gallery (fun g => { g with cab := smPut 0 (out.addr + at_) (part.map (BitVec.ofNat 32)) g.cab })
    else cleanLines (out.addr + 4 * at_) (4 * limbs * n) (hbmPutBytes (out.addr + 4 * at_) (part.flatMap (leBytes 4)) x)) s

/-- The macro's result lands in the output's storage, limb-major. An output that names no storage takes no words (log entry 55);
without the block of the input's tag the moduli are not known, and the words are free values. -/
def restoreStore (j : RestoreJob) (s : State) : State :=
  let x := catEnt s j.input
  let out := catEnt s j.output
  if out.kind = kindFree then s
  else
    match blockOf s x.tag with
    | some pb => storeResult out x.logN j.outLimbs x.special (restoreWords s j pb) s
    | .none =>
      let k := 2 * j.outLimbs * 2 ^ x.logN
      let (v, s) := freeBits (32 * k) s
      storeResult out x.logN j.outLimbs x.special ((List.range k).map (fun i => fieldAt v.toNat (32 * i) 32)) s

/-- Ticks of the three stages of a Restoration: T1, the batches, T3 (R152, Table 07-6). -/
def restoreStages (s : State) (input keyR keyX keyP slotsLog : Nat) : Nat × Nat × Nat :=
  let d := keyDesc s keyR
  let x := catEnt s keyX
  let n := 2 ^ (catEnt s input).logN
  let period := [65, 90, 116, 142].getD (rdGcount d - 1) 142
  (ceilDiv (2500 * n) 65536 * ceilDiv (x.dnum * (1 + x.special)) 2,
   ceilDiv (2 ^ slotsLog) (16 * numGal s) * rdLweDim d * period, ceilDiv (35000 * (catEnt s keyP).limbs * n) 786432)

/-- Stacks on which an object lies. -/
def objStacks (s : State) (i : Nat) : List Nat := let e := catEnt s i; if e.space = 0 then rangeStacks e.addr e.bytes else []

/-! ### The macro's streams (06 R126, R134, R137) -/

/-- What the stream head of a key is compared with: the key's own Catalogue entry (packed as a KEY block). -/
def keyExpect (x : CatEnt) : Nat :=
  x.keyKind * 2 ^ 8 + x.autoA * 2 ^ 16 + x.levelMin * 2 ^ 34 + x.logN * 2 ^ 40 + x.dnum * 2 ^ 45 + x.limbs * 2 ^ 49 +
    x.special * 2 ^ 56

/-- The key that stage `k` streams: 0x11, 0x10, 0x12 (Table 07-1). -/
def stageKey (j : RestoreJob) (k : Nat) : Nat := [j.keyX, j.keyR, j.keyP].getD k 0

/-- Bytes of the key's material that its stage streams from +2,048 on: of a key 0x11 its first component alone (R126 at one data
limb). -/
def streamedBytes (x : CatEnt) : Nat := if x.keyKind = 0x11 then 2 * (1 + x.special) * 2 ^ x.logN * 4 else x.bytes - 2048

/-- How a stage's streams fail. -/
inductive StreamFail where
  | input
  | poisoned (key : Nat)
  | mismatch (key cause : Nat)
  deriving DecidableEq, Repr

/-- The ranges of device memory that stage `k` streams, in order: the input's words, the key's header and descriptor, its material. -/
def stageRanges (s : State) (j : RestoreJob) (k : Nat) : List (Nat × Nat) :=
  let x := catEnt s (stageKey j k)
  let inp := catEnt s j.input
  (if k = 0 ∧ inp.space = 0 then [(inp.addr, inp.bytes)] else []) ++ [(x.addr, 1024), (x.addr + 2048, streamedBytes x)]

/-- The stage's streams as reads: their ECC events count, up to the failing one (14 R304). -/
def stageEcc (s : State) (j : RestoreJob) (k : Nat) : State :=
  let rs := stageRanges s j k
  let first := rs.findIdx (fun r => decide (0 < r.2) && !(listedLines s.hbm.dead r.1 r.2).isEmpty)
  let cause := headerCause (keyExpect (catEnt s (stageKey j k))) (catEnt s j.input).tag (hbmGet s (catEnt s (stageKey j k)).addr 64)
  let n := if cause ≠ 0 then min (first + 1) (rs.length - 1) else first + 1
  (rs.take n).foldl (fun x r => eccLines 1 (inLines r.1 r.2) x) s

/-- The first failure of the streams of stage `k`: the input's words, the key's header word set, its comparison, its material. -/
def stageFault (s : State) (j : RestoreJob) (k : Nat) : Option StreamFail :=
  let dead := fun (a n : Nat) => decide (0 < n) && !(listedLines s.hbm.dead a n).isEmpty
  let i := stageKey j k
  let x := catEnt s i
  let inp := catEnt s j.input
  let cause := headerCause (keyExpect x) inp.tag (hbmGet s x.addr 64)
  if k = 0 ∧ inp.space = 0 ∧ dead inp.addr inp.bytes then some .input
  else if dead x.addr 1024 then some (.poisoned i)
  else if cause ≠ 0 then some (.mismatch i cause)
  else if dead (x.addr + 2048) (streamedBytes x) then some (.poisoned i)
  else .none

end Sys2Proof.Machine
end

