-- ==== Sys2Proof/Machine/Sequencer.lean ====
section
/-!
DEFINITION. Sys2Proof/Machine/Sequencer.lean: the running of a tour: its start and the exchange of banks (10 R214, R215), the
samples of outside-fed regions and the slips (02 R41, R42, 13 R289), launches and ends of steps, early ends, the end of the
tour with its Catalogue writes and completion record (06 R121, 16 R355, R356), losses of islands and bridge flits (02 R24,
03 R67).
-/

set_option Elab.async false

namespace Sys2Proof.Machine

/-! ### Tours and their images -/

def inactiveBank (x : Gallery) : Bank := if x.active1 then x.bank0 else x.bank1
def modActive (f : Bank → Bank) (x : Gallery) : Gallery := if x.active1 then { x with bank1 := f x.bank1 } else { x with bank0 := f x.bank0 }
def modInactive (f : Bank → Bank) (x : Gallery) : Gallery := if x.active1 then { x with bank0 := f x.bank0 } else { x with bank1 := f x.bank1 }

/-- Bank that the tour holds in gallery `g`: the active one until a later tour has exchanged it away. -/
def holdsActive (t : Tour) (g : Nat) : Bool :=
  t.state == .running && !t.away.getLsbD g

/-- The image that a tour's gallery runs, or will run: in the active bank once the tour has started; that of its package once a later
tour has exchanged the bank away. -/
def galImage (s : State) (t : Tour) (g : Nat) : Rd :=
  if holdsActive t g then fetchedImage s g
  else if t.state == .running then tourImage t g
  else bytesRd (storeArray (inactiveBank (galOf s g)).store) 0

/-- Steps of a gallery. A Restoration's steps are the Docent's own template (log entry 55). -/
def stepTotal (t : Tour) (g : Nat) : Nat := if t.restore.isSome then 0 else imgSteps (tourImage t g)

/-- The next step of gallery `g`, when one is left. -/
def nextStep (s : State) (t : Tour) (g : Nat) : Option (Nat × StepV) :=
  let i := vget t.next g 0
  if i < stepTotal t g then some (i, imgStep (galImage s t g) i) else .none

/-- Module time at which a step ends: one more than the tick of its last cycle. -/
def runEnds (r : RunStep) : Nat := r.launched + ceilDiv r.duration 100

/-- Outlet blocks of a step. -/
def outBlocks (c : Ctx) : List Nat :=
  if c.native then c.st.out.toList else (List.range (cxK c)).filterMap (fun k => cxBlk c k slO)

/-- Intake blocks of a step. -/
def inBlocks (c : Ctx) : List Nat :=
  if c.native then c.st.intake.toList else (List.range (cxK c)).flatMap (fun k => (cxBlk c k slA).toList ++ (cxBlk c k slB).toList)

/-- DEST-4 word sets of a step (13 R289, R290). -/
def windowSets (c : Ctx) : Nat :=
  ((List.range (cxK c)).filter (fun k => match cxBlk c k slO with
    | some b => outDest b == 4 && !cxVoid c k | .none => false)).length

/-- Regions that a step writes, as (gallery, region): its WR_MASK and its DEST 1 (10 R471). -/
def stepWrites (c : Ctx) : List (Nat × Nat) :=
  ((List.range 64).filter (fun j => bitAt c.st.wrMask j)).map (fun j => (c.g, j)) ++
    ((outBlocks c).filter (fun b => outDest b == 1)).map (fun b => (outDgal b, outDrgn b))

/-- Regions that a step reads: by Intake and in its RD_MASK. -/
def stepReads (c : Ctx) : List (Nat × Nat) :=
  (cabReads c ++ ((List.range 64).filter (fun j => bitAt c.st.rdMask j)).map (fun j => (c.g, j))).eraseDups

/-- FEED of a region as the image of its owner gives it (10 R471). -/
def entryFeed (s : State) (t : Tour) (o r : Nat) : Nat :=
  match (imgRegions (galImage s t o)).find? (fun e => e.region == r) with | some e => e.feed | .none => 0

/-! ### Samples (02 R41, 13 R289) -/

/-- Cause that a feed class is charged to: 0 HOST, 1 VAULT, 2 FABRIC, 3 DMA_HBM. -/
def feedCause (feed : Nat) : Nat := feed - 1

/-- Cause of a window that lacks space: the destination of the channel that drains it (R289). -/
def windowCause (s : State) (g : Nat) : Nat :=
  match drainerOf s g with
  | some p => (match p.desc.dst with | .host => 0 | .vault => 1 | .fabric => 2 | _ => 3)
  | .none => 3

/-- What must be ready for a step: owner, region (64: the window), cause of its slip, and whether it is. -/
structure Need where
  gallery : Nat
  step    : Nat
  owner   : Nat
  region  : Nat
  cause   : Nat
  isReady : Bool
  deriving DecidableEq, Repr

/-- The outside-fed places of step `i` of gallery `g`. -/
def stepNeeds (s : State) (t : Tour) (g i : Nat) (st : StepV) : List Need :=
  let c := mkCtx s g (galImage s t g) st
  let n := windowSets c
  let x := galOf s g
  ((stepReads c).filterMap (fun p =>
    let feed := entryFeed s t p.1 p.2
    if feed = 0 then .none
    else some { gallery := g, step := i, owner := p.1, region := p.2, cause := feedCause feed,
                isReady := (rgnOf s p.1 p.2).ready })) ++
    (if (outBlocks c).any (fun b => outDest b == 4) then
      [{ gallery := g, step := i, owner := g, region := 64, cause := windowCause s g,
         isReady := decide (x.window.length + x.winDue + n ≤ 128) }]
     else [])

/-- Steps of a tour due at a tick at most two ticks away, with their galleries: launch ticks rise from step to step (R218), so
such a step is among the next three of its gallery. -/
def dueSteps (s : State) (t : Tour) (tick : Nat) : List (Nat × Nat × StepV) :=
  (maskList t.mask).flatMap (fun g =>
    (List.range 3).filterMap (fun k =>
      let i := vget t.next g 0 + k
      let st := imgStep (galImage s t g) i
      if i < stepTotal t g ∧ tourBase t + st.launch = tick then some (g, i, st) else .none))

def sampleIs (n : Need) (r : SampleRow) : Bool :=
  r.gallery == n.gallery && r.step == n.step && r.owner == n.owner && r.region == n.region

/-- Notes one sample; the slack of 21 R445 is fixed when the region is first found ready. -/
def noteSample (s : State) (n : Need) (rows : List SampleRow) : List SampleRow :=
  let now := s.time.now
  let old := rows.find? (sampleIs n)
  let first := (old.map (·.first)).getD now
  let slack : Option Int :=
    match old.bind (·.slack) with
    | some v => some v
    | .none =>
      if !n.isReady then .none
      else if first = now then some ((now : Int) - (rgnOf s n.owner n.region).readyTick)
      else some (-((now : Int) - first))
  let row : SampleRow :=
    { gallery := n.gallery, step := n.step, owner := n.owner, region := n.region, first := first,
      last := if n.isReady then some now else .none, slack := slack }
  row :: rows.filter (fun r => !sampleIs n r)

/-- The need that a slip is charged to: the lowest owner gallery, then the lowest region (R41). -/
def chargedNeed : List Need → Option Need
  | [] => .none
  | n :: ns =>
    match chargedNeed ns with
    | .none => some n
    | some m => if n.owner < m.owner ∨ (n.owner = m.owner ∧ n.region ≤ m.region) then some n else some m

/-- READINESS_SAMPLE: the steps due two ticks from now; one place that is not ready slips the tour by one tick. -/
def doReadinessSample (id : Quad) (s : State) : State :=
  match tourOf s id with
  | .none => s
  | some t =>
    if !hubRuns s || !tourAccepted t || !tourAlive s t then s
    else
      let needs := (dueSteps s t (s.time.now + 2)).flatMap (fun d => stepNeeds s t d.1 d.2.1 d.2.2)
      let s := modTour s id (fun x => { x with samples := needs.foldl (fun rows n => noteSample s n rows) x.samples })
      match chargedNeed (needs.filter (fun n => !n.isReady)) with
      | .none => s
      | some n =>
        countStall n.cause (modTour s id (fun x => { x with
          slips := vmod x.slips n.cause 0 (· + 1), slipLog := (s.time.now + 2 - tourBase x, slipOf x + 1) :: x.slipLog }))

/-! ### Launch and end of a step (02 R29, 10 R226) -/

/-- Every outside-fed place of the step was found ready when it was last sampled, two ticks ago or, where the tour slipped
since, before that (R41: a slip moves every remaining step). -/
def samplesReady (s : State) (t : Tour) (g i : Nat) (st : StepV) : Bool :=
  (stepNeeds s t g i st).all (fun n =>
    t.samples.any (fun r => sampleIs n r && (match r.last with | some k => decide (k + 2 ≤ s.time.now) | .none => false)))

/-- The step may launch now on gallery `g`. -/
def mayLaunch (s : State) (t : Tour) (g : Nat) : Bool :=
  t.state == .running && (galOf s g).regs.clockOn && (galOf s g).run.isNone &&
    tourAlive s t &&
    (match nextStep s t g with
     | some (i, st) => tourBase t + st.launch == s.time.now && samplesReady s t g i st
     | .none => false)

/-- A region that Intake names is poisoned (04 R95). -/
def readsPoisoned (s : State) (c : Ctx) : Bool := (cabReads c).any (fun x => (rgnOf s x.1 x.2).poisoned)

/-- A step whose Intake names a poisoned region issues no word set; its tour ends at step cycle 0 (R95). -/
def poisonedLaunch (t : Tour) (g : Nat) (r : RunStep) (s : State) : State :=
  takeFault (stepExe s t g r) { cycle := 0, station := 1, cause := 0, status := stRegionPoisoned }
    (modCabRegs s g (fun c => { c with poisonFaults := bump8 c.poisonFaults }))

/-- STEP_LAUNCH. -/
def doStepLaunch (g : Nat) (s : State) : State :=
  match runningOn s g with
  | .none => s
  | some t =>
    match nextStep s t g with
    | .none => s
    | some (i, st) =>
      if !mayLaunch s t g then s
      else
        let now := s.time.now
        let rd := galImage s t g
        let c := mkCtx s g rd st
        let mine := fun (r : SampleRow) => r.gallery == g && r.step == i
        let slacks := (t.samples.filter (fun r => mine r && decide (r.region < 64))).filterMap (·.slack)
        let s := slacks.foldl (fun x v => captureFrom 0x40 v x) s
        let s := modRegs s g (fun r => { r with inStep := true, step := BitVec.ofNat 16 i })
        let r : RunStep :=
          { tourId := t.tourId, index := i, launched := now, duration := st.dur, base := tourBase t, stopped := .none,
            engine := st.engine.map (engTicks now), secret := imageSealed s g rd, sign := s.fab.lockstep.enabled,
            pipe := Pipe.empty }
        let s := modGal s g (fun x => { x with run := some r, winDue := x.winDue + windowSets c })
        let s := modTour s t.tourId (fun x => { x with
          next := vset x.next g (i + 1), samples := x.samples.filter (fun r => !mine r),
          endTick := if x.status.isNone then max x.endTick (now + ceilDiv st.dur 100) else x.endTick })
        if readsPoisoned s c then poisonedLaunch t g r s else catchUp g s

/-- Blocks of a step with one of the shapes. -/
def usesShape (c : Ctx) (p : Nat → Bool) : Bool :=
  (inBlocks c).any (fun b => (inASrc b == srcCab && p (inAShape b)) || (inBSrc b == srcCab && p (inBShape b))) ||
    (outBlocks c).any (fun b => storesCab b && p (outShape b))

/-- A step completed without fault: REL_MASK, whole-region stores, step counters, secrets (10 R226, 04 R96, 12 R259). -/
def completeStep (g i : Nat) (s : State) : State :=
  let rd := fetchedImage s g
  let st := imgStep rd i
  let c := mkCtx s g rd st
  let s := foldRange 64 (fun j x => if bitAt st.relMask j then modRgn x g j (fun r => { r with ready := false }) else x) s
  let s := (outBlocks c).foldl (fun x b =>
    if storesCab b && outWhole b then modRgn x (outDgal b) (outDrgn b) unpoisonRgn else x) s
  let s := modRegs s g (fun r => { r with
    listSteps := if usesShape c (fun sh => sh == shGather || sh == shScatter) then bump8 r.listSteps else r.listSteps,
    tileSteps := if usesShape c (fun sh => sh == shTile) then bump8 r.tileSteps else r.tileSteps })
  if i + 1 = imgSteps rd ∧ imageSealed s g rd then modWork s g (fun _ => Work.zero) else s

/-- Leaves the step of gallery `g`. -/
def leaveStep (g : Nat) (s : State) : State :=
  modGal (modInv (modRegs s g (fun r => { r with inStep := false })) g (fun i => { i with noted := [] })) g
    (fun x => { x with run := .none, winDue := 0, late := false })

/-- The step of gallery `g` has run to its end by module time `by_`. -/
def stepDone (s : State) (g by_ : Nat) : Bool :=
  match (galOf s g).run with
  | some r =>
    r.stopped.isNone && decide (runEnds r ≤ by_) &&
      (match tourOf s r.tourId with
       | some t => t.status.isNone || decide (runEnds r ≤ t.stopAt)
       | .none => true)
  | .none => false

/-- The end of a step that has run to its end. -/
def settleStep (g : Nat) (s : State) : State :=
  match (galOf s g).run with
  | some r => if stepDone s g s.time.now then leaveStep g (completeStep g r.index s) else s
  | .none => s

/-! ### Early ends (03 R61, 04 R94, 12 R259) -/

/-- Poisons declared regions with a status. -/
def poisonRgns (st : BitVec 16) (ps : List (Nat × Nat)) (s : State) : State :=
  ps.foldl (fun x p => if (rgnOf x p.1 p.2).valid then modRgn x p.1 p.2 (poisonRgn st) else x) s

/-- The steps of gallery `g` from index `i` on, by what they write. -/
def writesFrom (s : State) (t : Tour) (g i : Nat) : List (Nat × Nat) :=
  let rd := galImage s t g
  (List.range (stepTotal t g - i)).flatMap (fun k => stepWrites (mkCtx s g rd (imgStep rd (i + k))))

/-- The tour stops on gallery `g`: the regions of the stopped step are poisoned (04 R94; every step not completed when the tour
ends under R42 or R215), but those of a gallery that stopped at a stream head with KEY_MISMATCH (06 R136); secrets are cleared. What an
end with DEADLINE_MISSED poisons is noted (10 R227). -/
def haltGallery (t : Tour) (st : BitVec 16) (g : Nat) (s : State) : State :=
  let s := settleStep g s
  let x := galOf s g
  let mine := match x.run with | some r => r.tourId == t.tourId | .none => false
  let spare := match x.run with | some r => mine && r.stopped == some stKeyMismatch | .none => false
  let done := vget t.next g 0 - bit01 mine
  let s :=
    if st = stDeadlineMissed then
      let ws := writesFrom s t g (done + bit01 spare)
      modTour (poisonRgns st ws s) t.tourId (fun x => { x with missed := ws ++ x.missed })
    else if spare then s
    else if mine then poisonRgns st (stepWrites (mkCtx s g (galImage s t g) (imgStep (galImage s t g) done))) s
    else s
  let s := if mine then leaveStep g s else s
  if t.state == .running && imageSealed s g (galImage s t g) then modWork s g (fun _ => Work.zero) else s

/-- The galleries of a tour that ended early stop, once. -/
def haltTour (id : Quad) (s : State) : State :=
  match tourOf s id with
  | .none => s
  | some t =>
    match t.status with
    | .none => s
    | some st =>
      if t.halted then s
      else
        let s := if t.state = .running ∨ st = stDeadlineMissed then (maskList t.mask).foldl (fun x g => haltGallery t st g x) s
          else s
        modTour s id (fun x => { x with halted := true })

/-- The tick edge at which an early-ended tour stops has come: its galleries stop (02 R42, 03 R61, 04 R94). -/
def haltAtEdge (id : Quad) (s : State) : State :=
  match tourOf s id with
  | .none => s
  | some t => if tourAccepted t && t.status.isSome && decide (t.stopAt ≤ s.time.now) then haltTour id s else s

/-- A FAULT field with no location (16 R356). -/
def causeOnly (c : Nat) : FaultAt := { step := 0, gallery := 0, station := 0, cause := c, stepCycle := 0 }

/-- FAULT of a tour at gallery `g` in module cycle `X`: the step running there, or the next one due (R356). The steps of a running
Restoration are the Docent's template, and STEP and STEP_CYCLE are free values (log entry 55). -/
def locateAt (t : Tour) (g station cause X : Nat) (s : State) : FaultAt × State :=
  if t.restore.isSome && t.state == .running then
    let (v, s) := freeBits 38 s
    ({ step := fieldAt v.toNat 0 16, gallery := g, station := station, cause := cause, stepCycle := fieldAt v.toNat 16 22 }, s)
  else
    let p := placeAt s t g X
    ({ step := p.1, gallery := g, station := station, cause := cause, stepCycle := p.2 }, s)

/-- Ends a tour at gallery `g` in one of the next `n` module cycles, which one is a free value (log entry 8); its galleries stop at the
next tick edge. -/
def endWithin (n : Nat) (t : Tour) (st : BitVec 16) (g station cause : Nat) (s : State) : State :=
  let (v, s) := freeBits 16 s
  let X := 100 * s.time.now + s.time.cycle + v.toNat % max 1 n
  let (loc, s) := locateAt t g station cause X s
  endEarly t.tourId st loc (X / 100) (X / 100 + 1) s

/-- Ends a tour inside the present tick at gallery `g`. -/
def endInTick (t : Tour) (st : BitVec 16) (g station cause : Nat) (s : State) : State :=
  endWithin (100 - s.time.cycle) t st g station cause s

/-- The lowest gallery of a tour. -/
def firstGal (t : Tour) : Nat := (maskList t.mask).headD 0

/-! ### Islands that a tour uses (02 R24) -/

/-- A stream schedule of the tour names the stack, or an object or the scratch of its Restoration lies there. -/
def usesStack (s : State) (t : Tour) (k : Nat) : Bool :=
  match t.restore with
  | some j => (rangeStacks s.rst.scratch scratchBytes).contains k ||
      [j.input, j.output, j.keyR, j.keyX, j.keyP].any (fun i => (objStacks s i).contains k)
  | .none => (maskList t.mask).any (fun g => (imgScheds (tourImage t g)).any (fun sc => sc.stack == k))

/-- The tour crosses the die bridge: a cabinet read, a stream or a relay span from one die to the other. -/
def usesBridge (s : State) (t : Tour) : Bool :=
  t.restore.isSome ||
    t.spans.any (fun sp => dieOf s sp.head != dieOf s sp.last) ||
    (maskList t.mask).any (fun g =>
      (imgScheds (tourImage t g)).any (fun sc => stackDie sc.stack != dieOf s g) ||
        (imageCtxs s g (tourImage t g)).any (fun c => (cabReads c).any (fun p => dieOf s p.1 != dieOf s g)))

/-- The tour uses island `i` of HUB_ISLAND_LOCK. -/
def usesIsland (s : State) (t : Tour) (i : Nat) : Bool :=
  if i < 32 then t.mask.getLsbD i
  else if i < 40 then usesStack s t (i - 32)
  else if i < 42 then usesBridge s t
  else i == 42

/-- An island that the tour uses and that has no lock, with the gallery that R356 names. -/
def lostIsland (s : State) (t : Tour) : Option Nat :=
  ((List.range 43).find? (fun i => usesIsland s t i && !s.time.islandLock.getLsbD i)).map
    (fun i => if i < 32 then i else firstGal t)

/-! ### The start of a tour (10 R214, R215) -/

/-- A Restoration that the Registrar inserted: the Docent keeps the submitted tour's image for the inactive banks (07 R155;
log entry 60). -/
def insertedRestore (t : Tour) : Bool := match t.restore with | some j => j.autoIns.isSome | .none => false

/-- The internal regions that are not ready (11 Table 11-5 cause 4). -/
def unreadyMask (x : Gallery) : BitVec 64 :=
  (List.range 64).foldl (fun m j =>
    let r := vget x.regions j Region.none
    if r.valid && r.feed == 0 && !r.ready then m ||| ((1 : BitVec 64) <<< j) else m) 0

/-- The tours that run from the active bank of gallery `g` leave it to tour `t`, with its counters as they stand. -/
def leaveBank (t : Tour) (g : Nat) (s : State) : State :=
  let c := (activeBank (galOf s g)).counters
  { s with tours := s.tours.map (fun o =>
      if o.tourId != t.tourId && o.mask.getLsbD g && holdsActive o g then
        { o with away := o.away ||| ((1 : BitVec 32) <<< g), kept := (g, c) :: o.kept }
      else o) }

/-- Gallery `g` exchanges its banks for tour `t`; its working state reads as zero from now on (08 R164, 09 R191). A Restoration starts
with its counters at 0. -/
def exchangeGal (t : Tour) (g : Nat) (s : State) : State :=
  let sp := spanOf t g
  let s := leaveBank t g s
  let s := modGal s g (fun x =>
    let free := fun (b : Bank) => { b with status := BankState.free }
    let active := fun (b : Bank) => { b with
      status := BankState.active, counters := if t.restore.isSome then CounterSet.zero else b.counters }
    let x := if insertedRestore t then modInactive active { x with bank0 := x.bank1, bank1 := x.bank0 }
      else modActive free (modInactive active x)
    { x with active1 := !x.active1, work := Work.zero, run := .none, relay := [], inbox := [], winDue := 0, laneLast := .none,
             late := false, inv := { x.inv with seen := [], noted := [] }, unready := unreadyMask x })
  modRegs s g (fun r => { r with
    inStep := false, stateClear := true, swaps := bump8 r.swaps,
    relayHead := (match sp with | some p => p.head == g | .none => false),
    relayFwd := (match sp with | some p => decide (g < p.last) | .none => false) })

/-- An earlier tour that shares a gallery has a step running there or not yet launched. -/
def unfinishedOn (s : State) (t : Tour) (g : Nat) : Bool :=
  t.mask.getLsbD g && (decide (vget t.next g 0 < stepTotal t g) ||
    (match (galOf s g).run with | some r => r.tourId == t.tourId | .none => false))

/-- Earlier tours on the galleries of `t` are stopped before the exchange (R215). -/
def endEarlier (t : Tour) (s : State) : State :=
  let gs := maskList t.mask
  let s := gs.foldl (fun x g => settleStep g x) s
  let earlier := (s.tours.filter (fun o => o.tourId != t.tourId && o.state == .running && gs.any (fun g => o.mask.getLsbD g)))
  earlier.foldl (fun x o =>
    let x := if tourAlive x o && gs.any (fun g => unfinishedOn x o g) then
        endEarly o.tourId stDeadlineMissed (causeOnly 6) x.time.now x.time.now x
      else x
    haltTour o.tourId x) s

/-! ### The end of a tour (06 R121, R475; 16 R355, R356) -/

/-- Every step of every gallery has been launched and has ended. -/
def allStepsDone (s : State) (t : Tour) : Bool :=
  (maskList t.mask).all (fun g => vget t.next g 0 == stepTotal t g &&
    (match (galOf s g).run with | some r => r.tourId != t.tourId | .none => true))

/-- Windows of 256 compiled ticks that the tour covers (17 R380). -/
def tourWindows (t : Tour) : Nat := ceilDiv (t.endTick - tourBase t) 256

/-- The cause that contributed the most slip ticks, the lowest on a tie (Table 02-9). -/
def largestSlip (t : Tour) : Nat :=
  (List.range 4).foldl (fun b c => if vget t.slips b 0 < vget t.slips c 0 then c else b) 0

/-- STATUS and FAULT of the completion record. -/
def finalStatus (s : State) (t : Tour) : BitVec 16 × FaultAt :=
  if s.fab.lockstep.lost.contains t.tourId then (stUnreachable, causeOnly 0)
  else match s.fab.lockstep.diverged.find? (fun d => d.1 == t.tourId) with
  | some d => (stDivergence, d.2)
  | .none =>
    match t.status with
    | some st => (st, if st = stDeadlineMissed then causeOnly t.faultAt.cause else t.faultAt)
    | .none => if t.endTick ≤ t.deadline then (stOk, causeOnly 0) else (stDeadlineMissed, causeOnly (largestSlip t + 1))

/-- The tour's results are complete: it ran all its steps and no partner diverged. -/
def resultsWhole (t : Tour) (st : BitVec 16) : Bool := t.status.isNone && (st == stOk || st == stDeadlineMissed)

/-- Catalogue indices of the tour's output entries: those bound with write access. -/
def outCats (t : Tour) : List Nat := ((t.bindings.filter (·.writes)).map (·.cat)).eraseDups

/-- The end-of-tour write of one output entry. -/
def writeOutput (t : Tour) (whole : Bool) (i : Nat) (s : State) : State :=
  if !whole then modEnt i (fun e => { e with poisoned := true }) s
  else match t.walk.find? (fun w => w.cat == i) with
    | some w =>
      modEnt i (fun e => { e with
        kind := w.kind, components := w.components, form := bit01 w.form, limbs := w.limbs, scaleExp := w.scaleExp,
        budget := w.budget, exhausted := w.exhausted, tag := w.tag, logN := w.logN, mode := w.mode, ptMod := w.ptMod,
        special := w.special, layout := w.layout, dnum := 0, keyKind := 0, levelMax := 0, levelMin := 0, autoA := 0,
        poisoned := false }) s
    | .none => modEnt i (fun e => { e with poisoned := false }) s

/-- LOCKED of the bound entries clears, but for those another loaded or accepted tour binds. -/
def unlockEntries (t : Tour) (s : State) : State :=
  t.locked.foldl (fun x i =>
    if x.tours.any (fun o => o.tourId != t.tourId && tourLive o && o.locked.contains i) then x
    else modEnt i (fun e => { e with locked := false }) x) s

/-- The tour's counters of gallery `g`: those of its bank, or as they stood when a later tour took the gallery. -/
def tourCounters (s : State) (t : Tour) (g : Nat) : CounterSet :=
  match t.kept.find? (fun k => k.1 == g) with
  | some k => k.2
  | .none => (activeBank (galOf s g)).counters

/-- The tour's bank of gallery `g` counts as free (10 R213), its relay stage rests. -/
def freeBank (t : Tour) (g : Nat) (s : State) : State :=
  let free := fun (b : Bank) => { b with status := BankState.free }
  if holdsActive t g then
    modRegs (modGal s g (modActive free)) g (fun r => { r with relayHead := false, relayFwd := false })
  else if t.state = .running then s
  else modGal s g (modInactive free)

/-- Counters of the tour go to the module totals and to the capture units, at its completion record (21 R444, R447, Table 21-1). A tour
that never ran has counted nothing. -/
def countTour (t : Tour) (s : State) : State :=
  let gs := (maskList t.mask).filter (fun g => t.state == .running && (!imageSealed s g (tourImage t g) || t.restore.isSome))
  let cs := gs.map (tourCounters s t)
  let s := cs.foldl (fun x c => addTotals c x) s
  let s := captureFrom 0x70 (sumNat (cs.map satSum)) s
  captureFrom 0x71 (sumNat (cs.map (fun c => c.nan.toNat))) s

/-- READY of the internal regions that the tour's WR_MASKs and DEST 1 name (10 R227). Those that its end with DEADLINE_MISSED poisoned
(02 R42) keep READY 0. -/
def readyWrites (t : Tour) (s : State) : State :=
  (maskList t.mask).foldl (fun x g => (writesFrom x t g 0).foldl (fun y p =>
    let r := rgnOf y p.1 p.2
    if r.valid && r.feed == 0 && !t.missed.contains p then modRgn y p.1 p.2 (readyRgn y.time.now) else y) x) s

/-- FAULT as 8 bytes (Table 16-5). -/
def faultBytes (f : FaultAt) : List Byte :=
  leBytes 8 (f.step % 65536 + 2 ^ 16 * (f.gallery % 32) + 2 ^ 21 * (f.station % 8) + 2 ^ 24 * (f.cause % 256) +
    2 ^ 32 * (f.stepCycle % 2 ^ 22))

/-- The two entries of the completion record (R355). -/
def writeCompletion (t : Tour) (st : BitVec 16) (f : FaultAt) (s : State) : State :=
  match t.hdr.src with
  | .mbox => s
  | .qp q =>
    let n := q.toNat
    let slip := fun c => leBytes 4 (min 0xFFFFFFFF (vget t.slips c 0))
    let s := qpEntry s n t.hdr.irq t.hdr.tag kindA st t.opcode (faultBytes f ++ leBytes 8 t.start ++ leBytes 8 t.deadline)
    let s := qpEntry s n t.hdr.irq t.hdr.tag kindB st t.opcode (leBytes 8 t.endTick ++ slip 0 ++ slip 1 ++ slip 2 ++ slip 3)
    modQp s n (fun x => { x with tours := x.tours - 1 })

/-- The result of a Restoration that ran through, at its end (07 R140; log entry 55). -/
def settleRestore (id : Quad) (s : State) : State :=
  match tourOf s id with
  | some t => (match t.restore, t.status with | some j, .none => restoreStore j s | _, _ => s)
  | .none => s

/-! ### The streams of a Restoration (06 R134 to R137; log entry 55) -/

/-- The ticks at which the streams of the stages are compared, with the stage: free ticks of stage 1, of every batch of stage 2, which
streams its key anew (07, after R141), and of stage 3. -/
def drawChecks (id : Quad) (s : State) : State :=
  match tourOf s id with
  | some t =>
    (match t.restore with
     | some j =>
       let (t1, t2, t3) := restoreStages s j.input j.keyR j.keyX j.keyP j.slotsLog
       let n := max 1 (ceilDiv (2 ^ j.slotsLog) (16 * numGal s))
       let batch := t2 / n
       let (v, s) := freeBits (32 * (n + 2)) s
       let at_ := fun (i lo len : Nat) => t.start + lo + fieldAt v.toNat (32 * i) 32 % max 1 len
       let cs := (at_ 0 0 t1, 0) :: (List.range n).map (fun i => (at_ (i + 1) (t1 + i * batch) batch, 1)) ++
         [(at_ (n + 1) (t1 + t2) t3, 2)]
       modTour s id (fun x => { x with restore := some { j with checks := cs } })
     | .none => s)
  | .none => s

/-- A gallery compares the key header of a Restoration's stage and faults (06 R134): its registers. -/
def macroMismatch (binding step cycle cause g : Nat) (s : State) : State :=
  modRegs s g (fun r =>
    let r := { r with keyMismatches := bump8 r.keyMismatches }
    if r.keyFault.valid then r
    else { r with keyFault := { stepCycle := BitVec.ofNat 24 cycle, binding := BitVec.ofNat 8 binding, step := BitVec.ofNat 16 step,
                                valid := true, cause := BitVec.ofNat 4 cause } })

/-- The index in the built tour's bindings of a key that follows input, output and table. -/
def keyBind (t : Tour) (key : Nat) : Nat := ((t.bindings.map (·.cat)).drop 2).findIdx (· == key) + 2

/-- A failing stream ends the Restoration. The key 0x10 reaches every gallery by the relay; which gallery receives the failing word set
of another stream is a free value, as is the step of the Docent's template. -/
def failRestore (t : Tour) (k : Nat) (f : StreamFail) (s : State) : State :=
  let (v, s) := freeBits 43 s
  let step := fieldAt v.toNat 0 16
  let cycle := fieldAt v.toNat 16 22
  let one := fieldAt v.toNat 38 5 % numGal s
  let g0 := if k = 1 then 0 else one
  let stop := fun (st : BitVec 16) (g cause : Nat) (s : State) =>
    endEarly t.tourId st { step := step, gallery := g, station := 1, cause := cause, stepCycle := cycle } s.time.now (s.time.now + 1) s
  match f with
  | .input => stop stRegionPoisoned one 0 s
  | .poisoned key =>
    let gs := if k = 1 then List.range (numGal s) else [one]
    let s := gs.foldl (fun x g => modRegs x g (fun r => { r with poisonedKeys := bump8 r.poisonedKeys })) s
    stop stRegionPoisoned g0 0 (modEnt key (fun e => { e with poisoned := true }) s)
  | .mismatch key cause =>
    let s := foldRange (numGal s) (fun g x => macroMismatch (keyBind t key) step cycle cause g x) s
    stop stKeyMismatch 0 cause s

/-- The streams of stage `k` of a Restoration are read and compared; none once the tour has ended. -/
def stageCheck (t : Tour) (j : RestoreJob) (k : Nat) (s : State) : State :=
  if ((tourOf s t.tourId).bind (·.status)).isSome then s
  else match stageFault s j k with
    | some f => failRestore t k f (stageEcc s j k)
    | .none => stageEcc s j k

/-- The comparisons of a Restoration that fall in the present tick. -/
def restoreChecks (id : Quad) (s : State) : State :=
  match tourOf s id with
  | some t =>
    (match t.restore with
     | some j =>
       if t.state != .running || t.status.isSome then s
       else (j.checks.filter (fun c => c.1 == s.time.now)).foldl (fun x c => stageCheck t j c.2 x) s
     | .none => s)
  | .none => s

/-- What the end of a Restoration leaves (07 R153, R156, Table 07-10). -/
def closeRestore (t : Tour) (st : BitVec 16) (f : FaultAt) (s : State) : State :=
  match t.restore with
  | .none => s
  | some j =>
    let fault := st != stOk && st != stDeadlineMissed
    let s := { s with rst := { s.rst with
      running := false, runs := if fault then s.rst.runs else bump8 s.rst.runs,
      faults := if fault then bump8 s.rst.faults else s.rst.faults, refill := s.rst.refill || fault } }
    let s := if fault then
        foldRange (numGal s) (fun g x => poisonRgns st ((List.range 4).map (fun i => (g, 60 + i))) x) s
      else s
    match j.autoIns with
    | some main => if fault then endEarly main st f t.endTick t.endTick s else s
    | .none => s

/-- Everything that the Docent does at the end of a tour: Catalogue, locks, banks, counters, record. -/
def finishTour (id : Quad) (s : State) : State :=
  let s := haltTour id (settleRestore id s)
  match tourOf s id with
  | .none => s
  | some t =>
    let (st, f) := finalStatus s t
    let whole := resultsWhole t st
    let s := if st = stDivergence ∨ st = stUnreachable then
        (maskList t.mask).foldl (fun x g => poisonRgns st (writesFrom x t g 0) x) s
      else s
    let s := if st = stOk ∨ st = stDeadlineMissed then readyWrites t s else s
    let s := pruneBlocks ((outCats t).foldl (fun x i => writeOutput t whole i x) s)
    let s := unlockEntries t s
    let s := closeRestore t st f s
    let s := countTour t s
    let s := (maskList t.mask).foldl (fun x g => freeBank t g x) s
    let s := modTour s id (fun x => { x with state := .completed, claims := [], locked := [] })
    let past : Tour := { t with state := .completed, claims := [], locked := [], package := [] }
    let s := { s with booked := past :: s.booked.filter (fun b => decide (s.time.now < b.deadline)) }
    let s := { s with fab := { s.fab with lockstep := { s.fab.lockstep with
      sigs := s.fab.lockstep.sigs.filter (fun r => r.tourId != id),
      diverged := s.fab.lockstep.diverged.filter (fun d => d.1 != id),
      lost := s.fab.lockstep.lost.filter (· ≠ id) } } }
    writeCompletion t st f s

/-- The tour's end has come: its steps have ended or its galleries have stopped, and its Restorations are through. -/
def tourEnded (s : State) (t : Tour) : Bool :=
  tourAccepted t && t.waitFor.all (fun i => match tourOf s i with | some o => o.state == .completed | .none => true) &&
    (match t.status with
     | some _ => decide (t.stopAt ≤ s.time.now)
     | .none => t.state == .running && allStepsDone s t && decide (t.endTick ≤ s.time.now))

/-- TOUR_END: a tour in lock-step waits for LOCKSTEP_COMPLETE (17 R382). -/
def doTourEnd (id : Quad) (s : State) : State :=
  match tourOf s id with
  | .none => s
  | some t =>
    let s' := (maskList t.mask).foldl (fun x g => settleStep g x) s
    if hubRuns s && !s.fab.lockstep.enabled && tourEnded s' t then finishTour id s' else s

/-! ### TOUR_START -/

/-- The Restorations that a tour due now waits for, so far as their end has come (07 R156). -/
def endAwaited (id : Quad) (s : State) : State :=
  match tourOf s id with
  | .none => s
  | some t => if t.state == .accepted && t.start == s.time.now then t.waitFor.foldl (fun x i => doTourEnd i x) s else s

/-- The fault with which a Restoration that the tour waits for ends or has ended, in lock-step before its completion too (07 R156). -/
def awaitedFault (s : State) (t : Tour) : Option (BitVec 16 × FaultAt × Nat) :=
  t.waitFor.findSome? (fun i => (tourOf s i).bind (fun o => o.status.bind (fun st =>
    if st = stDeadlineMissed then .none else some (st, o.faultAt, o.endTick))))

/-- TOUR_START: the exchange, or the end of a tour that may not start (02 R24, 20 R438). One whose Restoration ended with a fault does
not start (07 R156). -/
def doTourStart (id : Quad) (s : State) : State :=
  let s := endAwaited id s
  match tourOf s id with
  | .none => s
  | some t =>
    let now := s.time.now
    if !hubRuns s || t.state != .accepted || t.status.isSome || t.start != now then s
    else if s.power.emergency then endEarly id s.power.emergencyCode (causeOnly 0) now now s
    else match awaitedFault s t, lostIsland s t with
      | some (st, f, tick), _ => endEarly id st f tick now s
      | .none, some g =>
        let (loc, s) := locateAt t g 0 7 (100 * now) s
        endEarly id stLateRelease loc now now s
      | .none, .none =>
        let s := endEarlier t s
        let s := (maskList t.mask).foldl (fun x g => exchangeGal t g x) s
        let s := modTour s id (fun x => { x with
          state := .running, endTick := if x.restore.isSome then x.start + x.budget else x.start })
        if t.restore.isSome then drawChecks id { s with rst := { s.rst with running := true } } else s

/-! ### Overrun and hold limit (02 R31, R42) -/

/-- TOUR_OVERRUN: a gallery still inside a step at S + B. -/
def doTourOverrun (id : Quad) (s : State) : State :=
  match tourOf s id with
  | .none => s
  | some t =>
    let now := s.time.now
    let inside := fun (g : Nat) => match (galOf s g).run with
      | some r => r.tourId == id && decide (now < runEnds r)
      | .none => false
    if !hubRuns s || t.state != .running || !tourAlive s t || decide (now < tourBase t + t.budget) then s
    else match (maskList t.mask).find? inside with
      | some g =>
        let (loc, s) := locateAt t g 7 0 (100 * now) s
        haltAtEdge id (endEarly id stTourOverrun loc now now s)
      | .none => s

/-- The hold limit of a tour (R42). -/
def holdLimit (t : Tour) : Nat := if t.hold = 0 then 2 ^ 24 else t.hold

/-- HOLD_LIMIT_EXCEEDED. -/
def doHoldLimit (id : Quad) (s : State) : State :=
  match tourOf s id with
  | .none => s
  | some t =>
    if hubRuns s && tourAccepted t && tourAlive s t && decide (holdLimit t < slipOf t) then
      haltAtEdge id (endEarly id stDeadlineMissed (causeOnly 5) s.time.now s.time.now s)
    else s

/-! ### Losses (02 R24, R33, R34; 03 R67) -/

/-- A running tour has ended of itself, though its TOUR_END is still to come. -/
def tourOver (s : State) (t : Tour) : Bool :=
  let s' := (maskList t.mask).foldl (fun x g => settleStep g x) s
  t.status.isNone && allStepsDone s' t && decide (((tourOf s' t.tourId).getD t).endTick ≤ s.time.now)

/-- The tours that run now. -/
def runningTours (s : State) : List Tour := s.tours.filter (fun t => t.state == .running && !tourOver s t)

/-- Running tours end with LATE_RELEASE at tick edge `tick`, at the gallery that `at_` gives. -/
def lateTours (tick : Nat) (uses : Tour → Bool) (at_ : Tour → Nat) (s : State) : State :=
  ((runningTours s).filter uses).foldl (fun x t =>
    let (loc, x) := locateAt t (at_ t) 0 7 (100 * tick) x
    endEarly t.tourId stLateRelease loc tick tick x) s

/-- The step running on a gallery that loses its clock goes no further: it will be poisoned like every stopped step (04 R94). One that
had stopped already keeps its status (06 R136). -/
def stopStepOn (g : Nat) (s : State) : State :=
  match (galOf s g).run with
  | some r =>
    if s.time.now < runEnds r then
      modGal s g (fun x => { x with run := some { r with stopped := some (r.stopped.getD stLateRelease) } })
    else s
  | .none => s

/-- Relay word sets that have not passed island `i` go no further: the stage of a gallery, or the die bridge (02 R24). -/
def dropRelay (i : Nat) (s : State) : State :=
  let now := 100 * s.time.now + s.time.cycle
  let keep := fun (g : Nat) (f : RelayWord → Bool) (x : State) => modGal x g (fun y => { y with relay := y.relay.filter f })
  if i = 40 ∨ i = 41 then foldRange (numGal s) (fun g x => keep g (fun w => w.bridge == 0 || decide (w.bridge < now)) x) s
  else
    let spans := ((runningTours s).flatMap (·.spans)).filter (fun sp => decide (sp.head ≤ i) && decide (i ≤ sp.last))
    spans.foldl (fun x sp => foldRange (sp.last - i) (fun k x =>
      let g := i + 1 + k
      let lag := relayDelta (perDie s) sp.head g - relayDelta (perDie s) sp.head i
      keep g (fun w => decide (w.cycle < now + lag)) x) x) s

/-- The hub's clock is lost: module time stands still, so that no tick edge follows; running tours stop and accepted ones end at
once (log entry 134). -/
def loseHub (s : State) : State :=
  let now := s.time.now
  let s := lateTours now (fun _ => true) firstGal s
  let s : State := { s with tours := s.tours.map (fun (t : Tour) => if t.status.isSome then { t with stopAt := min t.stopAt now } else t) }
  let s := s.tours.foldl (fun x t => haltAtEdge t.tourId x) s
  (s.tours.filter (fun t => t.state == .accepted && t.status.isNone)).foldl (fun x t =>
    let (loc, x) := locateAt t (firstGal t) 0 7 (100 * now) x
    endEarly t.tourId stLateRelease loc now now x) s

/-- ISLAND_LOCK_LOSS: the lock bit clears, the island's clock is gated, and tours that use it end. -/
def doIslandLoss (i : Nat) (s : State) : State :=
  if !hubRuns s || decide (43 ≤ i) || !s.time.islandLock.getLsbD i then s
  else
    let s := if i = 42 then loseHub s
      else lateTours (s.time.now + 1) (fun t => usesIsland s t i) (fun t => if i < 32 then i else firstGal t) s
    let s := modTime (dropRelay i s) (fun t => { t with islandLock := t.islandLock &&& ~~~((1 : Quad) <<< i) })
    if i < 32 then modRegs (stopStepOn i s) i (fun r => { r with clockOn := false }) else s

/-- Code of the relay hop into gallery `g`, when a span brings one (16 Table 16-7). -/
def relayHop (s : State) (t : Tour) (g : Nat) : Option Nat :=
  (spanOf t g).bind (fun sp =>
    if sp.head = g then .none
    else some (if dieAt (perDie s) sp.head ≠ dieAt (perDie s) g ∧ g = perDie s then 3 else 2))

/-- The crossing that missed its handshake is none that a step takes: a relay hop, the time code, or one of a Restoration; it ends the
tour in the present tick (02 R33; log entry 96). -/
def missCrossing (t : Tour) (g v : Nat) (s : State) : State :=
  let cause := if t.restore.isSome then v % 5 + 1 else if v % 2 = 0 then (relayHop s t g).getD 5 else 5
  let station := if t.restore.isSome && (cause == 1 || cause == 4) then 1 else 0
  endInTick t stLateRelease g station cause s

/-- LATE_ARRIVAL_DISCARD: data that missed its release is discarded and counted (R34). The station does not use it, and the tour ends
with LATE_RELEASE (R33). The row does not say which crossing it was: a free value picks the next one that the running step releases, the
relay hop into the gallery, or the time code (log entry 96). -/
def doLateArrival (g : Nat) (s : State) : State :=
  if decide (numGal s ≤ g) || !(galOf s g).regs.clockOn then s
  else
    let s := modRegs s g (fun r => { r with lateArrivals := bump8 r.lateArrivals })
    match runningOn s g with
    | .none => s
    | some t =>
      let inStep := match (galOf s g).run with | some r => r.stopped.isNone && decide (s.time.now < runEnds r) | .none => false
      if !tourAlive s t || tourOver s t then s
      else
        let (v, s) := freeBits 8 s
        if inStep && v.getLsbD 7 then modGal s g (fun x => { x with late := true })
        else missCrossing t g (v.toNat % 128) s

/-- Crossings in flight into a die are lost: each ends its tour at its release cycle (R67). -/
def loseInFlight (die : Nat) (s : State) : State :=
  let now := 100 * s.time.now + s.time.cycle
  foldRange (numGal s) (fun g x =>
    if dieOf x g != die then x
    else modGal x g (fun y => { y with
      run := y.run.map (fun r => { r with pipe := { r.pipe with
        reads := r.pipe.reads.map (fun q => if dieOf x q.owner != die then { q with lost := true } else q),
        dels := r.pipe.dels.map (fun q => if dieOf x q.owner != die then { q with lost := true } else q) } }),
      inbox := y.inbox.map (fun w => if stackDie (stackOf w.addr) != die then { w with lost := true } else w),
      relay := y.relay.map (fun w => if w.bridge != 0 && decide (now ≤ w.bridge) && decide (w.bridge ≤ now + 32) then { w with lost := true } else w) })) s

/-- Restoration tours whose crossings fail, as the row names them: the model holds no crossings of theirs. Each ends its tour at its
release, in one of the next `n` module cycles (log entry 55). -/
def failCrossings (n : Nat) (cs : List (Quad × BitVec 5)) (s : State) : State :=
  cs.foldl (fun x c => match tourOf x c.1 with
    | some t =>
      if t.state = .running ∧ t.restore.isSome ∧ t.mask.getLsbD c.2.toNat then
        endWithin n t stLateRelease c.2.toNat 0 7 x
      else x
    | .none => x) s

/-- Flit losses within 1 ms of now: 25,000 ticks. -/
def recentLosses (now : Nat) (ls : List Nat) : List Nat := ls.filter (fun k => decide (now < k + 25000))

/-- A direction of the bridge carries crossings. -/
def dirUp (s : State) (dir10 : Bool) : Bool := if dir10 then s.bridge.dir10Up else s.bridge.dir01Up

/-- BRIDGE_FLIT_LOSS. Receiving galleries lie on the die that the direction leads to. -/
def doFlitLoss (dir10 : Bool) (inFlight : List (Quad × BitVec 5)) (s : State) : State :=
  if !dirUp s dir10 then s
  else
    let now := s.time.now
    let s := { s with bridge := { s.bridge with
      flitLosses := bump8 s.bridge.flitLosses, lossTicks := now :: recentLosses now s.bridge.lossTicks } }
    let die := if dir10 then 0 else 1
    failCrossings 112 (inFlight.filter (fun c => dieOf s c.2.toNat == die)) (loseInFlight die s)

/-- BRIDGE_RETRAIN: after 4 losses within 1 ms the bridge retrains, and crossings due meanwhile fail. -/
def doBridgeRetrain (due : List (Quad × BitVec 5)) (s : State) : State :=
  if s.bridge.retraining || decide ((recentLosses s.time.now s.bridge.lossTicks).length < 4) then s
  else
    let s := { s with bridge := { s.bridge with
      retrains := bump8 s.bridge.retrains, retraining := true, dir10Up := false, dir01Up := false, lossTicks := [],
      startTick := s.time.now } }
    failCrossings 5000 due (modTaps s (fun t => { t with tr := t.tr + 1 }))

/-- BRIDGE_RETRAIN_DONE. -/
def doRetrainDone (s : State) : State :=
  if s.bridge.retraining then
    { s with bridge := { s.bridge with retraining := false, dir10Up := true, dir01Up := true } }
  else s

/-! ### Meanings -/

def execReadinessSample (tourId : Quad) (s : State) : Out := .next (doReadinessSample tourId s)
def execStepLaunch (gallery : BitVec 5) (s : State) : Out := .next (doStepLaunch gallery.toNat s)
def execLateArrivalDiscard (gallery : BitVec 5) (s : State) : Out := .next (doLateArrival gallery.toNat s)
def execStepEnd (gallery : BitVec 5) (s : State) : Out := .next (settleStep gallery.toNat s)
def execTourOverrun (tourId : Quad) (s : State) : Out := .next (doTourOverrun tourId s)
def execHoldLimitExceeded (tourId : Quad) (s : State) : Out := .next (doHoldLimit tourId s)
def execTourEnd (tourId : Quad) (s : State) : Out := .next (doTourEnd tourId s)
def execIslandLockLoss (island : BitVec 6) (s : State) : Out := .next (doIslandLoss island.toNat s)
def execBridgeFlitLoss (dir10 : Bool) (inFlight : List (Quad × BitVec 5)) (s : State) : Out := .next (doFlitLoss dir10 inFlight s)
def execBridgeRetrain (due : List (Quad × BitVec 5)) (s : State) : Out := .next (doBridgeRetrain due s)
def execBridgeRetrainDone (s : State) : Out := .next (doRetrainDone s)

end Sys2Proof.Machine
end

