-- ==== Sys2Proof/Machine/LoadCheck.lean ====
section
/-!
DEFINITION. Sys2Proof/Machine/LoadCheck.lean: the checks that TOUR_LOAD makes on a package as a whole: the manifest and the
image headers, directories and tables (10 R211, R212, Tables 10-1 to 10-4), the operation list and its entries (06 R118,
R127, R475, R476), relay spans (03 R62, R63). Of several failures the first in the order written here is reported (log
entry 56).
-/

set_option Elab.async false

namespace Sys2Proof.Machine

/-- Why a load is refused: status and DETAIL. -/
structure Bad where
  st     : BitVec 16
  detail : Nat
  deriving DecidableEq, Repr

/-- The outcome of a check: nothing, or the refusal. -/
abbrev Chk := Option Bad

/-- Refuses with a status unless the condition holds. -/
def need (st : BitVec 16) (d : Nat) (ok : Bool) : Chk := if ok then .none else some { st := st, detail := d }
def needParam (d : Nat) (ok : Bool) : Chk := need stBadParam d ok
def needRange (d : Nat) (ok : Bool) : Chk := need stAddressRange d ok
def needSealed (d : Nat) (ok : Bool) : Chk := need stSealedAccess d ok

/-- DETAIL of a fault in a header or table of gallery `g` (16 Table 16-4). -/
def hdrDetail (g : Nat) : Nat := detailOf 0 g 15

/-- The first refusal of a check over a list. -/
def firstOf {α : Type} (l : List α) (f : α → Chk) : Chk := l.findSome? f

/-- The first refusal of a check over the numbers below `n`. -/
def firstBelow (n : Nat) (f : Nat → Chk) : Chk := (List.range n).findSome? f

/-- A package: its bytes, a reader of them and its galleries. -/
structure Pkg where
  bytes : List Byte
  rd    : Rd
  gals  : List Nat

def pkgOf (bs : List Byte) : Pkg :=
  let rd := bytesRd bs.toArray 0
  { bytes := bs, rd := rd, gals := maskList (BitVec.ofNat 32 (pkMask rd)) }

/-- The image of gallery `g`. -/
def Pkg.image (p : Pkg) (g : Nat) : Rd := imageOf p.rd g

/-- `n` bytes of the package from an offset. -/
def Pkg.cut (p : Pkg) (o n : Nat) : List Byte := (p.bytes.drop o).take n

/-- Profile windows needed to cover B + A ticks (10, after Table 10-2; 20: 2,500 ticks a window). -/
def windowTicks : Nat := 2500
def windowsFor (rd : Rd) : Nat := ceilDiv (pkBudget rd + pkSlack rd) windowTicks

/-- The header of the manifest and its sections (R212, Table 10-1). -/
def checkManifest (s : State) (p : Pkg) : Chk :=
  let rd := p.rd
  let size := p.bytes.length
  let head := rd 0 4 == 0x4B5A544D && rd 4 2 == 1 && crc32c (p.cut 0 60) == rd 0x3C 4 && rd 0x29 7 == 0 && rd 0x38 4 == 0
  let fields := decide (pkPolicy rd ≤ 2) && decide (pkSpans rd ≤ 16) && decide (1 ≤ pkBudget rd) &&
    decide (pkBudget rd ≤ 2 ^ 31) && decide (pkBindings rd ≤ 256) && decide (pkOps rd ≤ 1024) && decide (pkJoint rd ≤ 1)
  let galleries := pkMask rd != 0 && p.gals.all (fun g => decide (g < numGal s))
  let fit := pkManifest rd == (pkEnd rd + 7) / 8 * 8 && decide (pkManifest rd ≤ size)
  let body := (p.cut (pkEnd rd) (pkManifest rd - pkEnd rd)).all (· == 0) &&
    crc32c (p.cut 0x40 (pkManifest rd - 0x40)) == rd 0x34 4
  needParam (hdrDetail 0) (head && fields && galleries && fit && body && pkWindows rd == windowsFor rd)

/-! ### The operation list and the bound entries (06 R118, R127, R148, Table 06-6a) -/

/-- PRESENT of each primitive: bit 0 IN0, 1 IN1, 2 OUT, 3 KEY. -/
def primPresent (code : Nat) : Nat := if code ≤ 4 then 7 else if code ≤ 8 ∨ code = 0xC then 13 else 5

/-- PARAM lies in its fixed range. -/
def primParamOk (code v : Nat) : Bool :=
  if code = 6 then v % 2 == 1 && decide (v < 2 ^ 18)
  else if code = 0xA then decide (1 ≤ v) && decide (v ≤ 64)
  else if code = 0xB then decide (v < 2 ^ 17)
  else if code = 0xC then decide (v < 1024)
  else v == 0

/-- KIND of a primitive's result. -/
def primKind (code : Nat) : Nat := if code = 0xB then kindLwe else kindCipher

/-- KIND of its second input. -/
def primIn1Kind (code : Nat) : Nat := if code = 2 ∨ code = 3 then kindPlain else kindCipher

def hasIn1 (o : Prim) : Bool := o.pres.getLsbD 1
def hasKey (o : Prim) : Bool := o.pres.getLsbD 3

/-- A binding index that exists and allows the use. -/
def bindAllows (bs : List Binding) (i : Nat) (write : Bool) : Bool :=
  match bs[i]? with | some b => if write then b.writes else b.reads | .none => false

/-- One operation on its own (R127). -/
def primOk (bs : List Binding) (o : Prim) : Bool :=
  decide (o.code ≤ 0xC) && o.pres.toNat == primPresent o.code && bindAllows bs o.in0 false &&
    (!hasIn1 o || bindAllows bs o.in1 false) && bindAllows bs o.out true && (!hasKey o || bindAllows bs o.key false) &&
    primParamOk o.code o.param

/-- Zero bits of the manifest's entries (Table 10-2). -/
def entriesZero (rd : Rd) : Bool :=
  (List.range (pkBindings rd)).all (fun i => let e := rd (pkBindAt rd + 8 * i) 8; e / 2 ^ 20 == 0 && fieldAt e 18 2 != 0) &&
    (List.range (pkOps rd)).all (fun i =>
      let e := rd (pkOpsAt rd + 16 * i) 16
      fieldAt e 12 4 == 0 && fieldAt e 48 16 == 0 && fieldAt e 96 32 == 0) &&
    (List.range (pkSpans rd)).all (fun i => rd (pkSpansAt rd + 4 * i) 4 / 2 ^ 11 == 0)

/-- CAT_INDEX of binding `i`. -/
def bindCat (bs : List Binding) (i : Nat) : Nat := ((bs[i]?).map (·.cat)).getD 0

/-- The entry that a binding names. -/
def boundEnt (s : State) (bs : List Binding) (i : Nat) : CatEnt := catEnt s (bindCat bs i)

/-- KIND of a binding's entry as operation number `j` finds it: what an earlier operation wrote, through whichever binding, else the
entry's. -/
def kindBefore (s : State) (bs : List Binding) (ops : List Prim) (j i : Nat) : Nat :=
  match (ops.take j).reverse.find? (fun o => bindCat bs o.out == bindCat bs i) with
  | some o => primKind o.code
  | .none => (boundEnt s bs i).kind

/-- KIND of each entry matches its use (R118, R475). -/
def kindsOk (s : State) (bs : List Binding) (ops : List Prim) (j : Nat) (o : Prim) : Bool :=
  kindBefore s bs ops j o.in0 == kindCipher && (!hasIn1 o || kindBefore s bs ops j o.in1 == primIn1Kind o.code) &&
    (!hasKey o || (boundEnt s bs o.key).kind == kindKey) &&
    ((boundEnt s bs o.out).kind == kindFree || (boundEnt s bs o.out).kind == primKind o.code)

/-- Bindings, operations and the entries they bind. An operation at fault is named by its index. -/
def checkOps (s : State) (p : Pkg) : Chk :=
  let bs := pkBindingList p.rd
  let ops := pkOpList p.rd
  needParam (hdrDetail 0) (entriesZero p.rd && bs.all (fun b => entSound s b.cat)) <|>
    firstOf ((List.range ops.length).zip ops) (fun (j, o) =>
      needParam (detailOf j 0 15) (primOk bs o && kindsOk s bs ops j o))

/-! ### Relay spans (03 R62, R63) -/

def checkSpans (p : Pkg) : Chk :=
  let ss := pkSpanList p.rd
  let galsOf := fun (sp : Span) => (List.range (sp.last + 1 - sp.head)).map (fun i => sp.head + i)
  let all := ss.flatMap galsOf
  needParam (hdrDetail 0) (ss.all (fun sp => decide (sp.head ≤ sp.last)) && all.all (fun g => p.gals.contains g) &&
    all.eraseDups.length == all.length)

/-! ### Image header and directory (Tables 10-3, 10-4) -/

/-- Bytes that an image and its twiddle words take in the package. -/
def imageSpan (rd : Rd) : Nat := imgBytes rd + 4 * imgTwWords rd

/-- End of `n` native steps that start at an offset. -/
def stepsEnd (rd : Rd) : Nat → Nat → Nat
  | 0, o => o
  | n + 1, o => stepsEnd rd n (o + 32 + 32 * popBelow (readStep rd o).blocks 9)

/-- Bytes of a stream of long words. -/
def longBytes (l : List LongWord) : Nat := sumNat (l.map (fun w => 4 + 4 * w.slots.length))

/-- End of an image's steps. -/
def imageStepsEnd (rd : Rd) : Nat :=
  if imgForm rd = 0 then stepsEnd rd (imgSteps rd) 0x40 else 0x60 + longBytes (longWords rd 65536 0x60)

/-- The image of gallery `g` lies in the package, with a sound header. -/
def checkHeader10 (p : Pkg) (g : Nat) : Chk :=
  let rd := p.image g
  let at_ := pkImage p.rd g
  let place := at_ % 1024 == 0 && decide (at_ + 96 ≤ p.bytes.length)
  let head := rd 0 4 == 0x4B5A5449 && rd 4 2 == 1 && crc32c (p.cut at_ 60) == rd 0x3C 4 && decide (imgForm rd ≤ 1) &&
    rd 7 1 == g && rd 8 8 == pkTourId p.rd && rd 0x23 1 == 0 && rd 0x28 20 == 0 && decide (rd 0x20 1 ≤ 1) &&
    (imgForm rd == 1 || (rd 0x20 1 == 0 && rd 0x21 1 == 0))
  let sizes := decide (96 ≤ imgBytes rd) && decide (imgBytes rd ≤ 262144) && imgBytes rd % 32 == 0 &&
    decide (1 ≤ imgSteps rd) && decide (imgSteps rd ≤ 65535) && decide (0x40 + 32 * imgSteps rd ≤ imgBytes rd) &&
    decide (imgTwWords rd ≤ 131072) && decide (rd 0x22 1 ≤ 24) && rd 0x18 4 % 8 == 0 &&
    decide (at_ + imageSpan rd ≤ p.bytes.length)
  let body := crc32c (p.cut (at_ + 0x40) (imageSpan rd - 0x40)) == rd 0x24 4
  needParam (hdrDetail g) (place && head && sizes && body)

/-- Bytes of the manifest, of every image with its twiddle words; they do not overlap, and the rest is zero (R212). -/
def checkLayout (p : Pkg) : Chk :=
  let parts := (0, pkManifest p.rd) :: p.gals.map (fun g => (pkImage p.rd g, imageSpan (p.image g)))
  let apart := parts.Pairwise (fun a b => a.1 + a.2 ≤ b.1 ∨ b.1 + b.2 ≤ a.1)
  let clear := ((List.range p.bytes.length).zip p.bytes).all (fun (i, b) =>
    b == 0 || parts.any (fun a => decide (a.1 ≤ i) && decide (i < a.1 + a.2)))
  needParam (hdrDetail 0) (decide apart && clear)

/-- Entries allowed in a table of each type. -/
def tableCountOk (ty n : Nat) : Bool :=
  decide (1 ≤ n) &&
    (if ty = 1 then decide (n ≤ 4096) else if ty = 2 then decide (n ≤ 64) else if ty = 3 then decide (n ≤ 80)
     else if ty = 9 then n == 112 else decide (n ≤ 16))

/-- Bytes of a table. -/
def tableBytes (rd : Rd) (d : DirEnt) : Nat :=
  if d.type = 1 ∨ d.type = 6 ∨ d.type = 9 then 32 * d.count
  else if d.type = 2 then 4 * d.count
  else if d.type = 3 then 16 * d.count
  else if d.type = 4 then 256 * d.count
  else if d.type = 5 then 8 * d.count
  else if d.type = 7 then sumNat ((blockListsFrom rd d.count d.offset).map (fun l => 16 + 4 * l.count))
  else sumNat ((schedsFrom rd d.count d.offset).map (fun c => 16 + 32 * c.runs.length))

/-- The directory: types, counts, places after the steps and inside the image. -/
def checkDirectory (p : Pkg) (g : Nat) : Chk :=
  let rd := p.image g
  let ds := imgDir rd
  let stop := imageStepsEnd rd
  let once := fun (ty : Nat) => decide ((ds.filter (fun d => d.type == ty)).length ≤ (if ty = 3 then 4 else 1))
  needParam (hdrDetail g)
    (decide (stop ≤ rd 0x18 4) && decide (rd 0x18 4 + 8 * ds.length ≤ imgBytes rd) &&
      (List.range ds.length).all (fun i => rd (rd 0x18 4 + 8 * i + 3) 1 == 0) &&
      ds.all (fun d => decide (1 ≤ d.type) && decide (d.type ≤ 9) && tableCountOk d.type d.count && once d.type) &&
      ds.all (fun d => decide (stop ≤ d.offset) && decide (d.offset + tableBytes rd d ≤ imgBytes rd)))

/-! ### Tables -/

/-- Offsets of the entries of the table of a type. -/
def tableEntries (rd : Rd) (ty sz : Nat) : List Nat :=
  match imgTable rd ty with | some d => (List.range d.count).map (fun i => d.offset + sz * i) | .none => []

def generatorsOk (rd : Rd) : Bool := (tableEntries rd 1 32).all (fun o => rd o 32 / 2 ^ 176 == 0)

/-- Region entries: zero bits, no region twice, FEED as declared (10 R212, Table 10-16). -/
def regionsOk (s : State) (g : Nat) (rd : Rd) : Bool :=
  let es := imgRegions rd
  (tableEntries rd 2 4).all (fun o => let e := rd o 4; !bitAt e 7 && e / 2 ^ 11 == 0) &&
    (es.map (·.region)).eraseDups.length == es.length &&
    es.all (fun e => (rgnOf s g e.region).valid && (rgnOf s g e.region).feed.toNat == e.feed)

/-- Words of a twiddle set (05 Table 05-4). -/
def twiddleWords (logN : Nat) : Nat := let h := (logN + 1) / 2; 2 * (2 ^ h + 2 ^ (logN - h))

/-- A modulus table entry (05 R97, R98). -/
def modulusEntryOk (v : Nat) : Bool :=
  let e := modEntOf v
  modulusOk e.q e.k && fieldAt v 101 3 == 0 && fieldAt v 109 2 == 0 &&
    (e.logN == 0 || (decide (12 ≤ e.logN) && decide (e.logN ≤ 17) && decide (e.twBase + twiddleWords e.logN ≤ 131072)))

def modTablesOk (rd : Rd) : Bool :=
  (imgModTabs rd).all (fun d => (List.range d.count).all (fun i => modulusEntryOk (rd (d.offset + 16 * i) 16)))

/-- Tensor descriptors (09 Table 09-3). -/
def descsOk (rd : Rd) : Bool :=
  (tableEntries rd 6 32).all (fun o =>
    let e := rd o 32
    let r := fieldAt e 128 32
    let c := fieldAt e 160 32
    decide (1 ≤ r) && decide (r ≤ 2 ^ 24) && decide (1 ≤ c) && decide (c ≤ 2 ^ 24) && e / 2 ^ 192 == 0)

/-- PITCH at a rate (09 R208): 0 QUAD, 1 SINGLE. -/
def pitchOk (rate pitch : Nat) : Bool :=
  if rate = 0 then [1, 2, 3].all (fun d => let x := d * pitch % 256; decide (16 ≤ min x (256 - x))) else decide (16 ≤ pitch)

/-- Block lists: fields, and blocks inside a word-mode region of the gallery (09 R206, R208, R209, Table 09-5). -/
def checkLists (s : State) (p : Pkg) (g : Nat) : Chk :=
  let rd := p.image g
  firstOf (imgLists rd) (fun l =>
    let r := rgnOf s g l.region
    needParam (hdrDetail g)
      (decide (l.region < 64) && decide (l.rate ≤ 1) && decide (1 ≤ l.count) && decide (l.count ≤ 4096) &&
        decide (16 ≤ l.pitch) && decide (l.pitch ≤ 2 ^ 20) && pitchOk l.rate l.pitch && rd (l.at_ - 8) 8 == 0 &&
        (List.range l.count).all (fun i => rd (l.at_ + 4 * i) 4 / 2 ^ 22 == 0) && r.valid && !r.mode2D) <|>
      needRange (hdrDetail g) ((List.range l.count).all (fun i => decide (listOffset rd l i + 15 * l.pitch + 15 < rgnWords r))))

/-- Slots counted from tick 0 of the tour of the first and last word set of a run. -/
def runFirst (r : Run) : Nat := 64 * r.tick + (slotList r.slots).headD 0
def runLast (r : Run) : Nat :=
  let sl := slotList r.slots
  64 * (r.tick + (r.count - 1) / sl.length) + sl.getD ((r.count - 1) % sl.length) 0

def lineSetOk (ls : Int) : Bool := decide (0 ≤ ls) && decide (ls ≤ 37748735)

def reservedSlots (s : State) : List Nat :=
  [16, 48, 8, 24, 40, 56] ++ (if s.hbm.hubEighth then [12, 28, 44, 60] else [])

/-- Runs follow one another. -/
def runsInOrder : List Run → Bool
  | a :: b :: rs => decide (runLast a < runFirst b) && runsInOrder (b :: rs)
  | _ => true

/-- Stream schedules on their own (14 Table 14-3, R296, R298, R308; 11 R235). Log entry 152: a bit of SLOTS on a reserved position refuses
the image, one that COUNT never reaches too. -/
def checkSchedules (s : State) (p : Pkg) (g : Nat) : Chk :=
  let rd := p.image g
  let offs := (imgScheds rd).foldl (fun (a : List (Nat × Sched) × Nat) c =>
    (a.1 ++ [(a.2, c)], a.2 + 16 + 32 * c.runs.length)) ([], ((imgTable rd 8).map (·.offset)).getD 0)
  firstOf offs.1 (fun (o, c) =>
    let last := fun (r : Run) => (r.lineSet : Int) + (r.count - 1 : Nat) * r.stride
    needParam (hdrDetail g)
      (fieldAt (rd o 16) 5 27 == 0 && rd o 16 / 2 ^ 48 == 0 && decide (1 ≤ c.runs.length) && decide (c.runs.length ≤ 4096) &&
        (List.range c.runs.length).all (fun i =>
          let e := rd (o + 16 + 32 * i) 32
          fieldAt e 154 6 == 0 && e / 2 ^ 184 == 0) &&
        c.runs.all (fun r => decide (1 ≤ r.count) && r.slots != 0 && lineSetOk r.lineSet && lineSetOk (last r) &&
          (slotList r.slots).all (fun k => !(reservedSlots s).contains k)) && runsInOrder c.runs) <|>
      needRange (hdrDetail g) (noRange s c.stack || c.runs.all (fun r => (List.range r.count).all (fun i =>
        match runWord r i with
        | some w => (List.range 16).all (fun j => (findRange s (streamAddr c w + 64 * j)).isNone)
        | .none => true))))

/-- The tables of an image. -/
def checkTables (s : State) (p : Pkg) (g : Nat) : Chk :=
  let rd := p.image g
  needParam (hdrDetail g) (generatorsOk rd && regionsOk s g rd && modTablesOk rd && descsOk rd) <|>
    checkLists s p g <|> checkSchedules s p g

/-- Header, directory and tables of every image. -/
def checkImages (s : State) (p : Pkg) : Chk :=
  firstOf p.gals (checkHeader10 p) <|> checkLayout p <|>
    firstOf p.gals (fun g => checkDirectory p g <|> checkTables s p g)

end Sys2Proof.Machine
end

