-- ==== Sys2Proof/Machine/StepCheck.lean ====
section
/-!
DEFINITION. Sys2Proof/Machine/StepCheck.lean: the checks that TOUR_LOAD makes on every step of an image: the fields of its
blocks (10 R216 to R221, R478), the values its generators reach (10 R218, 04 R76, 09 R190, R203, R209), regions and
masks (10 R225, R471), the end of its word sets (03 R58), modulus entries (05 R98, R100, R107), narrowing (08), sealed
data (04 R91, 12 R257 to R262), the compatibility form (10 R228 to R231) and the placement of stream bursts (11 R235, 14
R294 to R300). A field that names a generator, table entry or schedule the image does not have is refused with
BAD_PARAM (log entry 57).
-/

set_option Elab.async false

namespace Sys2Proof.Machine

/-! ### Fields of blocks -/

/-- Entries of the first table of a type. -/
def tableLen (rd : Rd) (ty : Nat) : Nat := ((imgTable rd ty).map (·.count)).getD 0

/-- A generator field: used, it names a generator or 0xFFFF; unused, it is 0xFFFF (R219). -/
def genFld (rd : Rd) (used : Bool) (i : Nat) : Bool := i == 0xFFFF || (used && decide (i < tableLen rd 1))

/-- An index field: used, it names an entry of the table; unused, it is 0. -/
def idxFld (rd : Rd) (ty : Nat) (used : Bool) (i : Nat) : Bool := if used then decide (i < tableLen rd ty) else i == 0

/-- A plain field: free while used, else 0. -/
def plainFld (used : Bool) (v : Nat) : Bool := used || v == 0

/-- All bits of a block but those in the given (low bit, width) fields are zero. -/
def onlyBits (fs : List (Nat × Nat)) (b : Nat) : Bool :=
  b == sumNat (fs.map (fun f => fieldAt b f.1 f.2 * 2 ^ f.1))

/-- LOOP (Table 10-6). -/
def loopForm (rd : Rd) (b : Nat) : Bool :=
  onlyBits [(0, 115), (128, 22), (160, 16)] b && decide (1 ≤ loopIssue b) && genFld rd true (loopLimbGen b)

/-- KEY (Table 10-9). -/
def keyForm (b : Nat) : Bool := onlyBits [(0, 62), (64, 32)] b

/-- A shape uses a second coordinate. -/
def usesSecond (r : Region) (sh : Nat) : Bool :=
  sh == shRow || sh == shColumn || sh == shPermCoeff || sh == shPermSlot || (sh == shScalar && r.mode2D)

/-- One operand of INTAKE: source, shape, gallery, region, lanes, generators and schedule (R219, 04 R78). -/
def operandForm (c : Ctx) (src sh gal rg ln gen gen2 str : Nat) : Bool :=
  decide (src ≤ 3) &&
    (if src = srcCab then
      decide (sh ≤ shGather) && genFld c.rd (sh != shGather) gen && genFld c.rd (usesSecond (c.rgn gal rg) sh) gen2 && str == 0
     else
      sh == 0 && gal == 0 && rg == 0 && gen == 0xFFFF && gen2 == 0xFFFF && (src != srcNone || ln == 0) &&
        (if src = srcHbm then decide (str < (imgScheds c.rd).length) && !(cxSched c str).write else str == 0))

/-- Some cabinet operand of INTAKE has one of the shapes. -/
def intakeHas (b : Nat) (f : Nat → Bool) : Bool :=
  (inASrc b == srcCab && f (inAShape b)) || (inBSrc b == srcCab && f (inBShape b))

/-- INTAKE (Table 10-10). -/
def intakeForm (c : Ctx) (b : Nat) : Bool :=
  let perm := intakeHas b (fun sh => sh == shPermCoeff || sh == shPermSlot)
  let gather := intakeHas b (· == shGather)
  let tile := intakeHas b (· == shTile)
  onlyBits [(0, 28), (32, 28), (64, 92), (160, 28), (192, 21)] b &&
    operandForm c (inASrc b) (inAShape b) (inAGal b) (inARgn b) (inALanes b) (inAGen b) (inAGen2 b) (inAStream b) &&
    operandForm c (inBSrc b) (inBShape b) (inBGal b) (inBRgn b) (inBLanes b) (inBGen b) (inBGen2 b) (inBStream b) &&
    decide (inBMode b ≤ 2) && plainFld (inBSrc b != srcNone) (inBMode b) &&
    plainFld perm (inPermE b) && plainFld perm (inPermLogN b) &&
    plainFld (inASrc b != srcNone) (bit01 (inLtabEn b)) && idxFld c.rd 4 (inLtabEn b) (inLtab b) &&
    genFld c.rd gather (inListGen b) && idxFld c.rd 7 gather (inList b) &&
    plainFld tile (inTilePitch b) && plainFld tile (inTileRate b) && (!tile || pitchOk (inTileRate b) (inTilePitch b))

/-- TRANSFORM (Table 10-11, 05 R107). -/
def xformForm (rd : Rd) (b : Nat) : Bool :=
  let n := xfLogN b
  let passes := (n + 3) / 4
  onlyBits [(0, 22), (32, 16)] b && decide (12 ≤ n) && decide (n ≤ 17) && decide (xfPass b < passes) &&
    xfRadix b == (if xfPass b + 1 < passes then 4 else n - 4 * (passes - 1)) && decide (xfDpos b + xfRadix b ≤ 8) &&
    decide (xfGlshift b ≤ 16) && plainFld (xfGlane b) (xfGlshift b) && genFld rd true (xfGgen b)

/-- MULTIPLY (Table 10-12, 08 R158, R165). -/
def mulForm (c : Ctx) (b : Nat) : Bool :=
  onlyBits [(0, 1), (4, 16), (32, 32)] b &&
    (if cxModular c then
      mulFmtA b == 0 && mulFmtB b == 0 && mulAscale b == 0 && mulCpGen b == 0xFFFF && mulSliceGen b == 0xFFFF
     else
      !mulWide b && pairAllowed (mulFmtA b) (mulFmtB b) && plainFld (hasScale (mulFmtA b)) (mulAscale b) &&
        genFld c.rd true (mulCpGen b) && genFld c.rd true (mulSliceGen b))

/-- ACCUMULATE (Table 10-12). -/
def accForm (c : Ctx) (b : Nat) : Bool :=
  onlyBits [(0, 2), (4, 4), (32, 16)] b && genFld c.rd true (accRowGen b) && plainFld (!cxModular c && accFlag b) (bit01 (accWrap b)) &&
    plainFld (!cxModular c) (accSatc b)

/-- Which of X, Y, Z an operation uses (09 Table 09-2, R196 to R199); none for a code that is no operation. -/
def vecUses (op : Nat) : Option (Bool × Bool × Bool) :=
  if op ∈ [0x00, 0x01, 0x04, 0x1E, 0x1F, 0x21] ∨ isTap op then some (true, false, false)
  else if op = 0x05 then some (false, true, false)
  else if op ∈ [0x0F, 0x16, 0x1B] then some (true, true, true)
  else if op = 0x20 then some (true, false, true)
  else if op ∈ [0x02, 0x03, 0x08, 0x09, 0x0A, 0x0B, 0x0C, 0x0D, 0x0E, 0x10, 0x11, 0x12, 0x13, 0x14, 0x15, 0x18, 0x19, 0x1A,
      0x1C, 0x1D] then some (true, true, false)
  else .none

/-- Sources that Table 09-1 allows for X, Y and Z; Y may be B only when Multiply is bypassed. -/
def vecSourceOk (hasMul : Bool) (operand src : Nat) : Bool :=
  if operand = 0 then src == 0 || (decide (2 ≤ src) && decide (src ≤ 5))
  else if operand = 1 then (src == 1 && !hasMul) || (decide (2 ≤ src) && decide (src ≤ 6))
  else decide (3 ≤ src) && decide (src ≤ 6)

/-- Operations that count saturations (09 R194, R195, R468). -/
def vecCounts (op : Nat) : Bool := op ∈ [0x09, 0x0B, 0x1F, 0x18, 0x19, 0x1A, 0x1B, 0x1C, 0x1D, 0x1E, 0x20, 0x30, 0x32, 0x35, 0x36]

/-- Operations that use the logical index of a lane. -/
def vecIndexed (op : Nat) : Bool := op == 0x05 || op == 0x21

/-- Operations that use the modulus entry (05 R100). -/
def vecModular (op : Nat) : Bool := op ∈ [0x01, 0x02, 0x03, 0x04, 0x05, 0x31]

/-- VECTOR (Table 10-13; 09 R181, R182, R192, R201). -/
def vectorForm (c : Ctx) (hasMul : Bool) (b : Nat) : Bool :=
  let op := vecOp b
  let srcs := [vecX b, vecY b, vecZ b]
  let tiles := (srcs.filter (· == 3)).length
  let caches := (srcs.filter (fun x => x == 4 || x == 5)).length
  match vecUses op with
  | .none => false
  | some (ux, uy, uz) =>
    let operand := fun (used : Bool) (i x : Nat) => if used then vecSourceOk hasMul i x else x == 7
    onlyBits [(0, 31), (32, 8), (64, 160)] b && operand ux 0 (vecX b) && operand uy 1 (vecY b) && operand uz 2 (vecZ b) &&
      decide (caches ≤ 1) && decide (tiles ≤ 2) && decide ((srcs.filter (· == 2)).length ≤ 1) &&
      plainFld (op == 0x00 || op == 0x16 || op == 0x21) (bit01 (vecKind b)) &&
      plainFld (op == 0x05) (bit01 (vecNegexp b)) && plainFld (op == 0x05) (bit01 (vecM1 b)) &&
      decide (vecTap b ≤ 2) && plainFld (isTap op) (vecTap b) && decide (vecWb b ≤ 2) &&
      (!vecRacc b || (isTap op && vecWb b == 1)) && plainFld (vecCounts op) (vecSatc b) &&
      idxFld c.rd 6 (vecDescEn b) (vecDesc b) && idxFld c.rd 5 (op == 0x21) (vecSeed b) &&
      plainFld (srcs.contains 6 || op == 0x21) (vecImm b) &&
      genFld c.rd (srcs.contains 2) (vecAccGen b) && genFld c.rd (decide (1 ≤ tiles)) (vecT1Gen b) &&
      genFld c.rd (tiles == 2) (vecT2Gen b) && genFld c.rd (caches == 1) (vecOcGen b) &&
      genFld c.rd (srcs.contains 5) (vecRsGen b) && genFld c.rd (vecWb b != 0) (vecWbGen b) &&
      genFld c.rd (vecDescEn b || vecIndexed op) (vecTrGen b) && genFld c.rd (vecDescEn b) (vecTcGen b)

/-- Shapes of a store (10 Table 10-14). -/
def storeShape (sh : Nat) : Bool := sh == shLinear || sh == shRow || sh == shColumn || sh == shTile || sh == shScatter

/-- OUTLET (Table 10-14, R478; 08 R158, R178; 12 R261). Seeds that a step may not use are zero. Log entry 57: with DEST 4 STREAM may name
any schedule of the image, and has no effect. -/
def outletForm (c : Ctx) (b : Nat) : Bool :=
  let cab := storesCab b
  let nar := outNarrows b
  let stoch := nar && outRmode b == 2
  let sampled := nar && outRateLog b != 0
  let block := cab && (outShape b == shTile)
  let scat := cab && outShape b == shScatter
  onlyBits [(0, 61), (64, 22), (96, 22), (128, 68), (196, 21)] b && decide (outDest b ≤ 4) &&
    (!outLocal b || outDest b == 4) &&
    (if cab then
      storeShape (outShape b) &&
        (if outDest b = 1 then outDgal b != c.g && dieAt c.per (outDgal b) == dieAt c.per c.g else outDgal b == c.g)
     else outShape b == 0 && outDgal b == 0 && outDrgn b == 0) &&
    (decide (outNfmt b ≤ 5) || outNfmt b == 0xF) &&
    plainFld (nar && !hasScale (outNfmt b)) (outShift b) && decide (outRmode b ≤ 2) && plainFld nar (outRmode b) &&
    idxFld c.rd 5 stoch (outSeed b) && idxFld c.rd 5 sampled (outSseed b) &&
    (outRateLog b == 0 || (nar && decide (6 ≤ outRateLog b) && decide (outRateLog b ≤ 12) && outNfmt b != fmtInt8)) &&
    plainFld nar (outSatc b) && plainFld cab (bit01 (outWhole b)) && plainFld (cab && !outWhole b) (outOwnBase b) &&
    plainFld (cab && !outWhole b) (outOwnWords b) &&
    (if outDest b = 2 then decide (outStream b < (imgScheds c.rd).length) && (cxSched c (outStream b)).write
     else outStream b == 0 || (outDest b == 4 && decide (outStream b < (imgScheds c.rd).length))) &&
    genFld c.rd (cab && !scat) (outGen b) &&
    genFld c.rd (cab && (outShape b == shRow || outShape b == shColumn)) (outGen2 b) &&
    genFld c.rd (stoch || sampled) (outLidxGen b) && genFld c.rd scat (outListGen b) && idxFld c.rd 7 scat (outList b) &&
    plainFld block (outTilePitch b) && plainFld block (outTileRate b) && (!block || pitchOk (outTileRate b) (outTilePitch b))

/-- ENGINE (Table 10-15). -/
def engineForm (b : Nat) : Bool :=
  onlyBits [(0, 24), (32, 22), (64, 54), (128, 22)] b && (engFill b || engCopy b) && decide (1 ≤ engLen b) &&
    decide (engLen b ≤ 3145728) && plainFld (engFill b) (engValue b) && plainFld (engCopy b) (engSrc b)

/-- The header of a native step and the fields of its blocks. -/
def stepForm (c : Ctx) (d : Nat → Nat) : Chk :=
  let st := c.st
  let on := fun (o : Option Nat) (f : Nat → Bool) => (o.map f).getD true
  let stations := st.key.isSome || st.intake.isSome || st.xform.isSome || st.mul.isSome || st.acc.isSome || st.vec.isSome || st.out.isSome
  needParam (d 15) (decide (1 ≤ st.dur) && !bitAt st.blocks 9) <|>
    needParam (d 0) (!stations || st.loop.isSome) <|> needParam (d 1) (st.key.isNone || st.intake.isSome) <|>
    needParam (d 0) (on st.loop (loopForm c.rd)) <|> needParam (d 1) (on st.key keyForm) <|>
    needParam (d 2) (on st.intake (intakeForm c)) <|> needParam (d 3) (on st.xform (xformForm c.rd)) <|>
    needParam (d 4) (on st.mul (mulForm c)) <|> needParam (d 5) (on st.acc (accForm c)) <|>
    needParam (d 6) (on st.vec (vectorForm c st.mul.isSome)) <|> needParam (d 7) (on st.out (outletForm c)) <|>
    needParam (d 8) (on st.engine engineForm)

/-! ### Regions that a step names (10 R225, R471) -/

/-- Regions of the own gallery that a run of words touches. -/
def touched (c : Ctx) (at_ len : Nat) : List Nat :=
  (List.range 64).filter (fun j =>
    let r := c.rgn c.g j
    r.valid && decide (rgnBase r < at_ + len) && decide (at_ < rgnBase r + rgnWords r))

/-- Every bank row of a run of words lies in a declared region of the own gallery (04 R85). -/
def covered (c : Ctx) (at_ len : Nat) : Bool :=
  (List.range ((at_ + len - 1) / 256 - at_ / 256 + 1)).all (fun i =>
    (List.range 64).any (fun j =>
      let r := c.rgn c.g j
      r.valid && decide (r.baseRow.toNat ≤ at_ / 256 + i) && decide (at_ / 256 + i < r.baseRow.toNat + r.rows.toNat)))

def maskBits (m : Nat) : List Nat := (List.range 64).filter (fun j => bitAt m j)

/-- Regions that the engine reads and writes. -/
def engineReads (c : Ctx) : List Nat :=
  match c.st.engine with | some b => if engCopy b then touched c (engSrc b) (engLen b) else [] | .none => []
def engineWrites (c : Ctx) : List Nat :=
  match c.st.engine with | some b => touched c (engDst b) (engLen b) | .none => []

/-- Regions that Outlet stores to. -/
def cabWrites (c : Ctx) : List (Nat × Nat) := ((outBlocks c).filter storesCab).map (fun b => (outDgal b, outDrgn b))

/-- A region has an entry in an image. -/
def hasEntry (rd : Rd) (r : Nat) : Bool := (imgRegions rd).any (fun e => e.region == r)

/-- Masks, region entries and feeds. -/
def checkRegions (p : Pkg) (c : Ctx) (d : Nat → Nat) : Chk :=
  let own := fun (l : List (Nat × Nat)) => (l.filter (fun x => x.1 == c.g)).map (·.2)
  let rds := cabReads c
  let wrs := cabWrites c
  let rdm := maskBits c.st.rdMask
  let wrm := maskBits c.st.wrMask
  let rel := maskBits c.st.relMask
  let named := rdm ++ wrm ++ rel ++ own rds ++ own wrs ++ engineReads c ++ engineWrites c
  let known := named.all (fun j => hasEntry c.rd j && (c.rgn c.g j).valid)
  let foreign := (rds ++ wrs).all (fun x => x.1 == c.g || (p.gals.contains x.1 && hasEntry (p.image x.1) x.2))
  let masks := (own rds ++ engineReads c).all (fun j => bitAt c.st.rdMask j) &&
    (own wrs ++ engineWrites c).all (fun j => bitAt c.st.wrMask j)
  let feeds := (wrm ++ engineReads c).all (fun j => (c.rgn c.g j).feed == 0) && wrs.all (fun x => (c.rgn x.1 x.2).feed == 0) &&
    rel.all (fun j => (c.rgn c.g j).feed != 0)
  needParam (d 15) (known && foreign && masks && feeds)

/-! ### What the generators reach (10 R218) -/

def inBelow (v : Int) (n : Nat) : Bool := decide (0 ≤ v) && decide (v < n)

/-- A shape fits the region's mode, and a block shape the own gallery (04 Table 04-1, 09 R206). -/
def shapeFits (c : Ctx) (gal sh : Nat) (r : Region) : Bool :=
  (sh == shScalar || (if sh == shRow || sh == shColumn then r.mode2D else !r.mode2D)) && (!isBlockShape sh || gal == c.g)

/-- The modulus entry of iteration `k` exists. -/
def entryOf (c : Ctx) (k : Nat) : Option ModEnt :=
  let v := if c.native then cxVal c k slX false (loopLimbGen (cxLoop c)) else 0
  if v < 0 then .none else imgModEnt c.rd (cxModTab c) v.toNat

/-- One cabinet read of iteration `k` (04 R76, R86; 09 R209). The limb base of a permuted read is a cabinet address, so one outside its
region is out of range (10 R218). -/
def checkRead (c : Ctx) (d k : Nat) (isA : Bool) (b : Nat) : Chk :=
  let src := if isA then inASrc b else inBSrc b
  if src ≠ srcCab then .none
  else
    let sh := if isA then inAShape b else inBShape b
    let gal := if isA then inAGal b else inBGal b
    let rg := if isA then inARgn b else inBRgn b
    let slot := if isA then slA else slB
    let t := cxVal c k slot false (if isA then inAGen2 b else inBGen2 b)
    let perm := sh == shPermCoeff || sh == shPermSlot
    let n := inPermLogN b
    let lb := cxVal c k slot true (if isA then inAGen b else inBGen b)
    let permFits := decide (12 ≤ n) && decide (n ≤ 17) && inPermE b % 2 == 1 && decide (inPermE b < 2 * 2 ^ n) &&
      inBelow t (2 ^ n / 256) && (entryOf c k).isSome
    let l := cxList c (inList b)
    let listFits := inBelow (cxVal c k slot false (inListGen b)) l.count && l.region == rg
    let x := cxReadSet c k isA b
    needParam d (shapeFits c gal sh (c.rgn gal rg) && (!perm || permFits) && (sh != shGather || listFits)) <|>
      needRange d ((!perm || inBelow lb (rgnWords (c.rgn gal rg))) && (x.pas.take x.lanes).all (·.isSome))

/-- Transform in iteration `k` (05 R98, R100); its group index is taken modulo 2^(4p), so every value of GGEN is in range (10 R222).
-/
def checkXform (c : Ctx) (d k b : Nat) : Chk :=
  needParam d (match entryOf c k with
    | some e => e.logN == xfLogN b && e.q % 2 ^ (e.logN + 1) == 1
    | .none => false)

/-- Multiply and Accumulate in iteration `k`. Planes and slices are unsigned (R218, log entry 139). -/
def checkMulAcc (c : Ctx) (d : Nat → Nat) (k : Nat) : Chk :=
  needParam (d 4) (match cxBlk c k slM with
    | some b => if cxModular c then (entryOf c k).isSome
        else decide (0 ≤ cxVal c k slM false (mulCpGen b)) && decide (0 ≤ cxVal c k slM true (mulSliceGen b))
    | .none => true) <|>
    needParam (d 5) (match cxBlk c k slC with
      | some b => inBelow (cxVal c k slC true (accRowGen b)) (if cxModular c then 32 else 64)
      | .none => true)

/-- Vector in iteration `k` (09 R190, R196, R203; 12 R248). -/
def checkVector (c : Ctx) (d k b : Nat) : Chk :=
  let srcs := [vecX b, vecY b, vecZ b]
  let tiles := (srcs.filter (· == 3)).length
  let v := fun (prim : Bool) (i : Nat) => cxVal c k slV prim i
  let rows := (List.range 16).map (fun (i : Nat) => v false (vecOcGen b) + (i : Int) * cxStride c k b)
  let desc := readDesc c.rd (vecDesc b)
  let t := tileCoord c k b
  let modOk := match entryOf c k with | some e => vecOp b != 0x05 || e.logN != 0 | .none => false
  needParam d
    ((!srcs.contains 2 || inBelow (v false (vecAccGen b)) (if cxModular c then 32 else 64)) &&
      (tiles == 0 || inBelow (v true (vecT1Gen b)) 32) && (tiles != 2 || inBelow (v false (vecT2Gen b)) 32) &&
      (!srcs.contains 5 || (decide (-8192 ≤ cxStride c k b) && decide (cxStride c k b ≤ 8191))) &&
      (vecWb b != 1 || inBelow (v false (vecWbGen b)) 32) &&
      (if vecDescEn b then inBelow t.1 (ceilDiv desc.extR 16) && inBelow t.2 (ceilDiv desc.extC 16)
       else !vecIndexed (vecOp b) || inBelow t.1 (2 ^ 32)) &&
      (!vecModular (vecOp b) || modOk)) <|>
    needRange d
      ((!srcs.contains 4 || inBelow (v false (vecOcGen b)) 512) && (!srcs.contains 5 || rows.all (fun r => inBelow r 8192)) &&
        (vecWb b != 2 || inBelow (v false (vecWbGen b)) 512))

/-- Lanes that are valid where Outlet takes the word set of iteration `k` (09 R199, R204, R205). -/
def outValid (c : Ctx) (k : Nat) : List Bool :=
  match cxBlk c k slV with
  | some b => permLanes (vecTranspose b) false
      (if isTap (vecOp b) then lanes.map (fun l => decide (l < tapCount (vecTap b))) else lanes.map (laneValid c k b))
  | .none => lanes.map (fun _ => true)

/-- Data words that Outlet writes in iteration `k`, by index (10, before R223). -/
def dataIndices (c : Ctx) (k b : Nat) : List Nat :=
  let va := outValid c k
  let pad := if outNarrows b then (packRow (outNfmt b) 0 0 (fun _ => 0) false va []).pad else va.map (! ·)
  (List.range (storeWords b)).filter (fun i => !(pad.getD i true))

/-- The kind of the word sets that Outlet takes is FP32 (09 R186). -/
def outIsFp (c : Ctx) (k : Nat) : Bool :=
  match cxBlk c k slV with
  | some b => vecIsFp b
  | .none => (match cxBlk c k slM with | some m => !cxModular c && pairScaled (mulFmtA m) (mulFmtB m) | .none => false)

/-- Outlet in iteration `k` (04 R76; 08 R172; 09 R209; 10 R224; 12 R248). Log entry 152: of the void header iteration, in which Outlet
writes nothing, the address is not checked, the SCATTER list index is. -/
def checkOutlet (c : Ctx) (d k b : Nat) : Chk :=
  let r := c.rgn (outDgal b) (outDrgn b)
  let l := cxList c (outList b)
  let cab := storesCab b
  let scat := cab && outShape b == shScatter
  let x := ownExtent c b
  needParam d
    ((!outNarrows b || (narrowPair (outIsFp c k) (outNfmt b) &&
        (!(outRmode b == 2 || outRateLog b != 0) || inBelow (cxVal c k slO false (outLidxGen b)) (2 ^ 32)))) && (!cab || shapeFits c (outDgal b) (outShape b) r) &&
      (!scat || (inBelow (cxVal c k slO false (outListGen b)) l.count && l.region == outDrgn b))) <|>
    needRange d (!cab || (decide (rgnBase r ≤ x.1) && decide (x.1 + x.2 ≤ rgnBase r + rgnWords r) &&
      (cxVoid c k || (dataIndices c k b).all (fun i =>
        match cxStoreAddr c k b i with | some pa => inExtent c b pa | .none => false))))

/-- Every station of iteration `k`. -/
def checkIteration (c : Ctx) (d : Nat → Nat) (k : Nat) : Chk :=
  let on := fun (slot : Nat) (f : Nat → Chk) => match cxBlk c k slot with | some b => f b | .none => .none
  needParam (d 0) (!c.native || decide (0 ≤ cxVal c k slX false (loopLimbGen (cxLoop c)))) <|>
    on slA (checkRead c (d 2) k true) <|>
    on slB (fun b => if c.native && inBMode b == 2 && decide (0 < k) then .none else checkRead c (d 2) k false b) <|>
    on slX (checkXform c (d 3) k) <|> checkMulAcc c d k <|> on slV (checkVector c (d 6) k) <|> on slO (checkOutlet c (d 7) k)

/-! ### Cycles of a step -/

/-- Issue cycles and intervals (03 R53; 09 R207; 10 R220, R221). -/
def checkIssue (c : Ctx) (d : Nat → Nat) : Chk :=
  let i := loopIssue (cxLoop c)
  let t0 := loopT0 (cxLoop c)
  let parts := fun (sh rate : Nat) => blockParts c sh rate
  let intake := match c.st.intake with
    | some b =>
      let cabA := inASrc b == srcCab
      let cabB := inBSrc b == srcCab
      let pA := if cabA then parts (inAShape b) (inRate c (inAShape b) b) else 1
      let pB := if cabB then parts (inBShape b) (inRate c (inBShape b) b) else 1
      decide (pA ≤ i) && decide (pB ≤ i) &&
        (inBSrc b == srcNone ||
          (if inBMode b = 0 then !(cabA && cabB)
           else decide (1 ≤ t0) && (inBMode b != 1 || decide (2 ≤ i)) &&
             (!(cabA && cabB) || (pB == 1 && (inBMode b == 2 || cxK c == 1 || decide (pA < i))))))
    | .none => true
  let outlet := match c.st.out with
    | some b => !storesCab b || decide (parts (outShape b) (outRate c b) ≤ i)
    | .none => true
  let key := match c.st.key, c.st.intake with
    | some kb, some b =>
      let src := if keyHdrB kb then inBSrc b else inASrc b
      (src == srcHbm || src == srcRelay) && decide (keyHdrIter kb < cxK c) && (!keyHdrB kb || inBMode b != 2)
    | _, _ => true
  needParam (d 2) intake <|> needParam (d 7) outlet <|> needParam (d 1) key

/-- A cycle of the step. -/
def inStepCycle (c : Ctx) (x : Option Int) : Bool := match x with | some v => inBelow v c.st.dur | .none => false

/-- Streams deliver inside the step that consumes them, a word set for every iteration (11 R235, 14 R298). -/
def checkStreamReads (c : Ctx) (d k : Nat) : Chk :=
  needParam d ((aSrc c k != srcHbm || inStepCycle c (cxEnter c k)) &&
    (bSrc c k != srcHbm || (cxBRead c k).isNone || inStepCycle c ((cxBDeliver c k).map (·.1))))

/-- A stream write goes to a local stack, its slot 40 cycles or more after the word set enters Outlet (14 R300). -/
def checkStreamWrite (c : Ctx) (d k : Nat) : Chk :=
  match cxBlk c k slO, cxEnter c k with
  | some b, some e =>
    if outDest b ≠ 2 ∨ cxVoid c k then .none
    else
      let sc := cxSched c (outStream b)
      needParam d (stackDie sc.stack == dieAt c.per c.g &&
        (match schedWord sc.runs k with
         | some w => decide (e + (cxToOut c : Nat) + 40 ≤ cxStepCycle c w.tick (slotCycle w.slot))
         | .none => false))
  | _, _ => .none

/-- Word set `k` lands before step cycle D (03 R58), and after cycle h + 4 of a key header (06 R135). -/
def checkLanding (c : Ctx) (d k : Nat) : Chk :=
  let h : Option Int := match c.st.key with
    | some kb => if keyHdrB kb then (cxBDeliver c (keyHdrIter kb)).map (·.1) else cxEnter c (keyHdrIter kb)
    | .none => .none
  needParam d (match cxLand c k with
    | some x => decide (x < c.st.dur) && (match h with | some y => decide (y + 4 < x) | .none => true)
    | .none => true)

/-- The engine's ranges and its last landing (04 R83 to R85; 10, after Table 10-15). -/
def checkEngine (c : Ctx) (d : Nat) : Chk :=
  match c.st.engine with
  | .none => .none
  | some b =>
    needParam d (decide (engLast b < c.st.dur) && covered c (engDst b) (engLen b) &&
      (engFill b || (covered c (engSrc b) (engLen b) &&
        (decide (engSrc b + engLen b ≤ engDst b) || decide (engDst b + engLen b ≤ engSrc b)))))

/-! ### Sealed data (04 R91; 12 R257, R260, R261) -/

/-- A step of a sealed image takes the masked-opening path (R260). -/
def opensMasked (c : Ctx) (sealed : Bool) : Bool :=
  sealed && c.native && c.st.mul.isNone && c.st.acc.isNone &&
    (match c.st.vec with
     | some v => (vecOp v == 0x08 || vecOp v == 0x0A || vecOp v == 0x14 || vecOp v == 0x02 || vecOp v == 0x03) &&
         vecX v == 0 && vecY v == 1 && vecWb v == 0
     | .none => false) &&
    (match c.st.intake with
     | some b => inBSrc b == srcCab && (let r := c.rgn (inBGal b) (inBRgn b); r.isSealed && r.feed != 0)
     | .none => false) &&
    (match c.st.out with
     | some o => !outNarrows o && (outDest o == 4 || (outDest o == 0 && !(c.rgn c.g (outDrgn o)).isSealed))
     | .none => false)

/-- Outlet, sampling and copies of a step as sealing allows them. -/
def checkSealed (c : Ctx) (sealed : Bool) (d : Nat → Nat) : Chk :=
  let opens := opensMasked c sealed
  let toSealed := fun (b : Nat) => (outDest b == 0 || outDest b == 1) && (c.rgn (outDgal b) (outDrgn b)).isSealed
  needParam (d 7) ((outBlocks c).all (fun b => !outLocal b || (opens && !(c.rgn c.g (outDrgn b)).isSealed))) <|>
    needSealed (d 7) (!sealed || (outBlocks c).all (fun b => (opens || toSealed b) && outRateLog b == 0)) <|>
    needSealed (d 8) (!((engineReads c).any (fun j => (c.rgn c.g j).isSealed)) ||
      (engineWrites c).all (fun j => (c.rgn c.g j).isSealed))

/-- The mask words of an opening step's iterations, each once for every iteration whose B it is: under ONCE every iteration takes
those of iteration 0. -/
def maskWords (c : Ctx) : List Nat :=
  match c.st.intake with
  | some b => (List.range (cxK c)).flatMap (fun k =>
      ((cxReadSet c (if inBMode b = 2 then 0 else k) false b).pas.filterMap id).eraseDups)
  | .none => []

/-- Mask regions: each released by its own image, no word used twice between releases (R262). `used` lists the mask words
since the last release. -/
def checkMasks (cs : List Ctx) : List (Nat × Ctx) → List (Nat × Nat) → Chk
  | [], _ => .none
  | (i, c) :: rest, used =>
    let d := detailOf i c.g 2
    match c.st.intake with
    | some b =>
      if opensMasked c true then
        let r := inBRgn b
        let ws := maskWords c
        let own := inBGal b == c.g && cs.any (fun x => bitAt x.st.relMask r)
        let fresh := ws.eraseDups.length == ws.length && ws.all (fun w => !used.contains (r, w))
        let used := (used ++ ws.map (fun w => (r, w))).filter (fun u => !bitAt c.st.relMask u.1)
        needSealed d (own && fresh) <|> checkMasks cs rest used
      else checkMasks cs rest (used.filter (fun u => !bitAt c.st.relMask u.1))
    | .none => checkMasks cs rest (used.filter (fun u => !bitAt c.st.relMask u.1))

/-! ### The compatibility form (10 R228 to R231) -/

/-- The long words are sound: zero bits, an END, and an image that holds them. -/
def longsOk (rd : Rd) (ls : List LongWord) : Bool :=
  let walk := ls.foldl (fun (a : Nat × Bool) w =>
    let zero := fieldAt (rd a.1 4) 8 24 == 0 &&
      (List.range w.slots.length).all (fun i => fieldAt (rd (a.1 + 4 + 4 * i) 4) 26 6 == 0)
    (a.1 + 4 + 4 * w.slots.length, a.2 && zero)) (0x60, true)
  walk.2 && (ls.getLast?.map (·.stop)).getD false

/-- A template of a slot: fields as in the native block (R219, 05 R107, 08 R158, R165, R178; 09 R181), and what R231 allows of
sources, galleries, shapes and destinations. -/
def templateForm (c : Ctx) (slot b : Nat) (hasMul : Bool) : Bool :=
  if slot ≤ slB then
    intakeForm c b && decide (inASrc b ≤ srcCab) && decide (inBSrc b ≤ srcCab) && (inASrc b != srcCab || inAGal b == c.g) &&
      (inBSrc b != srcCab || inBGal b == c.g) && !intakeHas b (· == shGather)
  else if slot = slX then xformForm c.rd b
  else if slot = slM then mulForm c b
  else if slot = slC then accForm c b
  else if slot = slV then vectorForm c hasMul b
  else outletForm c b && outDest b == 0 && outShape b != shScatter

/-- Every template of the table; one of zeros throughout names nothing (log entry 139). -/
def checkTemplates (c : Ctx) (d : Nat → Nat) : Chk :=
  firstBelow 112 (fun i =>
    let slot := i / 16
    let b := templateBlock c.rd slot (i % 16)
    needParam (d (if slot = 0 then 2 else slot + 1)) (b == 0 || templateForm c slot b false))

/-- What long word `k` does with its templates: its own form, cabinet reads of A and B not in one issue cycle (03 R53, 10 R221: the
interval is 1 and there is no cycle before the first, so B_MODE is PAIR), and no block access, which takes 4 or 16 cycles (09 R207).
-/
def longFits (c : Ctx) (k slot b : Nat) : Bool :=
  templateForm c slot b (cxBlk c k slM).isSome &&
    (if slot = slA then inASrc b == srcCab && inAShape b != shTile
     else if slot = slB then inBSrc b == srcCab && inBMode b == 0 && inBShape b != shTile && (cxBlk c k slA).isNone
     else if slot = slO then outShape b != shTile else true)

/-- A compatibility image (R228, R231). -/
def checkCompat (p : Pkg) (c : Ctx) (d : Nat → Nat) : Chk :=
  needParam (d 15) (p.gals.length == 1 && pkSpans p.rd == 0 && imgSteps c.rd == 1 && c.st.blocks == 0 &&
    tableLen c.rd 9 == 112 && longsOk c.rd c.longs && decide (c.longs.length + 44 ≤ c.st.dur)) <|>
    checkTemplates c d <|>
    firstBelow c.longs.length (fun k => firstBelow 7 (fun slot =>
      match cxBlk c k slot with
      | some b => needParam (d (if slot = 0 then 2 else slot + 1)) (longFits c k slot b)
      | .none => .none))

/-! ### One step -/

/-- Step `i` of the image of gallery `c.g`. `sealed` says that the image is sealed. -/
def checkStep (p : Pkg) (sealed : Bool) (i : Nat) (c : Ctx) : Chk :=
  let d := detailOf i c.g
  (if c.native then stepForm c d <|> checkIssue c d else checkCompat p c d) <|>
    checkRegions p c d <|> needParam (d 7) (decide (windowSets c ≤ 128)) <|> checkEngine c (d 8) <|>
    firstBelow (cxK c) (fun k => checkIteration c d k <|> checkStreamReads c (d 2) k <|> checkStreamWrite c (d 7) k <|>
      checkLanding c (d 7) k) <|>
    needParam (d 1) (match c.st.key with | some kb => decide (keyBinding kb < pkBindings p.rd) | .none => true) <|>
    checkSealed c sealed d

/-- Steps follow one another (02 R30). -/
def checkLaunches (g : Nat) : Nat → List StepV → Chk
  | i, a :: b :: rest =>
    needParam (detailOf (i + 1) g 15) (decide (a.launch + ceilDiv a.dur 100 ≤ b.launch)) <|> checkLaunches g (i + 1) (b :: rest)
  | _, _ => .none

/-! ### Key streams and the relay over a whole tour (03 R63, R477; 06 R135) -/

/-- Word sets of an HBM-fed span that reach the stage of a gallery in a tour cycle: their device addresses. -/
def relaySource (p : Pkg) (per g X : Nat) : Option Nat :=
  match (pkSpanList p.rd).find? (fun sp => decide (sp.head ≤ g) && decide (g ≤ sp.last)) with
  | some sp =>
    let back := relayDelta per sp.head g + 80
    if sp.fedOutlet ∨ X < back then .none
    else (feedScheds (p.image sp.head)).findSome? (fun sc => schedAtCycle sc 0 (X - back))
  | .none => .none

/-- Tour cycles in which the Outlet of a head's steps reaches its relay stage. -/
def relayLandings (s : State) (p : Pkg) (h : Nat) : List Int :=
  (imageCtxs s h (p.image h)).flatMap (fun c => (List.range (cxK c)).filterMap (fun k =>
    match cxBlk c k slO with
    | some b => if outDest b = 3 then (cxLand c k).map (fun x => 100 * (c.st.launch : Int) + x) else .none
    | .none => .none))

/-- Step cycles in which iteration `k` takes relay word sets. -/
def taps (c : Ctx) (k : Nat) : List Int :=
  (if aSrc c k = srcRelay then (cxEnter c k).toList else []) ++
    (if bSrc c k = srcRelay then ((cxBDeliver c k).map (·.1)).toList else [])

/-- A gallery of a span feeds it only as the head of an HBM-fed span, from a stack local to its die (03 R63). -/
def checkFeeds (p : Pkg) (per g : Nat) : Chk :=
  match (pkSpanList p.rd).find? (fun sp => decide (sp.head ≤ g) && decide (g ≤ sp.last)) with
  | .none => .none
  | some sp =>
    needParam (hdrDetail g) ((feedScheds (p.image g)).all (fun sc =>
      sp.head == g && !sp.fedOutlet && stackDie sc.stack == dieAt per g))

/-- A relay word set is due in every tapping cycle; only a head feeds the relay from its Outlet (R63, R477). -/
def checkRelay (s : State) (p : Pkg) (i : Nat) (c : Ctx) : Chk :=
  let sp := (pkSpanList p.rd).find? (fun sp => decide (sp.head ≤ c.g) && decide (c.g ≤ sp.last))
  let feeds := (outBlocks c).any (fun b => outDest b == 3)
  let headOk := match sp with | some x => x.head == c.g && x.fedOutlet | .none => false
  let cyc := fun (x : Int) => 100 * (c.st.launch : Int) + x
  let due := fun (x : Int) => match sp with
    | .none => false
    | some q =>
      if q.fedOutlet then (relayLandings s p q.head).contains (cyc x - (relayDelta c.per q.head c.g : Nat))
      else (relaySource p c.per c.g (cyc x).toNat).isSome
  needParam (detailOf i c.g 7) (!feeds || headOk) <|>
    firstBelow (cxK c) (fun k => needParam (detailOf i c.g 2) ((taps c k).all due))

/-- Device addresses of the stream word sets that a step takes. -/
def streamAddrs (p : Pkg) (c : Ctx) : List Nat :=
  let word := fun (i k : Nat) => (schedWord (cxSched c i).runs k).map (streamAddr (cxSched c i))
  (List.range (cxK c)).flatMap (fun k =>
    (match cxBlk c k slA with | some b => if inASrc b = srcHbm then (word (inAStream b) k).toList else [] | .none => []) ++
    (match cxBlk c k slB with
     | some b => if inBSrc b = srcHbm ∧ (cxBRead c k).isSome then (word (inBStream b) k).toList else []
     | .none => []) ++
    (taps c k).filterMap (fun x => relaySource p c.per c.g (100 * (c.st.launch : Int) + x).toNat))

/-- No step before the first that compares the header of a key uses a word set of that key's object (06 R135; log entry
58). The binding names a key object (R118). -/
def checkKeys (s : State) (p : Pkg) (cs : List Ctx) : Chk :=
  let bs := pkBindingList p.rd
  firstBelow cs.length (fun i =>
    match (cs[i]?).bind (fun c => c.st.key.map (fun kb => (c, kb))) with
    | .none => .none
    | some (c, kb) =>
      let x := boundEnt s bs (keyBinding kb)
      let same := fun (y : Ctx) => match y.st.key with
        | some q => (bs[keyBinding q]?).map (·.cat) == (bs[keyBinding kb]?).map (·.cat)
        | .none => false
      let early := (cs.take i).any same
      let inKey := fun (a : Nat) => x.space == 0 && decide (x.addr ≤ a) && decide (a < x.addr + x.bytes)
      needParam (detailOf i c.g 1) (x.kind == kindKey && (early || !((cs.take i).flatMap (streamAddrs p)).any inKey)))

/-! ### Bursts of a whole tour (11 R235; 14 R294, R297) -/

/-- A tour burst: its slot counted from tick 0, direction, bank, and the gallery whose image places it. -/
structure PlannedBurst where
  slot  : Nat
  write : Bool
  bank  : Nat
  gal   : Nat
  deriving DecidableEq, Repr

/-- Bursts of a schedule in slot order. -/
def schedBursts (g : Nat) (sc : Sched) : List PlannedBurst :=
  sc.runs.flatMap (fun r => (List.range r.count).filterMap (fun i =>
    (runWord r i).map (fun w => { slot := 64 * w.tick + w.slot, write := sc.write, bank := w.lineSet.toNat % 32, gal := g })))

/-- Merges two lists of bursts in slot order. -/
def mergeBursts : Nat → List PlannedBurst → List PlannedBurst → List PlannedBurst
  | 0, a, b => a ++ b
  | _, [], b => b
  | _, a, [] => a
  | n + 1, x :: a, y :: b => if x.slot ≤ y.slot then x :: mergeBursts n a (y :: b) else y :: mergeBursts n (x :: a) b

/-- Two bursts of one half of a stack, `b` not before `a`, may stand together (Table 14-2, R294). -/
def burstsAgree (a b : PlannedBurst) : Bool :=
  let apart := b.slot - a.slot
  let half := fun (x : PlannedBurst) => x.slot / 32
  (if a.bank = b.bank then decide (32 ≤ apart) else if a.bank % 8 = b.bank % 8 then decide (2 ≤ apart) else decide (1 ≤ apart)) &&
    (a.write == b.write || (half a != half b && !(half b == half a + 1 && decide (b.slot % 32 < 2))))

/-- Bursts in slot order agree with all that follow within 64 slots. -/
def checkBursts : List PlannedBurst → Chk
  | [] => .none
  | a :: rest =>
    firstOf (rest.takeWhile (fun b => decide (b.slot < a.slot + 64))) (fun b => needParam (hdrDetail b.gal) (burstsAgree a b)) <|>
      checkBursts rest

/-- The bursts of a half of a stack, over all images. -/
def halfBursts (p : Pkg) (k h : Nat) : List PlannedBurst :=
  (p.gals.flatMap (fun g => ((imgScheds (p.image g)).filter (fun sc => sc.stack == k && sc.half == h)).map (schedBursts g))).foldl
    (fun a b => mergeBursts (a.length + b.length) a b) []

def checkStacks (p : Pkg) : Chk := firstBelow 16 (fun i => checkBursts (halfBursts p (i / 2) (i % 2)))

/-- Stream reads across the dies leave 16 cycles between them on the gallery's read lane (R235, 03 R66; log entry 59). -/
def laneApart : List PlannedBurst → Bool
  | a :: b :: rest =>
    decide (100 * (a.slot / 64) + slotCycle (a.slot % 64) + 16 ≤ 100 * (b.slot / 64) + slotCycle (b.slot % 64)) && laneApart (b :: rest)
  | _ => true

def checkLane (p : Pkg) (per g : Nat) : Chk :=
  let far := (imgScheds (p.image g)).filter (fun sc => !sc.write && stackDie sc.stack != dieAt per g)
  needParam (hdrDetail g) (laneApart ((far.map (schedBursts g)).foldl (fun a b => mergeBursts (a.length + b.length) a b) []))

/-! ### The whole package -/

/-- The steps of the image of gallery `g`. -/
def checkSteps (s : State) (p : Pkg) (g : Nat) : Chk :=
  let rd := p.image g
  let cs := imageCtxs s g rd
  let sealed := imageSealed s g rd
  let numbered := (List.range cs.length).zip cs
  firstOf numbered (fun (i, c) => checkStep p sealed i c) <|> checkLaunches g 0 (imgStepList rd) <|>
    checkFeeds p (perDie s) g <|> firstOf numbered (fun (i, c) => checkRelay s p i c) <|> checkKeys s p cs <|>
    (if sealed then checkMasks cs numbered [] else .none)

/-- Everything TOUR_LOAD checks once the package lies in the Docent's hands. -/
def checkPackage (s : State) (p : Pkg) : Chk :=
  checkManifest s p <|> checkOps s p <|> checkImages s p <|> checkSpans p <|> firstOf p.gals (checkSteps s p) <|>
    checkStacks p <|> firstOf p.gals (checkLane p (perDie s))

end Sys2Proof.Machine
end

