-- ==== Sys2Proof/Machine/Tours.lean ====
section
/-!
DEFINITION. Sys2Proof/Machine/Tours.lean: loading, unloading and querying tours (10 R211 to R213, 16 R351), the Registrar:
the admission walk (06 R128 to R133, Table 06-8), Restorations submitted or inserted (07 R148 to R155), the conditions of
02 Table 02-8 with the start tick of R37 and the energy condition (20 R433, R434), and acceptance (02 R39, 19 R413).
-/

set_option Elab.async false

namespace Sys2Proof.Machine

/-! ### Loading (10 R211 to R213) -/

/-- A tour as its manifest describes it, loaded but not accepted. -/
def newTour (p : Pkg) : Tour :=
  { tourId := BitVec.ofNat 64 (pkTourId p.rd), state := .loaded, loading := true, mask := BitVec.ofNat 32 (pkMask p.rd),
    policy := pkPolicy p.rd, budget := pkBudget p.rd, slack := pkSlack p.rd, hold := pkHold p.rd, joint := pkJoint p.rd == 1,
    bindings := pkBindingList p.rd, ops := pkOpList p.rd, spans := pkSpanList p.rd, watts := pkWattList p.rd,
    package := p.bytes,
    claims := (p.gals.flatMap (fun g => (imgScheds (p.image g)).map (fun c => ({ stack := c.stack, half := c.half == 1 } : Claim)))).eraseDups,
    locked := [], hdr := { src := .mbox, tag := 0, irq := false, fence := false }, opcode := 0, start := 0, deadline := 0,
    slips := Vector.replicate 4 0, slipLog := [], walk := [], next := Vector.replicate 32 0, status := .none,
    faultAt := { step := 0, gallery := 0, station := 0, cause := 0, stepCycle := 0 }, endTick := 0, stopAt := 0,
    restore := .none, waitFor := [], compared := 0, samples := [], halted := false, away := 0, kept := [], missed := [] }

/-- The inactive bank of gallery `g` holds a tour that is loaded or accepted (R213). -/
def bankBusy (s : State) (g : Nat) : Bool :=
  let b := inactiveBank (galOf s g)
  b.status == .loaded || b.status == .accepted

def setInactive (st : BankState) (g : Nat) (s : State) : State :=
  modGal s g (modInactive (fun b => { b with status := st }))

/-- The package as the Docent reads it: bytes, or a refusal (16 R354; log entry 61). -/
def readPackage (src addr bytes : Nat) (s : State) : (BitVec 16 × List Byte) × State :=
  if 1 < src then ((stBadParam, []), s)
  else if src = 0 then (if hostReady s then ((stOk, hostGet s addr bytes), s) else ((stNotReady, []), s))
  else if hbmBytes < addr + bytes then ((stAddressRange, []), s)
  else if 0 < bytes && !hbmUsable s addr bytes then ((stNotReady, []), s)
  else
    let (bs, bad, s) := hubRead s addr bytes
    if bad.isSome then ((stRegionPoisoned, []), s) else ((stOk, bs), s)

/-- Locks the bound entries whose CRC is sound. -/
def lockEntries (cats : List Nat) (s : State) : State :=
  cats.foldl (fun x i => modEnt i (fun e => { e with locked := true }) x) s

/-- The image, twiddle words and tags of a loaded tour land in a bank, whose counters clear (08 R177). -/
def landImage (t : Tour) (tags : SMem Quad) (g : Nat) (s : State) : State :=
  let rd := tourImage t g
  let at_ := pkImage (tourRd t) g
  let bytes := (t.package.drop at_).take (imgBytes rd)
  let words := nats32 (((t.package.drop (at_ + imgBytes rd))).take (4 * imgTwWords rd))
  modGal s g (modInactive (fun _ =>
    { status := .loaded, store := smCells 0 0 bytes, twiddle := smCells 0 0 (words.map (BitVec.ofNat 32)), tags := tags,
      counters := CounterSet.zero }))

/-- The images of a package that passed its checks land. Completed tours whose banks are now reloaded are no longer known
(log entry 62). -/
def landTour (t : Tour) (s : State) : State :=
  let tags := smCells 0 0 (t.bindings.map (fun b => (catEnt s b.cat).tag))
  let s := (maskList t.mask).foldl (fun x g => landImage t tags g x) s
  { s with tours := s.tours.filter (fun o => o.state != .completed || (o.mask &&& t.mask) == 0) }

/-- Loading a package: what can be refused at once is refused in the REPLY; the checks of R212 and the chapters report in the DONE
entry. A tour counts as loaded from here on (16 R351), so the images of one that passes land here; one that fails holds its
banks until its DONE entry. -/
def loadPackage (bs : List Byte) (s : State) : Answer × State :=
  if bs.length < 64 then (ansFail stBadParam, s)
  else
    let p := pkgOf bs
    let id := BitVec.ofNat 64 (pkTourId p.rd)
    match checkManifest s p with
    | some b => (ansLong (.tourLoad id b.st (BitVec.ofNat 32 b.detail)), s)
    | .none =>
      let busy := p.gals.filter (bankBusy s)
      if !catExists s && decide (0 < pkBindings p.rd) then (ansFail stNotReady, s)
      else if !busy.isEmpty then
        (ansFail stStoreBusy, busy.foldl (fun x g => modRegs x g (fun r => { r with busyRefusals := bump8 r.busyRefusals })) s)
      else if s.tours.any (fun t => tourLive t && t.tourId == id) then (ansFail stBadParam, s)
      else
        let bad := checkPackage s p
        let t := newTour p
        let bound := (t.bindings.map (·.cat)).eraseDups
        let cats := bound.filter (entSound s)
        let s := readEnts bound s
        let s := lockEntries cats { s with tours := { t with locked := cats } :: s.tours.filter (fun o => o.tourId != id) }
        let s := p.gals.foldl (fun x g => setInactive .loaded g x) s
        match bad with
        | some b => (ansLong (.tourLoad id b.st (BitVec.ofNat 32 b.detail)), s)
        | .none => (ansLong (.tourLoad id stOk 0), landTour t s)

/-- TOUR_LOAD. -/
def doTourLoad (src addr bytes : Nat) (s : State) : Answer × State :=
  let ((st, bs), s) := readPackage src addr bytes s
  if st ≠ stOk then (ansFail st, s) else loadPackage bs s

/-- Takes a tour away, with its locks, and frees the banks it holds. -/
def dropTour (t : Tour) (s : State) : State :=
  let s := unlockEntries t s
  let s := (maskList t.mask).foldl (fun x g => setInactive .free g x) s
  { s with tours := s.tours.filter (fun o => o.tourId != t.tourId) }

/-- The end of the load of a tour: a failed one is gone. -/
def finishTourLoad (id : Quad) (st : BitVec 16) (detail : Word) (s : State) : Answer × State :=
  match s.tours.find? (fun t => t.tourId == id && t.loading) with
  | .none => (ansFailAt (if st = stOk then stNotReady else st) detail.toNat, s)
  | some t =>
    if st ≠ stOk then (ansFailAt st detail.toNat, dropTour t s)
    else (ansRes (leBytes 8 id.toNat), modTour s id (fun x => { x with loading := false }))

def doTourLoadDone (i : Nat) (s : State) : State :=
  match s.host.longWork[i]? with
  | some w =>
    match w.kind with
    | .tourLoad id st detail =>
      let (a, s) := finishTourLoad id st detail (takeWork i s).2
      writeDone s w.hdr w.opcode a
    | _ => s
  | .none => s

/-- TOUR_UNLOAD (R213). -/
def doTourUnload (id : Quad) (s : State) : Answer × State :=
  match tourOf s id with
  | .none => (ansFail stBadParam, s)
  | some t =>
    if t.state = .completed then (ansFail stBadParam, s)
    else if t.state ≠ .loaded ∨ t.loading then (ansFail stNotReady, s)
    else (ansOk, dropTour t s)

/-- TOUR_QUERY (16 Table 16-6). -/
def doTourQuery (id : Quad) (s : State) : Answer × State :=
  let code := fun (st : TourState) => match st with | .loaded => 1 | .accepted => 2 | .running => 3 | .completed => 4
  match tourOf s id with
  | .none => (ansRes (leBytes 16 0), s)
  | some t => (ansRes (leBytes 4 (code t.state) ++ leBytes 4 t.mask.toNat ++ leBytes 8 t.start), s)

/-! ### The admission walk (06 R128 to R133) -/

/-- What the walk knows of a Catalogue entry before any primitive writes it. -/
def entWalk (i : Nat) (x : CatEnt) : WalkOut :=
  { cat := i, kind := x.kind, components := x.components, form := x.form == 1, limbs := x.limbs, scaleExp := x.scaleExp,
    budget := x.budget, exhausted := x.exhausted, tag := x.tag, logN := x.logN, mode := x.mode, ptMod := x.ptMod,
    special := x.special, layout := x.layout }

/-- The entry of binding `i` was written by an earlier primitive, through whichever binding (06 R129). -/
def written (bs : List Binding) (ws : List WalkOut) (i : Nat) : Bool := ws.any (fun w => w.cat == bindCat bs i)

/-- The entry of binding `i` as the walk finds it; `fresh` holds what inserted Restorations leave of their inputs. -/
def walkObj (s : State) (bs : List Binding) (fresh ws : List WalkOut) (i : Nat) : WalkOut :=
  match (ws ++ fresh).find? (fun w => w.cat == bindCat bs i) with
  | some w => w
  | .none => entWalk (bindCat bs i) (boundEnt s bs i)

/-- COMPONENTS of the ciphertext inputs (Table 06-6a). -/
def componentsOk (code a b : Nat) : Bool :=
  if code ≤ 1 then (a == 2 || a == 3) && a == b
  else if code = 2 ∨ code = 3 ∨ code = 9 then a == 2 || a == 3
  else if code = 4 then a == 2 && b == 2
  else if code = 5 then a == 3
  else a == 2

/-- KEY_KIND that a primitive consumes, and its exponent. -/
def primKeyKind (code : Nat) : Nat := if code = 0xC then 0x10 else code - 4
def primAuto (code logN param : Nat) : Nat := if code = 6 then param else if code = 7 then 2 * 2 ^ logN - 1 else 1

/-- log2 q in 1/256 bit, ties rounded up (06, after R133). -/
def logScale (q : Nat) : Nat := Nat.log2 (2 * q ^ 512) / 2

/-- SCALE_EXP of a result; negative when it would fall below 0. -/
def resultScale (s : State) (code : Nat) (a b : WalkOut) : Int :=
  if code = 3 ∨ code = 4 then (a.scaleExp : Int) + b.scaleExp
  else if code = 9 ∧ a.mode = 1 then (a.scaleExp : Int) - logScale (pbQ ((blockOf s a.tag).getD []) (a.limbs - 1))
  else a.scaleExp

/-- The index of EXTERNAL_PRODUCT is not below LWE_DIM of the key's refresh descriptor, when the key has one that can be read. -/
def lweDimFails (s : State) (key : CatEnt) (idx i : Nat) : Bool :=
  key.kind == kindKey && decide (0x10 ≤ key.keyKind) && objReadable s idx && decide (rdLweDim (keyDesc s idx) ≤ i)

/-- The first failing condition of Table 06-8 for a primitive, less its last row; OK when none fails. -/
def primCheck (s : State) (bs : List Binding) (fresh ws : List WalkOut) (o : Prim) : BitVec 16 :=
  let a := walkObj s bs fresh ws o.in0
  let b := walkObj s bs fresh ws o.in1
  let two := hasIn1 o
  let key := boundEnt s bs o.key
  let c := o.code
  let level := a.limbs - 1
  let bad := fun (i : Nat) => !written bs ws i && (boundEnt s bs i).poisoned
  let block := blockOf s a.tag
  if !s.cat.costLoaded then stNotReady
  else if bad o.in0 || (two && bad o.in1) || (hasKey o && key.poisoned) then stRegionPoisoned
  else if two && (a.logN != b.logN || a.limbs != b.limbs) then stBadParam
  else if !componentsOk c a.components b.components then stBadParam
  else if ((c == 0xA || c == 0xB) && level != 0) ||
      (c == 0xA && (match block with | some pb => decide (pbD pb < o.param) | .none => false)) ||
      (c == 0xB && decide (2 ^ a.logN ≤ o.param)) ||
      (c == 0xC && lweDimFails s key (bindCat bs o.key) o.param) then stBadParam
  else if (two && a.tag != b.tag) || (hasKey o && key.tag != a.tag) then stKeyMismatch
  else if hasKey o && (key.keyKind != primKeyKind c || key.autoA != primAuto c a.logN o.param || decide (level < key.levelMin) ||
      decide (key.levelMax < level)) then stKeyMismatch
  else if hasKey o && (key.space != 0 || key.loading) then stNotReady
  else if (c == 0xA || (c == 9 && a.mode == 1)) && block.isNone then stNotReady
  else if (two && (a.mode != b.mode || a.ptMod != b.ptMod)) || (decide (c ≤ 2) && a.scaleExp != b.scaleExp) ||
      decide (resultScale s c a b < 0) || decide (65535 < resultScale s c a b) then stScaleMismatch
  else if (c == 3 || c == 4 || c == 9) && level == 0 then stLevelUnderflow
  else stOk

/-- The budget of a result before it is compared with 0 (R130). -/
def resultBudget (s : State) (o : Prim) (a b : WalkOut) : Int :=
  let least := if hasIn1 o && primIn1Kind o.code == kindCipher then min a.budget b.budget else a.budget
  (least : Int) - costOf s o.code (a.limbs - 1)

/-- The result of a primitive (R129, R133, R475, R476). -/
def primResult (s : State) (bs : List Binding) (o : Prim) (a b : WalkOut) : WalkOut :=
  let c := o.code
  let budget := resultBudget s o a b
  let keyAddr := (boundEnt s bs o.key).addr
  { a with
    cat := bindCat bs o.out, kind := primKind c,
    components := if c = 4 then 3 else if c = 0xB then 0 else if 5 ≤ c ∧ c ≠ 9 then 2 else a.components,
    form := if c = 0xB then false else if (5 ≤ c ∧ c ≤ 8) ∨ c = 0xC then true else a.form,
    limbs := if c = 9 then a.limbs - 1 else if c = 0xA then o.param else a.limbs,
    scaleExp := (resultScale s c a b).toNat, budget := budget.toNat,
    exhausted := a.exhausted || (hasIn1 o && b.exhausted) || decide (budget < 0),
    tag := if c = 8 then BitVec.ofNat 64 (khTarget (hbmGet s keyAddr 64)) else a.tag }

/-- Where the walk of an operation list ends: its outputs, a refusal with the index of the primitive, or inputs that the
restore policy asks to refresh. -/
inductive WalkEnd where
  | outputs (ws : List WalkOut)
  | refused (st : BitVec 16) (index : Nat)
  | refresh (inputs : List Nat) (index : Nat)
  deriving DecidableEq, Repr

/-- The walk (R128, R129, R132). `ws` holds what has been written so far. -/
def walkOps (s : State) (t : Tour) (fresh : List WalkOut) : Nat → List Prim → List WalkOut → WalkEnd
  | _, [], ws => .outputs ws
  | j, o :: os, ws =>
    let a := walkObj s t.bindings fresh ws o.in0
    let b := walkObj s t.bindings fresh ws o.in1
    let st := primCheck s t.bindings fresh ws o
    let ins := o.in0 :: (if hasIn1 o && primIn1Kind o.code == kindCipher then [o.in1] else [])
    if st ≠ stOk then .refused st j
    else if resultBudget s o a b < 0 ∧ t.policy ≠ 2 then
      if t.policy = 1 ∧ ins.all (fun i => !written t.bindings ws i) then .refresh ins.eraseDups j else .refused stBudgetExhausted j
    else
      let r := primResult s t.bindings o a b
      walkOps s t fresh (j + 1) os (r :: ws.filter (fun w => w.cat != r.cat))

/-! ### The start tick (02 R37, R38; 20 R433, R434) -/

/-- An average input power planned over some ticks. -/
structure Seg where
  lo : Nat
  hi : Nat
  w  : Nat
  deriving DecidableEq, Repr

/-- WATTS as admission charges them (11 R238). -/
def chargeOf (s : State) (w : Nat) : Nat := if s.sec.debug then ceilDiv (17 * w) 16 else w

/-- The windows of a profile, slips included, for a tour from tick `start` to its deadline tick (R433). -/
def profileSegs (s : State) (t : Tour) (start : Nat) : List Seg :=
  ((List.range t.watts.length).zip t.watts).map (fun (i, w) =>
    { lo := start + windowTicks * i, hi := min (start + windowTicks * (i + 1) + t.slack) (start + t.budget + t.slack), w := chargeOf s w })

/-- The tours that hold galleries and power up to their deadlines: those accepted, and those completed before their
deadline (R37, 20 R433; log entry 127). -/
def acceptedTours (s : State) : List Tour := s.tours.filter tourAccepted ++ s.booked

/-- The charge of a tour at a tick: the largest of its windows there. -/
def chargeAt (segs : List Seg) (k : Nat) : Nat :=
  segs.foldl (fun m g => if g.lo ≤ k ∧ k < g.hi then max m g.w else m) 0

/-- The non-tour allowance at a tick, rounded up to a whole watt; `mask` is the candidate's (Table 20-5, R434). -/
def allowanceAt (s : State) (mask : BitVec 32) (k : Nat) : Nat :=
  let named := fun (g : Nat) => mask.getLsbD g ||
    (acceptedTours s).any (fun t => t.mask.getLsbD g && decide (t.start ≤ k) && decide (k < t.deadline))
  let idle := ((List.range (numGal s)).filter (fun g => (galOf s g).regs.clockOn && !named g)).length
  let stks := ((List.range 8).filter (fun i => s.hbm.trained.getLsbD i)).length
  let ports := ((List.range 8).filter (fun i => (portOf s i).up)).length
  132 + 41 * stks + 64 * bit01 s.vault.isOpen + 22 * bit01 s.host.link.up + 16 * ports + ceilDiv (43 * idle) 10

/-- What is charged at a tick before the candidate. -/
def loadAt (s : State) (mask : BitVec 32) (k : Nat) : Nat :=
  allowanceAt s mask k + sumNat ((acceptedTours s).map (fun t => chargeAt (profileSegs s t t.start) k))

/-- Ticks at which `loadAt` may change. -/
def loadTicks (s : State) : List Nat :=
  (0 :: (acceptedTours s).flatMap (fun t =>
    t.start :: t.deadline :: (profileSegs s t t.start).flatMap (fun g => [g.lo, g.hi]))).eraseDups

/-- Start ticks at which some window of the candidate meets a load above the limit: from the first to the last of a run
(none: every later tick). -/
def barredStarts (s : State) (t : Tour) : List (Nat × Option Nat) :=
  let ticks := loadTicks s
  let limit := s.power.limit.toNat
  ticks.flatMap (fun p =>
    let load := loadAt s t.mask p
    let next := (ticks.filter (fun q => decide (p < q))).foldl (fun m q => match m with | .none => some q | some x => some (min x q)) .none
    (profileSegs s t 0).filterMap (fun g =>
      if g.lo < g.hi ∧ limit < load + g.w then
        (match next with
         | some q => if g.lo < q then some (p + 1 - g.hi, some (q - g.lo - 1)) else .none
         | .none => some (p + 1 - g.hi, .none))
      else .none))

/-- The first start tick from `k` on that no run bars. -/
def firstStart : Nat → List (Nat × Option Nat) → Nat → Option Nat
  | 0, _, _ => .none
  | n + 1, runs, k =>
    match runs.find? (fun r => decide (r.1 ≤ k) && (match r.2 with | some e => decide (k ≤ e) | .none => true)) with
    | .none => some k
    | some (_, .none) => .none
    | some (_, some e) => firstStart n runs (e + 1)

/-! ### What a checkpoint asks of admission (18 R390, R391) -/

/-- The entries that hold an object; none without a Catalogue. -/
def heldEnts (s : State) : List Nat := if catExists s then (usedEnts s).filter (fun i => (catEnt s i).kind != kindFree) else []

/-- Items in scope, in staging order; sealed regions among the regions (R391, R392). -/
def ckptItems (s : State) (scope : BitVec 8) : List CkptItem :=
  let objs := (heldEnts s).filter (fun i =>
    let e := catEnt s i
    e.space == 0 && (if e.kind = kindKey then scope.getLsbD 1 else scope.getLsbD 0))
  (if scope.getLsbD 0 && catExists s then [.catalogue] else []) ++ objs.map .object ++
    (if scope.getLsbD 2 then
      (List.range (numGal s)).flatMap (fun g => ((List.range 64).filter (fun j => (rgnOf s g j).valid)).map (.region g))
     else [])

/-- Regions that a tour writes. -/
def tourRegions (s : State) (t : Tour) : List (Nat × Nat) :=
  if t.restore.isSome then (maskList t.mask).flatMap (fun g => (List.range 4).map (fun i => (g, 60 + i)))
  else (maskList t.mask).flatMap (fun g => writesFrom s t g 0)

/-- A tour writes an item (R390): through a write binding, a WR_MASK or a Catalogue write. -/
def tourWrites (s : State) (t : Tour) (x : CkptItem) : Bool :=
  match x with
  | .catalogue => !t.bindings.isEmpty
  | .object i => t.bindings.any (fun b => b.writes && b.cat == i)
  | .region g r => (tourRegions s t).contains (g, r)

/-- The latest deadline of the accepted tours that write one of some items. -/
def lastWriter (s : State) (xs : List CkptItem) : Nat :=
  (s.tours.filter (fun t => tourAccepted t && xs.any (tourWrites s t))).foldl (fun m t => max m t.deadline) 0

/-- The least start tick that a checkpoint in progress leaves a tour, none when no tick can be named yet. A portable
checkpoint that waits for its cut admits no tour; a writer of an item still to stage starts some ticks after the last tour that
writes what is staged up to it, a free value: TOUR_START finds it staged (log entry 63). -/
def ckptFloor (t : Tour) (s : State) : Option Nat × State :=
  let after := fun (base : Nat) (xs : List CkptItem) =>
    let (v, s) := freeBits 32 s
    ((some (max base (lastWriter s xs) + v.toNat) : Option Nat), s)
  match s.health.stage, s.health.job with
  | .waitingCut, some j =>
    if j.kind.getLsbD 0 then (.none, s)
    else if (ckptItems s j.scope).any (tourWrites s t) then after s.health.cut (ckptItems s j.scope)
    else (some s.health.cut, s)
  | .staging, some j =>
    if j.todo.any (fun x => tourWrites s t x.item) then after s.time.now (j.todo.map (·.item)) else (some 0, s)
  | _, _ => (some 0, s)

/-! ### The conditions of Table 02-8 -/

/-- Regions that a tour declares ready-at-start are ready. -/
def startReady (s : State) (t : Tour) : Bool :=
  (maskList t.mask).all (fun g => t.restore.isSome ||
    (imgRegions (tourImage t g)).all (fun e => !e.ras || (rgnOf s g e.region).ready))

/-- Two tours share a gallery or a claim (R37, 11 R236). -/
def tourShares (a b : Tour) : Bool := (a.mask &&& b.mask) != 0 || a.claims.any (fun c => b.claims.contains c)

/-- Stacks that the tour's stream schedules name, or on which a Restoration's objects lie. -/
def tourStacks (s : State) (t : Tour) : List Nat := (List.range 8).filter (usesStack s t)

/-- The clock and stack condition, with a training or a start of the galleries under way taken as done (16 R351). -/
def islandsReady (s : State) (t : Tour) : Bool :=
  (maskList t.mask).all (fun g => s.time.islandLock.getLsbD g || working s (· == .galleriesStart true)) &&
    (tourStacks s t).all (fun k => (trainedOrDue s).getLsbD k && (s.time.islandLock.getLsbD (32 + k) || !s.hbm.trained.getLsbD k))

/-- The earliest tick that NOT_BEFORE and the lead allow (R37, R39). -/
def plainStart (s : State) (notBefore : Nat) : Nat := max notBefore (s.time.now + 256)

/-- Table 02-8 for a tour whose image is loaded: the start tick, or none (every condition refuses with NOT_READY). -/
def findStart (t : Tour) (notBefore limit : Nat) (s : State) : Option Nat × State :=
  let (ck, s) := ckptFloor t s
  match ck with
  | .none => (.none, s)
  | some c =>
    let low := (((acceptedTours s).filter (tourShares t)).map (·.deadline)).foldl max (max c (plainStart s notBefore))
    let runs := barredStarts s t
    if !startReady s t || (t.joint && (!s.time.aligned || s.time.holdover)) || !islandsReady s t then (.none, s)
    else
      match firstStart (runs.length + 1) runs low with
      | some k => if limit ≠ 0 ∧ limit < k + t.budget + t.slack then (.none, s) else (some k, s)
      | .none => (.none, s)

/-! ### Acceptance (02 R38, R39; 19 R413) -/

/-- TOUR_LOG takes up a package by its digest and the start tick (R413). -/
def logTour (digest : List Byte) (start : Nat) (s : State) : State :=
  { s with sec := { s.sec with
    tourLog := BitVec.ofNat 512 (leNat (sha512 (leBytes 64 s.sec.tourLog.toNat ++ digest ++ leBytes 8 start))),
    tourCount := s.sec.tourCount + 1 } }

/-- A tour becomes accepted with its start tick, and stands before every tour accepted earlier. -/
def acceptTour (id : Quad) (h : Hdr) (op : BitVec 16) (start : Nat) (s : State) : State :=
  let s := { s with tours := s.tours.filter (fun t => t.tourId == id) ++ s.tours.filter (fun t => t.tourId != id) }
  let s := modTour s id (fun t => { t with
    state := .accepted, hdr := h, opcode := op, start := start, deadline := start + t.budget + t.slack, endTick := start })
  match h.src with
  | .qp q => modQp s q.toNat (fun x => { x with tours := x.tours + 1 })
  | .mbox => s

/-- RESULT of an admission: start and deadline ticks. -/
def startResult (t : Tour) (start : Nat) : List Byte := leBytes 8 start ++ leBytes 8 (start + t.budget + t.slack)

/-! ### Restoration tours (07 R148 to R155) -/

/-- A Restoration submission after its parameters are read. -/
structure RestoreReq where
  input     : Nat
  output    : Nat
  keyR      : Nat
  keyX      : Nat
  keyP      : Nat
  slotsLog  : Nat
  outLimbs  : Nat
  policy    : Nat
  inBits    : Nat
  outBits   : Nat
  lut       : List Nat
  lutIndex  : Option Nat
  autoIns   : Option Quad
  deriving DecidableEq, Repr

/-- IN_BITS, OUT_BITS and entries of a lookup table's 128 bytes, when its header is sound (Table 07-5a). -/
def readLut (b : List Byte) : Option (Nat × Nat × List Nat) :=
  let i := bytesAt b 4 1
  let o := bytesAt b 5 1
  if bytesAt b 0 4 = 0x4B5A4C54 ∧ 1 ≤ i ∧ i ≤ 6 ∧ 1 ≤ o ∧ o ≤ 8 ∧ bytesAt b 6 54 = 0 ∧
      crc32c (b.take 60 ++ (b.drop 64).take 64) = bytesAt b 60 4 then
    some (i, o, (List.range 64).map (fun k => bytesAt b (64 + k) 1))
  else .none

/-- The three descriptors are equal byte for byte; one that the Docent cannot read is left to the residency row. -/
def descriptorsEqual (s : State) (q : RestoreReq) : Bool :=
  let ds := ([q.keyR, q.keyX, q.keyP].filter (objReadable s)).map (keyDesc s)
  ds.all (fun d => ds.all (fun e => d == e))

/-- Row by row, Table 07-5; OK when no condition fails. A bank that the submitted tour itself holds is not another tour; a load counts
from its REPLY on, one that will fail too (16 R351). -/
def restoreCheck (s : State) (q : RestoreReq) : BitVec 16 :=
  let x := catEnt s q.input
  let keys := [q.keyR, q.keyX, q.keyP].map (catEnt s)
  let lut := q.lutIndex.map (catEnt s)
  let banked := (List.range (numGal s)).any (fun g => bankBusy s g &&
    !s.tours.any (fun t => some t.tourId == q.autoIns && t.mask.getLsbD g))
  let loads := working s (fun k => match k with | .tourLoad i _ _ => some i != q.autoIns | _ => false)
  if !restorationOn s || !catExists s || banked || loads || !s.cat.costLoaded then stNotReady
  else if x.poisoned || (lut.map (·.poisoned)).getD false then stRegionPoisoned
  else if keys.any (fun k => k.tag != x.tag) || keys.map (·.keyKind) != [0x10, 0x11, 0x12] || !descriptorsEqual s q then stKeyMismatch
  else if (keys.drop 1).any (fun k => k.logN != x.logN) then stKeyMismatch
  else if keys.any (fun k => k.space != 0 || k.loading) || (match lut with | some l => l.space != 0 || l.loading | .none => false) then
    stNotReady
  else if q.inBits == 0 || decide (x.logN < q.slotsLog) || q.outLimbs == 0 || decide ((catEnt s q.keyP).limbs < q.outLimbs) then
    stBadParam
  else if x.mode != 0 || x.ptMod != 2 ^ (q.inBits + 1) then stScaleMismatch
  else if decide (x.budget < costOf s 0xD (x.limbs - 1)) && q.policy != 2 then stBudgetExhausted
  else stOk

/-- What a Restoration leaves in its output entry (R139, R150, R151). Log entry 151: where the RESCALE costs exceed FRESH_BUDGET the
budget is 0, and a marked input whose BUDGET of 0 meets a cost of 0 is refreshed like another. -/
def restoreOut (s : State) (q : RestoreReq) : WalkOut :=
  let x := catEnt s q.input
  let lf := (catEnt s q.keyP).limbs
  let mark := decide (x.budget < costOf s 0xD (x.limbs - 1))
  let spent := sumNat ((List.range (lf - q.outLimbs)).map (fun i => costOf s 9 (lf - 1 - i)))
  { entWalk q.output x with
    kind := kindCipher, components := 2, form := true, limbs := q.outLimbs, scaleExp := 0,
    budget := if mark then 0 else rdFresh (keyDesc s q.keyR) - spent, exhausted := x.exhausted || mark, mode := 0,
    ptMod := 2 ^ q.outBits, layout := 0 }

/-- The tick budget of a Restoration (R152). -/
def restoreBudget (s : State) (q : RestoreReq) : Nat :=
  let (t1, t2, t3) := restoreStages s q.input q.keyR q.keyX q.keyP q.slotsLog
  t1 + t2 + t3

/-- A TOUR_ID that no tour bears, for a tour the Docent builds (log entry 64). -/
def builtId (s : State) : Quad :=
  let n := (List.range (s.tours.length + 1)).find? (fun i => (tourOf s (BitVec.ofNat 64 (2 ^ 64 - 1 - i))).isNone)
  BitVec.ofNat 64 (2 ^ 64 - 1 - n.getD 0)

/-- The macro tour of a submission. Its energy profile is the Docent's own: free values (log entry 65). -/
def buildRestore (q : RestoreReq) (s : State) : Tour × State :=
  let b := restoreBudget s q
  let n := ceilDiv b windowTicks
  let (v, s) := freeBits (16 * n) s
  let lut := q.lutIndex.toList
  let bind := fun (r w : Bool) (c : Nat) => ({ cat := c, reads := r, writes := w } : Binding)
  let bs := [bind true false q.input, bind false true q.output] ++ (lut ++ [q.keyR, q.keyX, q.keyP]).map (bind true false)
  let stks := [q.input, q.output, q.keyR, q.keyX, q.keyP].flatMap (objStacks s)
  let t : Tour := { newTour (pkgOf []) with
    tourId := builtId s, loading := false, mask := BitVec.ofNat 32 (2 ^ numGal s - 1), policy := q.policy, budget := b,
    bindings := bs, watts := (List.range n).map (fun i => fieldAt v.toNat (16 * i) 16), package := [],
    claims := (stackOf s.rst.scratch :: stks).eraseDups.flatMap (fun k => [⟨k, false⟩, ⟨k, true⟩]),
    locked := (bs.map (·.cat)).eraseDups, walk := [restoreOut s q],
    restore := some { input := q.input, output := q.output, lut := q.lut, inBits := q.inBits, outBits := q.outBits,
                      keyR := q.keyR, keyX := q.keyX, keyP := q.keyP, slotsLog := q.slotsLog, outLimbs := q.outLimbs,
                      autoIns := q.autoIns, checks := [] } }
  (t, s)

/-- B60 to B63 are refilled with zeros after a fault (R153). -/
def refillReserve (s : State) : State :=
  if s.rst.refill then
    let s := foldRange (numGal s) (fun g x => foldRange 4 (fun i y => landFill g (60 + i) 0 y) x) s
    { s with rst := { s.rst with refill := false } }
  else s

/-- CRCs and KINDs of the entries that a Restoration binds (06 R118, R475). -/
def restoreBound (s : State) (q : RestoreReq) : Bool :=
  ([q.input, q.output, q.keyR, q.keyX, q.keyP] ++ q.lutIndex.toList).all (entSound s) && (catEnt s q.input).kind == kindCipher &&
    ((catEnt s q.output).kind == kindFree || (catEnt s q.output).kind == kindCipher) &&
    [q.keyR, q.keyX, q.keyP].all (fun k => (catEnt s k).kind == kindKey) &&
    (match q.lutIndex with | some l => (catEnt s l).kind == kindTensor | .none => true)

/-- Builds and admits a Restoration: Table 07-5, then the load of the built tour (06 R118), then Table 02-8 (R149). Its TOUR_ID and
start tick, or the status of its refusal. A submitted one takes the inactive banks of every gallery, an inserted one leaves them to
the submitted tour. -/
def admitRestore (h : Hdr) (q : RestoreReq) (notBefore limit : Nat) (s : State) : (BitVec 16 × Quad × Nat) × State :=
  let st := restoreCheck s q
  if st ≠ stOk then ((st, 0, 0), s)
  else if !restoreBound s q then ((stBadParam, 0, 0), s)
  else
    let (t, s) := buildRestore q s
    let (k, s) := findStart t notBefore limit s
    match k with
    | .none => ((stNotReady, 0, 0), s)
    | some start =>
      let s := refillReserve s
      let s := lockEntries t.locked { s with tours := t :: s.tours }
      let s := if q.autoIns.isNone then (maskList t.mask).foldl (fun x g => setInactive .accepted g x) s else s
      let s := if q.autoIns.isSome then { s with rst := { s.rst with autoRuns := bump8 s.rst.autoRuns } } else s
      let s := acceptTour t.tourId h 0x0303 start s
      let (d, s) := freeBits 512 s
      ((stOk, t.tourId, start), logTour (leBytes 64 d.toNat) start s)

/-! ### Submissions -/

/-- IN_BITS of an input that the restore policy may refresh (R154). -/
def autoInBits (x : CatEnt) : Nat := ((List.range 6).map (· + 1)).find? (fun i => x.ptMod == 2 ^ (i + 1)) |>.getD 0

/-- The refresh key sets that a tour binds for a tag, in binding order: three keys of kinds 0x10, 0x11 and 0x12 whose descriptors are
equal byte for byte (07, after R142). -/
def boundSets (s : State) (t : Tour) (tag : Quad) : List (Nat × Nat × Nat) :=
  let pick := fun (kind : Nat) => ((t.bindings.map (·.cat)).eraseDups).filter (fun i =>
    let e := catEnt s i
    e.kind == kindKey && e.keyKind == kind && e.tag == tag && objReadable s i)
  (pick 0x10).flatMap (fun a => ((pick 0x11).filter (fun b => keyDesc s b == keyDesc s a)).flatMap (fun b =>
    ((pick 0x12).filter (fun c => keyDesc s c == keyDesc s a)).map (fun c => (a, b, c))))

/-- The Restoration that the Registrar would insert for binding `i`, when it may (R154, R155). -/
def autoRequest (s : State) (t : Tour) (i : Nat) : Option RestoreReq :=
  let cat := bindCat t.bindings i
  let x := catEnt s cat
  match (boundSets s t x.tag).find? (fun k => decide (x.limbs ≤ (catEnt s k.2.2).limbs)) with
  | some (r, k, p) =>
    let bits := autoInBits x
    if restorationOn s && x.mode == 0 && decide (0 < bits) then
      some { input := cat, output := cat, keyR := r, keyX := k, keyP := p, slotsLog := rdSlots (keyDesc s r), outLimbs := x.limbs,
             policy := t.policy, inBits := bits, outBits := bits + 1, lut := List.range 64, lutIndex := .none,
             autoIns := some t.tourId }
    else .none
  | .none => .none

/-- The walk with the Restorations it asks for: outputs with the bindings to refresh, or a refusal. An entry is refreshed once, through
the lowest binding that names it where a primitive has it twice (log entry 146); a budget that still falls short is exhausted. -/
def walkWithRestores (s : State) (t : Tour) : Nat → List (Nat × RestoreReq) → (BitVec 16 × Nat) ⊕ (List WalkOut × List (Nat × RestoreReq))
  | 0, _ => .inl (stBudgetExhausted, 0)
  | n + 1, done =>
    match walkOps s t (done.map (fun d => restoreOut s d.2)) 0 t.ops [] with
    | .outputs ws => .inr (ws, done)
    | .refused st j => .inl (st, j)
    | .refresh ins j =>
      let twin := fun (i k : Nat) => decide (k < i) && bindCat t.bindings k == bindCat t.bindings i
      let more := ins.filter (fun i => !done.any (fun d => d.2.input == bindCat t.bindings i) && !ins.any (twin i))
      let reqs := more.map (fun i => (autoRequest s t i).map (fun q => (i, q)))
      if more.isEmpty || reqs.any (·.isNone) then .inl (stBudgetExhausted, j)
      else walkWithRestores s t n (done ++ reqs.filterMap id)

/-- Admits the inserted Restorations in binding order (R155): their TOUR_IDs and the latest deadline, or a refusal. -/
def admitInserted (h : Hdr) : List RestoreReq → State → (BitVec 16 × List Quad) × State
  | [], s => ((stOk, []), s)
  | q :: qs, s =>
    let ((st, id, _), s) := admitRestore h q 0 0 s
    if st ≠ stOk then ((st, []), s)
    else
      let ((st, ids), s) := admitInserted h qs s
      ((st, id :: ids), s)

/-- Inserted requests in binding order. -/
def inBindingOrder (n : Nat) (l : List (Nat × RestoreReq)) : List RestoreReq :=
  (List.range n).filterMap (fun i => (l.find? (fun d => d.1 == i)).map (·.2))

/-- A refused submission: nothing is accepted, the refusal is counted, free values stay spent (06 Table 06-12). -/
def refuseSubmit (st : BitVec 16) (j : Nat) (spent : State) (s : State) : Answer × State :=
  (ansFailAt st j, countRefusal st { s with freeCount := spent.freeCount })

/-- The load of a tour is under way and will fail: there is no image to admit (log entry 61). -/
def loadFails (s : State) (id : Quad) : Bool :=
  s.host.longWork.any (fun w => match w.kind with | .tourLoad i st _ => i == id && st != stOk | _ => false)

/-- A poisoned entry is bound to be read though no primitive names it, as a key stream may (06, after R137: R128 refuses any
tour that binds it; log entry 74). -/
def poisonedUnused (s : State) (t : Tour) : Bool :=
  (List.range t.bindings.length).any (fun i =>
    (match t.bindings[i]? with | some b => b.reads && !b.writes | .none => false) && (boundEnt s t.bindings i).poisoned &&
      !t.ops.any (fun o => o.in0 == i || (hasIn1 o && o.in1 == i) || (hasKey o && o.key == i)))

/-- The Registrar reads the entries that a tour binds, and the header and descriptor of each key among them that lies in HBM
(06 R128). -/
def readBound (cats : List Nat) (s : State) : State :=
  cats.foldl (fun x i =>
    let e := catEnt x i
    if e.kind = kindKey ∧ e.space = 0 then noteRange 2 e.addr 2048 x else x) (readEnts cats s)

/-- TOUR_SUBMIT (02 R36 to R39; 06 R128; 16 R351; 20 R438). -/
def doTourSubmit (h : Hdr) (id : Quad) (notBefore limit : Nat) (s : State) : Answer × State :=
  match h.src, tourOf s id with
  | .mbox, _ => (ansFail stBadOpcode, s)
  | .qp _, .none => (ansFail stBadParam, s)
  | .qp _, some t =>
    if s.power.emergency then (ansFail stNotReady, s)
    else if t.state ≠ .loaded ∨ (t.loading && loadFails s id) then (ansFail stBadParam, s)
    else
      let s := readBound ((t.bindings.map (·.cat)).eraseDups) s
      match walkWithRestores s t (t.bindings.length + 1) [] with
      | .inl (st, j) => refuseSubmit st j s s
      | .inr (ws, ins) =>
        if poisonedUnused s t then refuseSubmit stRegionPoisoned 0 s s
        else
        let reqs := inBindingOrder t.bindings.length ins
        let ((st, ids), s') := admitInserted h reqs s
        if st ≠ stOk then refuseSubmit st 0 s' s
        else
          let after := ((ids.filterMap (tourOf s')).map (·.deadline)).foldl max 0
          let t := { t with walk := ws, waitFor := ids }
          let (k, s') := findStart t (max notBefore after) limit s'
          match k with
          | .none => refuseSubmit stNotReady 0 s' s
          | some start =>
            let s' := modTour s' id (fun _ => t)
            let s' := acceptTour id h 0x0302 start s'
            let s' := (maskList t.mask).foldl (fun x g => setInactive .accepted g x) s'
            let s' := logTour (sha512 t.package) start s'
            ({ status := if start = plainStart s notBefore && ids.isEmpty then stOk else stDeferred, detail := 0,
               result := startResult t start, work := .none }, s')

/-- RESTORE_SUBMIT (07 R149). -/
def doRestoreSubmit (h : Hdr) (input output lut keyR keyX keyP notBefore limit slotsLog outLimbs policy : Nat) (s : State) :
    Answer × State :=
  if h.src = .mbox then (ansFail stBadOpcode, s)
  else if s.power.emergency || !catExists s then (ansFail stNotReady, s)
  else if decide (2 < policy) || [input, output, lut, keyR, keyX, keyP].any (fun i => decide (catCount ≤ i)) then (ansFail stBadParam, s)
  else
    let s := readBound ([input, output, lut, keyR, keyX, keyP].eraseDups) s
    let (bs, s) := if (catEnt s lut).space = 0 then docentRead (catEnt s lut).addr 128 s else ([], s)
    let l := (readLut bs).getD (0, 0, [])
    let q : RestoreReq :=
      { input := input, output := output, keyR := keyR, keyX := keyX, keyP := keyP, slotsLog := slotsLog,
        outLimbs := outLimbs, policy := policy, inBits := l.1, outBits := l.2.1, lut := l.2.2, lutIndex := some lut, autoIns := .none }
    let ((st, id, start), s') := admitRestore h q notBefore limit s
    if st ≠ stOk then refuseSubmit st 0 s' s
    else
      ({ status := if start = plainStart s notBefore then stOk else stDeferred, detail := 0,
         result := match tourOf s' id with | some t => startResult t start | .none => [], work := .none }, s')

/-! ### Meanings -/

def execTourLoad (h : Hdr) (srcKind : BitVec 8) (addr : Quad) (bytes : Word) (s : State) : Out :=
  .next (command h 0x0300 (doTourLoad srcKind.toNat addr.toNat bytes.toNat) s)
def execTourLoadDone (work : Nat) (s : State) : Out := .next (doTourLoadDone work s)
def execTourUnload (h : Hdr) (tourId : Quad) (s : State) : Out := .next (command h 0x0301 (doTourUnload tourId) s)
def execTourSubmit (h : Hdr) (tourId notBefore deadlineLimit : Quad) (s : State) : Out :=
  .next (command h 0x0302 (doTourSubmit h tourId notBefore.toNat deadlineLimit.toNat) s)
def execRestoreSubmit (h : Hdr) (input output lut keyRefresh keyExtract keyPack : Word) (notBefore deadlineLimit : Quad)
    (slotsLog outLimbs policy : BitVec 8) (s : State) : Out :=
  .next (command h 0x0303 (doRestoreSubmit h input.toNat output.toNat lut.toNat keyRefresh.toNat keyExtract.toNat keyPack.toNat
    notBefore.toNat deadlineLimit.toNat slotsLog.toNat outLimbs.toNat policy.toNat) s)
def execTourQuery (h : Hdr) (tourId : Quad) (s : State) : Out := .next (command h 0x0304 (doTourQuery tourId) s)

end Sys2Proof.Machine
end

