-- ==== Sys2Proof/Machine/Fabric.lean ====
section
/-!
DEFINITION. Sys2Proof/Machine/Fabric.lean: fabric ports and link keys (17 R360 to R363), module numbers and forwarding (R364 to
R367), loan windows (R368 to R375), party groups (12 R263 to R266), time domains (R376, R377; 02 R43 to R46) and lock-step
comparison (R378 to R383).
-/

set_option Elab.async false

namespace Sys2Proof.Machine

def modLock (s : State) (f : LockStep → LockStep) : State := { s with fab := { s.fab with lockstep := f s.fab.lockstep } }

/-! ### Key agreement (17 R362, 12 R263) -/

/-- An ephemeral key pair: its scalar, and the public key with the signature of the device identity key over it. -/
structure Ephemeral where
  scalar : Nat
  offer  : List Byte
  deriving DecidableEq, Repr

/-- An end draws an ephemeral key pair from the DRBG and signs its public key with the identity key (19 R403). -/
def drawEphemeral (s : State) : Ephemeral × State :=
  let d := drbgScalar s
  let pub := keyBytesOf (pointMul d.1 p521G)
  let sig := identitySign (digestNat pub) (noteOp 1312500 d.2)
  ({ scalar := d.1, offer := pub ++ sig.1 }, sig.2)

/-- The engine's last operation in an agreement: the key agreement, or the verification that failed before it (19 R414). -/
def noteAgreed (ok : Bool) (s : State) : State := noteOp (if ok then 1375000 else 2750000) s

/-- The ephemeral key that an end received is a point of the curve. -/
def offeredKeyOk (o : KeyOffer) : Bool := keyPrefixOk o.key && onCurve (keyX o.key) (keyY o.key)

/-- An AES-256 key from ECDH of an ephemeral scalar with the other end's key. -/
def agreedKey (e : Ephemeral) (o : KeyOffer) (info : Nat) : BitVec 256 :=
  match pointMul e.scalar (some (keyX o.key, keyY o.key)) with
  | some (x, _) => BitVec.ofNat 256 (beNat (deriveKey (beBytes 66 x) (Config.fixedInfo info)))
  | .none => 0

/-- What the outside offered under a number; an end that sends nothing offers nothing valid. -/
def offerAt (o : WorkOutcome) (i : Nat) : KeyOffer :=
  ((o.offers.find? (fun p => p.1 == i)).map (·.2)).getD { key := [], signature := [], chainOk := false }

/-! ### Ports and link protection (17 R360 to R363) -/

/-- PORTS_ENABLE: accepted for any set of ports. -/
def doPortsEnable (ports : BitVec 8) (s : State) : Answer × State := (ansLong (.portsEnable ports), s)

/-- New link keys, one for each direction: both frame counters restart. -/
def keyPort (k : Nat) (e : Ephemeral) (o : KeyOffer) (p : Port) : Port :=
  let dir := bit01 (Config.linkDirection k)
  { p with keyed := true, keyEpoch := p.keyEpoch + 1, frameTx := 0, frameRx := 0, offer := e.offer,
           sendKey := agreedKey e o dir, recvKey := agreedKey e o (1 - dir) }

/-- A port comes up, at four lanes or two. -/
def portUp (two : Bool) (p : Port) : Port :=
  { p with enabled := true, up := true, lanes := if two then 1 else 2, tagFails := [] }

/-- A port goes down: it carries no packet and holds no keys. -/
def portDown (p : Port) : Port :=
  { p with up := false, keyed := false, lanes := 0, frameTx := 0, frameRx := 0, tagFails := [], sendKey := 0, recvKey := 0, offer := [] }

/-- The key agreement of a link: the neighbour's signature, chain and key verify, and the port holds new keys; or it goes down and
AUTH_FAILS advances (R362). -/
def agreeLink (k : Nat) (o : KeyOffer) (s : State) : Bool × State :=
  let r := drawEphemeral s
  let ok := o.chainOk && offeredKeyOk o
  (ok, modPort (noteAgreed ok r.2) k (fun p =>
    if ok then keyPort k r.1 o p else { portDown p with authFails := bump8 p.authFails }))

/-- One port of PORTS_ENABLE trains. In `failed` bit k says that fewer than two lanes trained, bit 8 + k that two did. -/
def trainPort (o : WorkOutcome) (k : Nat) (s : State) : State :=
  let s := modPort s k (fun p => { portDown p with enabled := true })
  if o.failed.getLsbD k then s
  else
    let (ok, s) := agreeLink k (offerAt o k) s
    if ok then modPort s k (portUp (o.failed.getLsbD (8 + k))) else s

/-- The end of PORTS_ENABLE: UP tells which of the named ports came up (R361). -/
def finishPorts (ports : BitVec 8) (o : WorkOutcome) (s : State) : Answer × State :=
  let named := (List.range 8).filter (fun k => ports.getLsbD k)
  let s := named.foldl (fun x k => trainPort o k x) s
  (ansRes [BitVec.ofNat 8 (sumNat ((named.filter (fun k => (portOf s k).up)).map (fun k => 2 ^ k)))], s)

/-- Tag failures within 1 ms of now: 25,000 ticks. -/
def recentTags (now : Nat) (ls : List Nat) : List Nat := ls.filter (fun k => decide (now < k + 25000))

/-- FRAME_RECEIVE (R363): sixteen tag failures within 1 ms retrain the port, with new keys. Before the counter would reach 2^32 the
ends agree new keys first, so no frame is taken there. -/
def doFrame (k : Nat) (tag : FrameTag) (s : State) : State :=
  let p := portOf s k
  if !hubRuns s || !p.up || decide (2 ^ 32 ≤ p.frameRx + 1) then s
  else match tag with
  | .verified => modPort s k (fun x => { x with frameRx := x.frameRx + 1 })
  | .failed offer =>
    let fails := s.time.now :: recentTags s.time.now p.tagFails
    let s := modTaps s (fun t => { t with rt := t.rt + 1 })
    if 16 ≤ fails.length then
      let s := modTaps s (fun t => { t with tr := t.tr + 1 })
      (agreeLink k offer (modPort s k (fun x => { x with
        retries := bump8 x.retries, retrains := bump8 x.retrains, tagFails := [] }))).2
    else modPort s k (fun x => { x with retries := bump8 x.retries, tagFails := fails })

/-- LINK_REKEY: the ends agree new keys without taking the port down; a failed verification keeps it down (R362, R363). -/
def doRekey (k : Nat) (offer : KeyOffer) (s : State) : State :=
  if !hubRuns s || !(portOf s k).up then s else (agreeLink k offer s).2

/-- FABRIC_PORT_DOWN: a port that is up loses lanes or its partner (R360); with two lanes or three it trains at two. -/
def doPortLoss (k : Nat) (loss : PortLoss) (s : State) : State :=
  if !hubRuns s || !(portOf s k).up then s
  else if loss.lanes < 2 then modPort s k portDown
  else
    let s := modPort (modTaps s (fun t => { t with tr := t.tr + 1 })) k (fun p => { p with retrains := bump8 p.retrains })
    let (ok, s) := agreeLink k loss.offer s
    if ok then modPort s k (portUp true) else s

/-- Some port carries packets (R361). -/
def anyPortUp (s : State) : Bool := (List.range 8).any (fun k => (portOf s k).up)

/-! ### Loan windows (17 R368 to R373) -/

/-- ACCESS has the form of R368. -/
def windowAccessOk (access : Nat) : Bool := decide (1 ≤ access % 4) && (bitAt access 2 || access / 8 == 0)

/-- The range of a window does not lie in its place (Table 17-1). -/
def windowOutside (s : State) (kind g j addr len : Nat) : Bool :=
  if kind = 1 then decide (hbmBytes < addr + len) || inScratch s addr len
  else !declared s g j || decide (4 * rgnWords (rgnOf s g j) < addr + len)

/-- A range lies wholly inside one open atomic range. -/
def inOneRange (s : State) (addr len : Nat) : Bool :=
  match findRange s addr with
  | some (_, r) => decide (addr + len ≤ r.base + r.length)
  | .none => false

/-- The first failing row of Table 17-1; OK when none fails. An HBM range needs its stacks trained (16 R354). -/
def windowCheck (w access remote kind g j addr len : Nat) (peer : Peer) (s : State) : BitVec 16 :=
  let reduce := bitAt access 2
  let op := access / 16
  let unit := if kind = 1 then 64 else 4
  if decide (63 < w) || !windowAccessOk access || decide (kind = 0 ∨ 2 < kind) || len == 0 || addr % unit != 0 || len % unit != 0 then
    stBadParam
  else if (winOf s w).isOpen then stNotReady
  else if windowOutside s kind g j addr len then stAddressRange
  else if kind == 2 && (rgnOf s g j).isSealed then stSealedAccess
  else if kind == 2 && bitAt access 1 && (rgnOf s g j).feed != 3 then stBadParam
  else if reduce && (decide (op < 1 ∨ 6 < op) || kind == 2) then stBadParam
  else if reduce && !inOneRange s addr len then stAddressRange
  else if reduce && lockstepOn s then stNotReady
  else if kind == 1 && !hbmUsable s addr len then stNotReady
  else if !(routeOf s remote).valid || !peer.answers then stUnreachable
  else if peer.windowsFull then stNotReady
  else stOk

/-- WINDOW_OPEN: the window opens, at the epoch in force (18 R399), once REMOTE has acknowledged it (R369). -/
def doWindowOpen (w access remote kind g j addr len : Nat) (peer : Peer) (s : State) : Answer × State :=
  let st := windowCheck w access remote kind g j addr len peer s
  if st ≠ stOk then (ansFail st, s)
  else (ansOk, modWin s w (fun _ =>
    { isOpen := true, remote := BitVec.ofNat 14 remote, region := if kind = 2 then BitVec.ofNat 6 j else 0,
      gallery := if kind = 2 then BitVec.ofNat 5 g else 0, cabinet := kind == 2,
      redOp := if bitAt access 2 then BitVec.ofNat 4 (access / 16) else 0, reduce := bitAt access 2,
      access := BitVec.ofNat 2 access, addr := addr, length := len, epoch := s.health.epoch }))

/-- WINDOW_CLOSE (R373). A window that is not open cannot be closed (log entry 66). -/
def doWindowClose (w : Nat) (s : State) : Answer × State :=
  if 63 < w then (ansFail stBadParam, s)
  else if !(winOf s w).isOpen then (ansFail stNotReady, s)
  else (ansOk, modWin s w (fun _ => LoanWindow.closed))

/-- WINDOW_ANNOUNCE: another module announces a window; up to 1,024 are held, a newer one of the same number replaces the
older (R368, R369). It reaches the module over a port that is up (R361). -/
def doAnnounce (a : Announced) (s : State) : State :=
  let others := s.fab.announced.filter (fun x => !(x.owner == a.owner && x.window == a.window))
  if docentUp s && anyPortUp s && decide (others.length < 1024) then { s with fab := { s.fab with announced := a :: others } } else s

/-! ### Packets (17 R364 to R366, R370 to R375) -/

/-- What a requester is answered. -/
def answerPacket (p : Packet) (st : BitVec 16) (data : List Byte) (s : State) : State :=
  { s with fab := { s.fab with answered := (p.src, st, data) :: s.fab.answered } }

/-- Bytes that a packet touches in its window. -/
def packetBytes (k : PacketKind) : Nat :=
  match k with | .read n => n | .write bs _ _ _ => bs.length | .swap op _ _ => redSize op.toNat

/-- The access of the window allows the packet's direction; a packet of a REDUCE window is whole elements (R370, R374). -/
def packetAllowed (w : LoanWindow) (k : PacketKind) : Bool :=
  match k with
  | .read _ => w.access.getLsbD 0
  | .write bs _ _ _ => w.access.getLsbD 1 && (!w.reduce || bs.length % redSize w.redOp.toNat == 0)
  | .swap op _ _ => w.access.getLsbD 1 && !w.cabinet && decide (7 ≤ op.toNat) && decide (op.toNat ≤ 10)

/-- The conditions of R370 but for the epoch. -/
def packetFits (w : LoanWindow) (p : Packet) : Bool :=
  w.isOpen && w.remote == p.src && packetAllowed w p.kind && decide (p.offset + packetBytes p.kind ≤ w.length)

/-- The hub must hold the packet: a write while READY is 1, or a gallery whose clock is gated (R371; 10 R226). -/
def packetHeld (s : State) (w : LoanWindow) (k : PacketKind) : Bool :=
  w.cabinet && (!(galOf s w.gallery.toNat).regs.clockOn ||
    (match k with | .write _ _ _ _ => (rgnOf s w.gallery.toNat w.region.toNat).ready | _ => false))

/-- A cabinet region that was released or declared anew under an open window is judged as it stands now: the hub port reads no
sealed word (04 R90) and writes no region of class INTERNAL (04 R82); a place outside every region is ADDRESS_RANGE (log entry
135). -/
def packetRefusal (s : State) (w : LoanWindow) (p : Packet) : BitVec 16 :=
  let r := rgnOf s w.gallery.toNat w.region.toNat
  let isRead := match p.kind with | .read _ => true | _ => false
  if !w.cabinet then stOk
  else if !r.valid || decide (4 * rgnWords r < w.addr + p.offset + packetBytes p.kind) then stAddressRange
  else if isRead then (if r.isSealed then stSealedAccess else stOk)
  else if r.feed = 0 then stAddressRange else stOk

/-- Bytes of a descriptor that have landed so far, by source module, window and serial number. -/
def landKey (p : Packet) : Nat := p.src.toNat * 64 + p.window.toNat
def landedOf (s : State) (p : Packet) (serial : Nat) : Nat :=
  ((s.fab.landed.find? (fun x => x.1 == landKey p && x.2.1 == serial)).map (·.2.2)).getD 0

/-- Bytes of a descriptor have landed: after the last of them, READY of its cabinet region rises (R372);
a whole region written has its poison cleared (04 R96). -/
def countLanded (w : LoanWindow) (p : Packet) (serial length n : Nat) (setReady : Bool) (s : State) : State :=
  let total := landedOf s p serial + n
  let rest := s.fab.landed.filter (fun x => !(x.1 == landKey p && x.2.1 == serial))
  if total < length then { s with fab := { s.fab with landed := (landKey p, serial, total) :: rest } }
  else
    let s := { s with fab := { s.fab with landed := rest } }
    if setReady && w.cabinet then modRgn s w.gallery.toNat w.region.toNat (fun r =>
        readyRgn s.time.now (if length = 4 * rgnWords r then unpoisonRgn r else r))
      else s

/-- Every element of a REDUCE packet is applied in turn (R374): one whose line is poisoned leaves its own line alone (14 R311) and
gives the packet its status. -/
def reduceAll (op n : Nat) : Nat → Nat → List Byte → BitVec 16 → State → BitVec 16 × State
  | 0, _, _, st, s => (st, s)
  | fuel + 1, a, bs, st, s =>
    if bs.length < n then (st, s)
    else
      let (r, s) := applyUpdate a op (leNat (bs.take n)) 0 s
      reduceAll op n fuel (a + n) (bs.drop n) (if st = stOk then r.status else st) s

/-- A packet that the window accepts does its work in cabinets, in its turn at the bank ports (R371; 04 R81). -/
def serveCabinet (w : LoanWindow) (p : Packet) (deferred : Bool) (s : State) : Bool × State :=
  let g := w.gallery.toNat
  let a := w.addr + p.offset
  match p.kind with
  | .read n =>
    (match cabRead g w.region.toNat a n deferred s with
     | (some bs, s) => (true, answerPacket p stOk bs s)
     | (.none, s) => (false, s))
  | .write bs serial length setReady =>
    let (ok, s) := cabWrite g w.region.toNat a bs deferred s
    if ok then
      (true, answerPacket p stOk [] (countLanded w p serial length bs.length setReady s))
    else (false, s)
  | .swap _ _ _ => (true, s)

/-- A packet that the window accepts does its work in HBM (R371, R374). -/
def serveHbm (w : LoanWindow) (p : Packet) (s : State) : State :=
  let a := w.addr + p.offset
  match p.kind with
  | .read n =>
    let (bs, bad, s) := hubRead s a n
    answerPacket p (if bad.isSome then stRegionPoisoned else stOk) bs s
  | .write bs serial length setReady =>
    if w.reduce then
      let op := w.redOp.toNat
      let (st, s) := reduceAll op (redSize op) (bs.length + 1) a bs stOk s
      countLanded w p serial length bs.length false (answerPacket p st [] s)
    else
      let (n, s) := hubWrite s a bs
      let s := if n = bs.length then countLanded w p serial length n setReady s else s
      answerPacket p (if n = bs.length then stOk else stRegionPoisoned) [] s
  | .swap op cmp v =>
    let (r, s) := applyUpdate a op.toNat v.toNat cmp.toNat s
    answerPacket p r.status (leBytes 8 r.old) s

/-- A packet to HBM takes hub slots; none when it finds too few (14 R301). -/
def packetSlots (s : State) (w : LoanWindow) (p : Packet) : Option State :=
  match p.kind with
  | .read n => placeRange (w.addr + p.offset) n false s
  | .write bs _ _ _ => placeRange (w.addr + p.offset) bs.length true s
  | .swap _ _ _ => some s

/-- A packet that has made 64 hops is dropped and counted (R366). -/
def dropHops (s : State) : State := { s with fab := { s.fab with hopDrops := bump8 s.fab.hopDrops } }

/-- The checks of a packet on its arrival (R370): the answer of one that is dropped, and its count; none for one that its window
accepts. A packet that the hub holds has been checked here, and a later fence leaves it alone (18 R399). -/
def packetDrop (p : Packet) (s : State) : Option State :=
  let w := winOf s p.window.toNat
  if !packetFits w p then some (answerPacket p stUnreachable [] { s with fab := { s.fab with refused := bump8 s.fab.refused } })
  else if p.epoch != w.epoch then some (answerPacket p stStaleEpoch [] { s with fab := { s.fab with stale := bump8 s.fab.stale } })
  else .none

/-- A packet that window `w` accepted does its work, or meets a refusal of the hub port. Answers false while the hub holds it. -/
def servePacket (p : Packet) (w : LoanWindow) (deferred : Bool) (s : State) : Bool × State :=
  let st := packetRefusal s w p
  if st = stSealedAccess then
    (true, answerPacket p st [] (modCabRegs s w.gallery.toNat (fun c => { c with sealedRefusals := bump8 c.sealedRefusals })))
  else if st ≠ stOk then (true, answerPacket p st [] s)
  else if packetHeld s w p.kind then (false, s)
  else if w.cabinet then serveCabinet w p deferred s
  else match packetSlots s w p with
    | some s => (true, serveHbm w p s)
    | .none => (false, s)

/-- READY or a gated clock holds the packet, not a bank port. -/
def packetWaits (s : State) (p : Packet) (w : LoanWindow) : Bool := packetHeld s w p.kind || !w.cabinet

/-- A held access goes before `x`: packets of one window, openings of one group, and accesses of one kind to one line of
device memory, keep their order (log entry 137). -/
def goesBefore (x h : HeldAccess) : Bool :=
  match x, h with
  | .packet p _ _, .packet q _ _ => p.src == q.src && p.window == q.window
  | .opening m _, .opening n _ => m.groupId == n.groupId
  | .cxl a _ _, .cxl b _ _ | .burst a _, .burst b _ => lineOf a == lineOf b
  | _, _ => false

/-- PACKET_ARRIVAL: a packet for this module comes in at a port that is up (R361, R364) and is checked; one that the hub holds is
served later, in the window that accepted it. -/
def doArrival (p : Packet) (s : State) : State :=
  if !hubRuns s || !anyPortUp s || p.dst != s.fab.module then s
  else if p.hops = 64 then dropHops s
  else
    match packetDrop p s with
    | some s => s
    | .none =>
      let w := winOf s p.window.toNat
      if s.held.any (goesBefore (.packet p w false)) then { s with held := s.held ++ [.packet p w false] }
      else
        let waits := packetWaits s p w
        let (ok, s) := servePacket p w false s
        if ok then s else { s with held := s.held ++ [.packet p w (!waits)] }

/-- PACKET_FORWARD: a packet for another module leaves by the route table (R364 to R366). -/
def doForward (p : Packet) (s : State) : State :=
  if !hubRuns s || !anyPortUp s || p.dst == s.fab.module then s
  else if p.hops = 64 then dropHops s
  else (sendPacket { p with hops := p.hops + 1 } s).2

/-! ### Party groups (12 R263 to R266) -/

/-- GROUP_FORM: it reads the members' identity keys, 133 bytes each in index order (log entry 136), from host memory (16 R354);
debug mode refuses (19 R420). -/
def doGroupForm (groupId : Word) (slot self parties : Nat) (members : BitVec 48) (idKeysAddr : Nat) (s : State) : Answer × State :=
  let ids := (List.range parties).map (fun i => fieldAt members.toNat (16 * i) 16)
  if decide (4 ≤ slot) || !(parties == 2 || parties == 3) || decide (parties ≤ self) || ids.any (fun m => decide (2 ^ 14 ≤ m)) then
    (ansFail stBadParam, s)
  else if s.sec.debug || (groupOf s slot).formed || !hostReady s then (ansFail stNotReady, s)
  else
    let keys := (List.range parties).map (fun i => hostGet s (idKeysAddr + 133 * i) 133)
    (ansLong (.groupForm slot groupId self parties members keys), s)

/-- The channel keys of a group in agreement: the keys and the signed ephemeral keys sent, in the order of `Group.keys`, and whether
every signature verified. -/
structure Channels where
  keys   : List Nat
  offers : List (List Byte)
  ok     : Bool
  deriving DecidableEq, Repr

/-- One ordered pair of members agrees its channel key (R263): number 2i to member i, 2i + 1 from it. The offers of a group begin at
`base` in the outcome. -/
def agreeChannel (self base : Nat) (idKeys : List (List Byte)) (o : WorkOutcome) (n : Nat) (r : Channels × State) : Channels × State :=
  let i := n / 2
  if i = self then ({ r.1 with keys := r.1.keys ++ [0], offers := r.1.offers ++ [[]] }, r.2)
  else
    let e := drawEphemeral r.2
    let f := offerAt o (base + n)
    let info := if n % 2 = 0 then 16 + 3 * self + i else 16 + 3 * i + self
    let ok := offeredKeyOk f && signatureOk (idKeys.getD i []) f.signature f.key
    ({ keys := r.1.keys ++ [(agreedKey e.1 f info).toNat], offers := r.1.offers ++ [e.1.offer], ok := r.1.ok && ok },
     noteAgreed ok e.2)

def channelKeys (self parties base : Nat) (idKeys : List (List Byte)) (o : WorkOutcome) (s : State) : Channels × State :=
  (List.range (2 * parties)).foldl (fun r n => agreeChannel self base idKeys o n r) ({ keys := [], offers := [], ok := true }, s)

/-- A group freshly formed: its channel keys are agreed, sequence numbers start at 1. -/
def formedGroup (groupId : Word) (self parties : Nat) (ids : List Nat) (idKeys : List (List Byte)) (c : Channels) (g : Group) : Group :=
  { g with groupId := groupId, self := BitVec.ofNat 2 self, parties := BitVec.ofNat 2 parties, failed := false, keyed := true,
           formed := true, members := ids, idKeys := idKeys, offers := c.offers, keys := c.keys,
           sendSeq := List.replicate parties 0, expectSeq := List.replicate parties 1, regions := [] }

/-- The end of GROUP_FORM: every member accepted and every signature verified, or FABRIC_UNREACHABLE or AUTH_FAIL. -/
def finishGroup (slot : Nat) (groupId : Word) (self parties : Nat) (members : BitVec 48) (idKeys : List (List Byte)) (o : WorkOutcome)
    (s : State) : Answer × State :=
  if (groupOf s slot).formed || s.sec.debug then (ansFail stNotReady, s)
  else if !o.heard then (ansFail stUnreachable, s)
  else
    let (c, s) := channelKeys self parties 0 idKeys o s
    if !c.ok then (ansFail stAuthFail, s)
    else
      let ids := (List.range parties).map (fun i => fieldAt members.toNat (16 * i) 16)
      (ansOk, modGroup s slot (formedGroup groupId self parties ids idKeys c))

/-- GROUP_DISSOLVE: keys and sequence numbers go, registrations end (R265, R266, R268). A slot without a formed group is
refused as in R266 (log entry 66). -/
def doGroupDissolve (slot : Nat) (s : State) : Answer × State :=
  if 4 ≤ slot then (ansFail stBadParam, s)
  else if !(groupOf s slot).formed then (ansFail stNotReady, s)
  else (ansOk, modGroup s slot (fun g => { Group.empty with authFails := g.authFails, openings := g.openings }))

/-- What R266 refuses; OK when nothing. -/
def groupRegionCheck (slot g j : Nat) (s : State) : BitVec 16 :=
  let r := rgnOf s g j
  if decide (4 ≤ slot) || !declared s g j || r.isSealed || r.feed != 3 then stBadParam
  else if !(groupOf s slot).formed || (List.range 4).any (fun k => k != slot && (groupOf s k).regions.contains (g, j)) ||
      regionNamed s g j then stNotReady
  else stOk

/-- GROUP_REGION with ACTION 0x01. -/
def doGroupRegister (slot g j : Nat) (s : State) : Answer × State :=
  let st := groupRegionCheck slot g j s
  if st ≠ stOk then (ansFail st, s)
  else (ansOk, modGroup s slot (fun x => { x with regions := (g, j) :: x.regions.filter (· ≠ (g, j)) }))

/-- GROUP_REGION with ACTION 0x00. -/
def doGroupRemove (slot g j : Nat) (s : State) : Answer × State :=
  let st := groupRegionCheck slot g j s
  if st ≠ stOk then (ansFail st, s)
  else (ansOk, modGroup s slot (fun x => { x with regions := x.regions.filter (· ≠ (g, j)) }))

/-- The message passes R265 for the group in `slot`. -/
def openingPasses (s : State) (slot : Nat) (m : Opening) : Bool :=
  let grp := groupOf s slot
  m.tagOk && !grp.failed && decide (m.sender.toNat < grp.parties.toNat) && m.sender != grp.self &&
    m.seq == grp.expectSeq.getD m.sender.toNat 0 && grp.regions.contains (m.gallery.toNat, m.region.toNat)

/-- A message is discarded: the group fails, tours that name the region end with AUTH_FAIL, the region is poisoned. -/
def refuseOpening (slot : Nat) (m : Opening) (s : State) : State :=
  let g := m.gallery.toNat
  let j := m.region.toNat
  let s := modGroup s slot (fun x => { x with authFails := bump8 x.authFails, failed := true })
  let hit := s.tours.filter (fun t => t.state == .running && tourNames t g j)
  let s := hit.foldl (fun x t => endInTick t stAuthFail g 0 0 x) s
  poisonRgns stAuthFail [(g, j)] s

/-- Physical addresses and words of a message from its byte offset on; words past the end of the region land nowhere (log entry
67). -/
def openingWords (s : State) (m : Opening) : List (Nat × Nat) :=
  let r := rgnOf s m.gallery.toNat m.region.toNat
  ((m.data.flatMap id).take (rgnWords r - m.offset / 4)).mapIdx (fun i v => (rgnBase r + m.offset / 4 + i, v.toNat))

/-- An opening message at its region (R264, R265): it lands in its turn at the bank ports, and READY rises. Answers false while the
hub holds it, as every hub write (04 R81, 10 R226). A message for no formed group of this module is dropped. -/
def serveOpening (m : Opening) (deferred : Bool) (s : State) : Bool × State :=
  match (List.range 4).find? (fun k => (groupOf s k).formed && (groupOf s k).groupId == m.groupId) with
  | .none => (true, s)
  | some slot =>
    if !openingPasses s slot m then (true, refuseOpening slot m s)
    else if !hubCanWrite s m.gallery.toNat m.region.toNat then (false, s)
    else
      let (ok, s) := hubPut m.gallery.toNat deferred (openingWords s m) s
      if !ok then (false, s)
      else
        let s := modGroup s slot (fun x => { x with
          openings := bump8 x.openings, expectSeq := x.expectSeq.set m.sender.toNat (m.seq + 1) })
        (true, modRgn s m.gallery.toNat m.region.toNat (readyRgn s.time.now))

/-- OPENING_MESSAGE, at a port that is up (17 R361). -/
def doOpening (m : Opening) (s : State) : State :=
  if !hubRuns s || !anyPortUp s then s
  else if s.held.any (goesBefore (.opening m false)) then { s with held := s.held ++ [.opening m false] }
  else
    let waits := !hubCanWrite s m.gallery.toNat m.region.toNat
    let (ok, s) := serveOpening m false s
    if ok then s else { s with held := s.held ++ [.opening m (!waits)] }

/-! ### Time domains (17 R376, R377; 02 R43 to R46) -/

/-- 2 ns in units of 0.25 ns (02 Table 02-3). -/
def withinTwoNs (offset : BitVec 16) : Bool := decide (-8 ≤ offset.toInt) && decide (offset.toInt ≤ 8)

/-- TIME_JOIN: as the root the module is disciplined and aligned at once; otherwise it waits for time messages. -/
def doTimeJoin (domain : Word) (root : Nat) (s : State) : Answer × State :=
  if 2 ^ 14 ≤ root then (ansFail stBadParam, s)
  else if anyAccepted s then (ansFail stNotReady, s)
  else
    let isRoot := root == s.fab.module.toNat
    (ansLong (.timeJoin domain root), modTime s (fun t => { t with
      domain := domain, root := BitVec.ofNat 14 root, isRoot := isRoot, joined := true, disciplined := isRoot, aligned := isRoot,
      holdover := false, offset := 0, lastMessage := t.now, lastExchange := t.now }))

/-- TIME_LEAVE. -/
def doTimeLeave (s : State) : Answer × State :=
  if anyAccepted s then (ansFail stNotReady, s)
  else (ansOk, modTime s (fun t => { t with
    domain := 0, root := 0, isRoot := false, joined := false, disciplined := false, aligned := false, holdover := false,
    offset := 0 }))

/-- The end of TIME_JOIN: the first setting of ALIGNED, or no message for 1,024 ticks (R376); none before either. A join
that fails leaves the module outside every domain (log entry 68). -/
def finishJoin (s : State) : Option (Answer × State) :=
  if s.time.aligned then some (ansOk, s)
  else if s.time.lastMessage + 1024 ≤ s.time.now then
    some (ansFail stUnreachable, modTime s (fun t => { t with joined := false }))
  else .none

/-- Half a round trip, in units of 0.25 ns. -/
def halfTrip (roundTrip : Nat) : Nat := roundTrip / 2

/-- What was measured, less half the round trip (R377), within the range of OFFSET (log entry 138). -/
def compensated (measured : BitVec 16) (roundTrip : Nat) : BitVec 16 :=
  BitVec.ofInt 16 (max (-32768) (min 32767 (measured.toInt - halfTrip roundTrip)))

/-- TIME_MESSAGE, at a port that is up (R361): the first message sets module time in one step at the next tick edge, when no tour is
accepted; each one gives the offset, with half the measured round trip compensated, and a new steering value within 20 ppm, in units
of 0.001 ppm, which is a free value (02 R43, R45). A tick is 160 units of 0.25 ns. -/
def doTimeMessage (domain : Word) (rootTick : Nat) (measured : TimeMeasured) (s : State) : State :=
  let t := s.time
  if !hubRuns s || !anyPortUp s || !t.joined || t.isRoot || t.domain != domain then s
  else if !t.disciplined && anyAccepted s then modTime s (fun x => { x with lastMessage := x.now })
  else
    let (v, s) := freeBits 16 s
    let offset := compensated measured.offset measured.roundTrip
    modTime s (fun x => { x with
      lastMessage := x.now, offset := offset, aligned := withinTwoNs offset, holdover := false,
      steering := (v.toNat % 40001 : Nat) - 20000, disciplined := true,
      pendingSet := if x.disciplined then x.pendingSet else some (rootTick + halfTrip measured.roundTrip / 160) })

/-- Every 256 ticks a module that has joined a domain sends a time message to its upstream neighbour, on the deterministic port of the
route to the root (R377). -/
def timeExchange (s : State) : State :=
  let t := s.time
  let r := routeOf s t.root.toNat
  if t.joined && !t.isRoot && decide (t.lastExchange + 256 ≤ t.now) then
    let s := modTime s (fun x => { x with lastExchange := x.now })
    if r.valid && (portOf s r.dport.toNat).up then { s with fab := { s.fab with timeSent := (r.dport, t.now) :: s.fab.timeSent } }
    else s
  else s

/-- TIME_HOLDOVER (02 R46): no time message for 1,024 ticks. -/
def doHoldover (s : State) : State :=
  let t := s.time
  if hubRuns s && t.disciplined && !t.isRoot && !t.holdover && decide (t.lastMessage + 1024 ≤ t.now) then
    modTime s (fun x => { x with holdover := true, aligned := false })
  else s

/-! ### Lock-step comparison (17 R378 to R383) -/

/-- A REDUCE window or an atomic range is open. -/
def reduceOpen (s : State) : Bool :=
  s.fab.windows.toList.any (fun w => w.isOpen && w.reduce) || (List.range 8).any (fun k => !noRange s k)

/-- What R378 refuses; OK when nothing. A partner that does not answer is found out at the end. -/
def lockstepCheck (partner enable : Nat) (peer : Peer) (s : State) : BitVec 16 :=
  if decide (2 ^ 14 ≤ partner) || decide (2 ≤ enable) then stBadParam
  else if enable = 0 then stOk
  else if peer.answers && peer.galleries.toNat != numGal s then stBadParam
  else if anyLive s || reduceOpen s || !s.time.aligned then stNotReady
  else if peer.answers && (peer.busy || !peer.aligned || peer.domain != s.time.domain) then stNotReady
  else stOk

/-- LOCKSTEP_SET: PARTNER_LOST clears (Table 17-8). -/
def doLockstepSet (partner enable : Nat) (peer : Peer) (s : State) : Answer × State :=
  let st := lockstepCheck partner enable peer s
  if st ≠ stOk then (ansFail st, s)
  else (ansLong (.lockstepSet partner (enable == 1)), modLock s (fun l => { l with partnerLost := false }))

/-- The end of LOCKSTEP_SET: both modules agree, or the partner does not answer. -/
def finishLockstep (partner : Nat) (enable heard : Bool) (s : State) : Answer × State :=
  if heard then (ansOk, modLock s (fun l => { l with enabled := enable, partner := BitVec.ofNat 14 partner }))
  else (ansFail stUnreachable, s)

/-- Window `w` of a tour has passed: its last compiled tick has, or the tour has ended (log entry 69). -/
def windowPassed (s : State) (t : Tour) (w : Nat) : Bool :=
  decide (tourBase t + 256 * (w + 1) ≤ s.time.now) || (tourEnded s t && decide (w < tourWindows t))

/-- The seven signatures of a compiled tick on this module; the CRC of nothing is 0 (R380). -/
def sigsAt (s : State) (id : Quad) (g ct : Nat) : List Quad :=
  match s.fab.lockstep.sigs.find? (fun r => r.tourId == id && r.gallery == g && r.ctick == ct) with
  | some r => r.sigs.map (fun x => x ^^^ 0xFFFFFFFFFFFFFFFF)
  | .none => List.replicate 7 0

/-- The partner's signatures of a compiled tick of window `w`: in the message, key gallery x 256 + tick in the window. -/
def sigsHeard (remote : List (Nat × List Quad)) (g i : Nat) : List Quad :=
  ((remote.find? (fun r => r.1 == 256 * g + i)).map (·.2)).getD (List.replicate 7 0)

/-- The summaries of a window differ: some Outlet signature does (R381; log entry 70). -/
def summariesDiffer (s : State) (t : Tour) (w : Nat) (remote : List (Nat × List Quad)) : Bool :=
  (maskList t.mask).any (fun g => (List.range 256).any (fun i =>
    (sigsAt s t.tourId g (256 * w + i)).getD 6 0 != (sigsHeard remote g i).getD 6 0))

/-- The first divergence of a window: compiled tick, gallery, and which of the seven signatures (R381). -/
def firstDivergence (s : State) (t : Tour) (w : Nat) (remote : List (Nat × List Quad)) : Option (Nat × Nat × Nat) :=
  (List.range 256).findSome? (fun i => (maskList t.mask).findSome? (fun g =>
    let a := sigsAt s t.tourId g (256 * w + i)
    let b := sigsHeard remote g i
    ((List.range 7).find? (fun k => a.getD k 0 != b.getD k 0)).map (fun k => (256 * w + i, g, k))))

/-- The step of gallery `g` at a compiled tick: the last one launched by then. -/
def stepAtTick (t : Tour) (g ct : Nat) : Nat :=
  ((List.range (stepTotal t g)).filter (fun i => decide ((imgStep (tourImage t g) i).launch ≤ ct))).getLastD 0

/-- Module time at a compiled tick of a tour: its start, the compiled tick and the slip until then (R380). -/
def tickOfCompiled (t : Tour) (ct : Nat) : Nat :=
  t.start + ct + ((t.slipLog.find? (fun p => decide (p.1 ≤ ct))).map (·.2)).getD 0

/-- A window diverges: DIVERGENCES, the record when DIV_VALID is 0, EVENT_VEC, and the tour's first divergence (R381, R382). -/
def recordDivergence (t : Tour) (ct g station : Nat) (s : State) : State :=
  let step := if station = 0 then 0 else stepAtTick t g ct
  let at_ : FaultAt := { step := step, gallery := g, station := station, cause := 0, stepCycle := 0 }
  let s := modLock s (fun l => { l with
    divergences := bump8 l.divergences,
    diverged := if l.diverged.any (fun d => d.1 == t.tourId) then l.diverged else (t.tourId, at_) :: l.diverged })
  let s := if s.fab.lockstep.divValid then s
    else
      let tick := tickOfCompiled t ct
      modLock s (fun l => { l with
        divValid := true, divStep := BitVec.ofNat 16 step, divStation := BitVec.ofNat 3 station, divGallery := BitVec.ofNat 5 g,
        divCtick := BitVec.ofNat 32 ct, divTick := BitVec.ofNat 64 tick })
  raiseEvent s

/-- LOCKSTEP_SUMMARY: the next window of a tour is compared with the partner's, whose message comes in at a port that is up (R361).
What a Restoration's own steps sign is a free value (log entry 55). -/
def doSummary (id : Quad) (w : Nat) (remoteTour : Quad) (remote : List (Nat × List Quad)) (s : State) : State :=
  match tourOf s id with
  | .none => s
  | some t =>
    let s' := (maskList t.mask).foldl (fun x g => settleStep g x) s
    if !hubRuns s || !anyPortUp s || !s.fab.lockstep.enabled || !tourAccepted t || w != t.compared || !windowPassed s' t w then s
    else
      let s := modTour s' id (fun x => { x with compared := x.compared + 1 })
      if t.restore.isSome then
        let (v, s) := freeBits 32 s
        if v.getLsbD 0 || remoteTour != id then
          recordDivergence t (256 * w + fieldAt v.toNat 1 8) (fieldAt v.toNat 9 5 % numGal s) (1 + fieldAt v.toNat 14 3 % 6) s
        else s
      else if summariesDiffer s t w remote || remoteTour != id then
        match firstDivergence s t w remote with
        | some (ct, g, k) => recordDivergence t ct g (min 6 (k + 1)) s
        | .none => recordDivergence t 0 0 0 s
      else s

/-- LOCKSTEP_COMPLETE: every window has been compared, and the tour's end is written (R382). -/
def doLockstepComplete (id : Quad) (s : State) : State :=
  match tourOf s id with
  | .none => s
  | some t =>
    let s' := (maskList t.mask).foldl (fun x g => settleStep g x) s
    if hubRuns s && s.fab.lockstep.enabled && tourEnded s' t && decide (tourWindows t ≤ t.compared) then finishTour id s' else s

/-- The tick at which window `w` passed on this module. -/
def passTick (s : State) (t : Tour) (w : Nat) : Nat :=
  if tourEnded s t then min (tourBase t + 256 * (w + 1)) t.endTick else tourBase t + 256 * (w + 1)

/-- A window of the tour passed 4,096 ticks ago and has not been compared (R383). -/
def summaryMissing (s : State) (t : Tour) : Bool :=
  tourAccepted t && windowPassed s t t.compared && decide (passTick s t t.compared + 4096 ≤ s.time.now)

/-- The tour has ended and every window of it has been compared. -/
def comparedWhole (s : State) (t : Tour) : Bool :=
  tourEnded ((maskList t.mask).foldl (fun x g => settleStep g x) s) t && decide (tourWindows t ≤ t.compared)

/-- PARTNER_LOST: lock-step ends; every tour not yet compared whole runs to its end and completes with FABRIC_UNREACHABLE, one
that has ended completes now, in the order of their acceptance (R382, R383; log entry 69). -/
def doPartnerLost (s : State) : State :=
  if !hubRuns s || !s.fab.lockstep.enabled || !s.tours.any (summaryMissing s) then s
  else
    let ids := (s.tours.filter (fun t => tourAccepted t && !comparedWhole s t)).map (·.tourId)
    let s := modLock s (fun l => { l with partnerLost := true, enabled := false, lost := ids })
    ids.reverse.foldl (fun x id => doTourEnd id x) s

/-! ### Meanings -/

def execPortsEnable (h : Hdr) (ports : BitVec 8) (s : State) : Out := .next (command h 0x0500 (doPortsEnable ports) s)
def execTimeJoin (h : Hdr) (domain : Word) (root : BitVec 16) (s : State) : Out :=
  .next (command h 0x0501 (doTimeJoin domain root.toNat) s)
def execTimeLeave (h : Hdr) (s : State) : Out := .next (command h 0x0502 doTimeLeave s)
def execWindowOpen (h : Hdr) (window access : BitVec 8) (remote : BitVec 16) (kind gallery region : BitVec 8) (addr length : Quad)
    (peer : Peer) (s : State) : Out :=
  .next (command h 0x0503 (doWindowOpen window.toNat access.toNat remote.toNat kind.toNat gallery.toNat region.toNat addr.toNat
    length.toNat peer) s)
def execWindowAnnounce (owner : BitVec 14) (window : BitVec 6) (access : BitVec 2) (length : Nat) (reduce : Bool) (s : State) : Out :=
  .next (doAnnounce { owner := owner, window := window, access := access, length := length, reduce := reduce } s)
def execWindowClose (h : Hdr) (window : BitVec 8) (s : State) : Out := .next (command h 0x0504 (doWindowClose window.toNat) s)
def execGroupForm (h : Hdr) (groupId : Word) (slot selfIndex parties : BitVec 8) (members : BitVec 48) (idKeysAddr : Quad)
    (s : State) : Out :=
  .next (command h 0x0505 (doGroupForm groupId slot.toNat selfIndex.toNat parties.toNat members idKeysAddr.toNat) s)
def execGroupDissolve (h : Hdr) (slot : BitVec 8) (s : State) : Out := .next (command h 0x0506 (doGroupDissolve slot.toNat) s)
def execGroupRegionRegister (h : Hdr) (slot gallery region : BitVec 8) (s : State) : Out :=
  .next (command h 0x0508 (doGroupRegister slot.toNat gallery.toNat region.toNat) s)
def execGroupRegionRemove (h : Hdr) (slot gallery region : BitVec 8) (s : State) : Out :=
  .next (command h 0x0508 (doGroupRemove slot.toNat gallery.toNat region.toNat) s)
def execLockstepSet (h : Hdr) (partner : BitVec 16) (enable : BitVec 8) (peer : Peer) (s : State) : Out :=
  .next (command h 0x0507 (doLockstepSet partner.toNat enable.toNat peer) s)
def execFrameReceive (port : BitVec 3) (tag : FrameTag) (s : State) : Out := .next (doFrame port.toNat tag s)
def execLinkRekey (port : BitVec 3) (offer : KeyOffer) (s : State) : Out := .next (doRekey port.toNat offer s)
def execPacketArrival (p : Packet) (s : State) : Out := .next (doArrival p s)
def execPacketForward (p : Packet) (s : State) : Out := .next (doForward p s)
def execOpeningMessage (m : Opening) (s : State) : Out := .next (doOpening m s)
def execTimeMessage (domain : Word) (rootTick : Nat) (measured : TimeMeasured) (s : State) : Out :=
  .next (doTimeMessage domain rootTick measured s)
def execTimeHoldover (s : State) : Out := .next (doHoldover s)
def execLockstepSummary (tourId : Quad) (window : Nat) (remoteTour : Quad) (remote : List (Nat × List Quad)) (s : State) : Out :=
  .next (doSummary tourId window remoteTour remote s)
def execLockstepComplete (tourId : Quad) (s : State) : Out := .next (doLockstepComplete tourId s)
def execPartnerLost (s : State) : Out := .next (doPartnerLost s)
def execFabricPortDown (port : BitVec 3) (loss : PortLoss) (s : State) : Out :=
  .next (doPortLoss port.toNat loss s)

end Sys2Proof.Machine
end

