-- ==== Sys2Proof/Machine/Health.lean ====
section
/-!
DEFINITION. Sys2Proof/Machine/Health.lean: the Conservator's risk estimate (18 R384 to R388), checkpoints (R389 to R395),
restores (R396 to R398, R401) and migration epochs (R399, R400).
-/

set_option Elab.async false

namespace Sys2Proof

/-- First 8 bytes of SHA-512 over the geometry record of a grade and stepping (18 Table 18-3): the spec does not lay the
record out. -/
opaque Config.mapHash : (galleries : Nat) → BitVec 64

/-- What the directory and module-state section of an image that this module did not write say (log entry 71). -/
opaque Config.imageMeta : List Byte → Option Machine.ImageMeta

end Sys2Proof

namespace Sys2Proof.Machine

def modHealth (s : State) (f : Health → Health) : State := { s with health := f s.health }

/-! ### Checks of CHECKPOINT_TAKE (18 Table 18-2) -/

/-- A data section for an item, at offset 0. -/
def sectionOf (s : State) (x : CkptItem) : CkptSection :=
  match x with
  | .catalogue => { item := x, offset := 0, length := 2 ^ 24, addr := s.cat.base, rgn := Region.none }
  | .object i => { item := x, offset := 0, length := (catEnt s i).bytes, addr := (catEnt s i).addr, rgn := Region.none }
  | .region g j => { item := x, offset := 0, length := 4 * rgnWords (rgnOf s g j), addr := 0, rgn := rgnOf s g j }

/-- Places sections one behind the other from `at_` on; `step` rounds each length up. -/
def placeFrom (step : Nat) : Nat → List CkptSection → List CkptSection × Nat
  | at_, [] => ([], at_)
  | at_, x :: xs =>
    let (r, e) := placeFrom step (at_ + ceilDiv x.length step * step) xs
    ({ x with offset := at_ } :: r, e)

/-- The data sections of a checkpoint taken now, with the bytes that are staged: unsealed ones one behind the other, each
sealed region in extents of its own behind them (log entry 71). -/
def layoutNow (s : State) (scope : BitVec 8) : List CkptSection × Nat :=
  let all := (ckptItems s scope).map (sectionOf s)
  let (plain, e) := placeFrom 1 0 (all.filter (fun x => !x.rgn.isSealed))
  let (hidden, _) := placeFrom extBytes (ceilDiv e extBytes * extBytes) (all.filter (fun x => x.rgn.isSealed))
  (plain ++ hidden, e)

/-- Bytes of data extents that sections take. -/
def sectionsEnd (xs : List CkptSection) : Nat := xs.foldl (fun m x => max m (x.offset + x.length)) 0

/-- Extents of an image, the header extent included. -/
def imageExtents (xs : List CkptSection) : Nat := 1 + ceilDiv (sectionsEnd xs) extBytes

/-- Bytes of HBM in scope. -/
def hbmInScope (s : State) (scope : BitVec 8) : Nat :=
  sumNat (((ckptItems s scope).filter (fun x => match x with | .region _ _ => false | _ => true)).map (fun x => (sectionOf s x).length))

def stageBase (s : State) : Nat := s.health.stageBase.toNat * 2 ^ 30
def stageBytes (s : State) : Nat := s.health.stageSize.toNat * 2 ^ 30

def rangesMeet (a n b m : Nat) : Bool := decide (a < b + m) && decide (b < a + n) && decide (0 < n) && decide (0 < m)

/-- The staging range meets the Catalogue, an object, the Restoration scratch or an open atomic range, or leaves device
memory. -/
def stageMeets (s : State) : Bool :=
  let a := stageBase s
  let n := stageBytes s
  decide (hbmBytes < a + n) || (catExists s && rangesMeet a n s.cat.base (2 ^ 24)) ||
    (heldEnts s).any (fun i => let e := catEnt s i; e.space == 0 && rangesMeet a n e.addr e.bytes) ||
    (match scratchDue s with | some c => rangesMeet a n c (2 ^ 32) | .none => false) ||
    (List.range 8).any (fun k => (stkOf s k).ranges.toList.any (fun r => match r with
      | some r => rangesMeet a n r.base r.length
      | .none => false))

/-- Route entries with VALID set. -/
def validRoutes (s : State) : Nat := (s.fab.routes.filter (fun r => r.2.valid)).length

/-- The partner announced a window with write access, and can be reached. -/
def partnerReady (s : State) (window : Nat) (answers : Bool) : Bool :=
  let partner := fieldAt s.health.cfg.toNat 30 14
  answers && (routeOf s partner).valid &&
    s.fab.announced.any (fun w => w.owner.toNat == partner && w.window.toNat == window && w.access.getLsbD 1)

/-- The first failing row of Table 18-2; OK when none fails. -/
def ckptCheck (kind scope target : BitVec 8) (window first : Nat) (answers : Bool) (s : State) : BitVec 16 :=
  if decide (4 ≤ kind.toNat) || decide (16 ≤ scope.toNat) || scope == 0 || decide (1 < target.toNat) then stBadParam
  else if kind.getLsbD 0 && (scope.getLsbD 2 || (heldEnts s).any (fun i => (catEnt s i).space == 1)) then
    stBadParam
  else if !kind.getLsbD 1 && decide (256 < validRoutes s) then stBadParam
  else if s.health.stage != .idle || !vaultDue s || decide (stageBytes s < hbmInScope s scope) then stNotReady
  else if stageMeets s then stAddressRange
  else if extentCount < first + imageExtents (layoutNow s scope).1 then stAddressRange
  else if s.vault.readOnly then stVaultFull
  else if target == 1 && !partnerReady s window answers then stUnreachable
  else stOk

/-- The cut tick of R390 as it stands: the tick after the REPLY, or the latest deadline of an accepted tour that writes an item
in scope. -/
def cutTick (s : State) (scope : BitVec 8) : Nat :=
  let items := ckptItems s scope
  (s.tours.filter (fun t => tourAccepted t && items.any (tourWrites s t))).foldl (fun m t => max m t.deadline) (s.time.now + 1)

/-- A checkpoint is accepted. -/
def startCkpt (h : Option Hdr) (kind scope target window : BitVec 8) (first : Nat) (s : State) : State :=
  modHealth s (fun x => { x with
    stage := .waitingCut, cut := cutTick s scope,
    job := some { hdr := h, kind := kind, scope := scope, target := target, window := window, first := first,
                  before := (s.tours.filter tourAccepted).map (·.tourId), base := 0, todo := [], image := .none } })

/-- CHECKPOINT_TAKE. -/
def doCkptTake (h : Hdr) (kind scope target window : BitVec 8) (first : Nat) (peer : Peer) (s : State) : Answer × State :=
  let st := ckptCheck kind scope target window.toNat first peer.answers s
  if st ≠ stOk then (ansFail st, s) else (ansLong .checkpointTake, startCkpt (some h) kind scope target window first s)

/-! ### The end of a checkpoint (18 R393, R394) -/

/-- DONE of the checkpoint command, when a command ordered it; an automatic one raises EVENT_VEC when it completes (R387). -/
def ckptDone (j : CkptJob) (a : Answer) (s : State) : State :=
  match j.hdr with
  | .none => if a.status = stOk then raiseEvent s else s
  | some _ =>
    match s.host.longWork.findIdx? (fun w => w.kind == .checkpointTake) with
    | some i =>
      let r := takeWork i s
      (match r.1 with
       | some w => writeDone r.2 w.hdr w.opcode a
       | .none => r.2)
    | .none => s

/-- A checkpoint fails: FAILED advances and the header is not written (R394). -/
def failCkpt (j : CkptJob) (st : BitVec 16) (s : State) : State :=
  ckptDone j (ansFail st) (modHealth s (fun x => { x with stage := .idle, job := .none, failed := bump8 x.failed }))

/-! ### Staging (18 R391, R392) -/

/-- Bytes of device memory as a checkpoint copies them; a range with an uncorrectable line delivers free values. -/
def copyHbm (a n : Nat) (s : State) : List Byte × State := docentRead a n s

/-- What an image keeps of a party group: its membership (Table 18-4). -/
def groupMembers (g : Group) : Group :=
  { Group.empty with groupId := g.groupId, self := g.self, parties := g.parties, formed := g.formed, members := g.members,
                     idKeys := g.idKeys }

/-- What the image will say, as the module stands at the cut: the rows of Table 18-4 for its kind and scope, and nothing else. -/
def captureImage (s : State) (sections : List CkptSection) (kind scope : BitVec 8) : ImageMeta :=
  let own := scope.getLsbD 3
  let large := own && kind.getLsbD 1
  let bound := own && !kind.getLsbD 0
  let keep := (s.tours.filter (fun t => tourLive t && (match t.restore with | some j => j.autoIns.isNone | .none => true) &&
    (!tourAccepted t || decide (s.health.cut ≤ t.start)))).reverse
  { sections := sections, qps := if own then s.host.qps else Vector.replicate 64 Qp.reset,
    tours := if !bound then [] else keep.map (fun t =>
      { package := t.package, hdr := t.hdr, offset := if tourAccepted t then some ((t.start : Int) - s.health.cut) else .none,
        policy := t.policy, restore := t.restore }),
    counters := if !bound then [] else s.gals.toList.map (fun g => (g.bank0.counters, g.bank1.counters)),
    domain := if large then s.time.domain else 0, root := if large then s.time.root else 0, joined := large && s.time.joined,
    module := if large then s.fab.module else 0, routes := if large then s.fab.routes else [],
    windows := if large then s.fab.windows else Vector.replicate 64 LoanWindow.closed,
    groups := if large then s.fab.groups.map groupMembers else Vector.replicate 4 Group.empty }

/-- The cut: the items in scope are fixed, and what the image says of the module. That of a portable checkpoint which met accepted tours
is a tick at which none runs any longer (R390). -/
def takeCut (j : CkptJob) (s : State) : State :=
  let s := if j.kind.getLsbD 0 && !j.before.isEmpty then modHealth s (fun x => { x with cut := max x.cut s.time.now }) else s
  let xs := (layoutNow s j.scope).1
  modHealth s (fun x => { x with
    stage := .staging, job := some { j with base := s.cat.base, todo := xs, image := some (captureImage s xs j.kind j.scope) } })

/-- A tour that writes the item, and started or was to start by now, has not ended. -/
def writerPending (s : State) (x : CkptItem) : Bool :=
  s.tours.any (fun t => tourAccepted t && decide (t.start ≤ s.time.now) && tourWrites s t x)

/-- Copies one section: into the staging buffer, or, for a sealed region, straight into sealed extents. -/
def stageSection (j : CkptJob) (x : CkptSection) (s : State) : Option State :=
  let toAt := stageBase s + x.offset
  match x.item with
  | .region g _ =>
    let s := hubDefer g s
    let bs := (smRead 0 (rgnBase x.rgn) (rgnWords x.rgn) (galOf s g).cab).flatMap (fun w => leBytes 4 w.toNat)
    if x.rgn.isSealed then storeExtents (ceilDiv x.length extBytes) (j.first + 1 + x.offset / extBytes) true bs s
    else some (hubWrite s toAt bs).2
  | _ =>
    let r := copyHbm x.addr x.length s
    some (hubWrite r.2 toAt r.1).2

/-- One item is staged, or the checkpoint fails for want of room in the Vault. -/
def stagedOne (j : CkptJob) (x : CkptSection) (rest : List CkptSection) (s : State) : State :=
  match stageSection j x s with
  | some s => modHealth s (fun y => { y with job := some { j with todo := rest } })
  | .none => failCkpt j stVaultFull s

/-- The cut when its tick has come; a portable checkpoint waits until no tour is accepted. -/
def cutWhenDue (j : CkptJob) (s : State) : State :=
  if s.time.now < s.health.cut then s
  else if j.kind.getLsbD 0 && anyAccepted s then modHealth s (fun x => { x with cut := s.time.now + 1 })
  else takeCut j s

/-- The next `n` sections are staged, in order. -/
def stageNext : Nat → State → State
  | 0, s => s
  | n + 1, s =>
    match s.health.stage, s.health.job with
    | .staging, some j =>
      (match j.todo with
       | [] => s
       | x :: rest => stageNext n (stagedOne j x rest s))
    | _, _ => s

/-- A tour that writes an item still to stage starts only after the staging of it, and of what stands before it, has completed: the
Registrar has named its start tick so (R391, R392). What the rows CHECKPOINT_STAGE have left is staged here (log entry 63). -/
def stageFor (id : Quad) (s : State) : State :=
  match tourOf s id, s.health.job with
  | some t, some j =>
    if !docentUp s || t.state != .accepted || t.status.isSome || t.start != s.time.now then s
    else
      let s := if s.health.stage == .waitingCut && (ckptItems s j.scope).any (tourWrites s t) then cutWhenDue j s else s
      (match s.health.stage, s.health.job with
       | .staging, some j =>
         let n := (List.range j.todo.length).foldl (fun m i =>
           if (j.todo[i]?.map (fun x => tourWrites s t x.item)).getD false then i + 1 else m) 0
         stageNext n s
       | _, _ => s)
  | _, _ => s

/-- CHECKPOINT_STAGE: the cut when its tick has come, then one section at a time, each after its writers have ended. The clock
of a region's gallery must run for the hub port (04 R81). -/
def doCkptStage (s : State) : State :=
  match s.health.job with
  | .none => s
  | some j =>
    if !docentUp s then s
    else match s.health.stage with
    | .waitingCut => cutWhenDue j s
    | .staging =>
      (match j.todo with
       | [] => modHealth s (fun x => { x with stage := .draining })
       | x :: rest =>
         let gated := match x.item with | .region g _ => !(galOf s g).regs.clockOn | _ => false
         if writerPending s x.item || gated then s else stagedOne j x rest s)
    | _ => s

/-! ### Draining (18 R393, R395) -/

/-- Sends bytes to the partner's window in packets of 4,096 bytes; false when a packet finds no way to the partner. -/
def sendImage (dst : BitVec 14) (window : BitVec 6) (serial total : Nat) : Nat → Nat → List Byte → State → Bool × State
  | 0, _, _, s => (true, s)
  | n + 1, off, bs, s =>
    if bs.isEmpty then (true, s)
    else
      let p : Packet := { dst := dst, src := s.fab.module, epoch := s.health.epoch, hops := 0, window := window, offset := off,
                          kind := .write (bs.take 4096) serial total false }
      let (ok, s) := sendPacket p s
      if ok then sendImage dst window serial total n (off + 4096) (bs.drop 4096) s else (false, s)

/-- The header of Table 18-3. How many directory entries an image has is not stated: a free value. -/
def imageHeader (s : State) (j : CkptJob) (extents sections crc : Nat) : List Byte :=
  let body := leBytes 4 0x4B5A434B ++ leBytes 2 1 ++ [j.kind, j.scope] ++ leBytes 8 (Config.mapHash (numGal s)).toNat ++
    leBytes 8 s.health.cut ++ leBytes 8 j.base ++ leBytes 4 extents ++ leBytes 2 sections ++ leBytes 2 0 ++ leBytes 4 crc ++
    List.replicate 16 0
  body ++ leBytes 4 (crc32c body)

/-- The data extents as the Vault holds them. -/
def imageData (s : State) (first extents : Nat) : List Byte := vaultGet s ((first + 1) * extBytes) ((extents - 1) * extBytes)

/-- One more transfer has used up a serial number of the sender. -/
def countStarted (s : State) : State := { s with dma := { s.dma with started := s.dma.started + 1 } }

/-- Extents of the partner's copy: the image but for sealed extents, which never leave. -/
def copyExtents (m : ImageMeta) : Nat :=
  (m.sections.filter (fun x => x.rgn.isSealed)).foldl (fun k x => k - ceilDiv x.length extBytes) (imageExtents m.sections)

/-- A second transfer goes out only after the first has. -/
def sendThen (f : State → Bool × State) (r : Bool × State) : Bool × State := if r.1 then f r.2 else (false, r.2)

def countSent (r : Bool × State) : Bool × State := (r.1, countStarted r.2)

/-- The partner's copy of `n` bytes: the data, then the header extent, in the same byte layout; false when the partner cannot be
reached. -/
def sendParts (dst : BitVec 14) (window : BitVec 6) (n : Nat) (data head : List Byte) (s : State) : Bool × State :=
  sendThen (fun s => countSent (sendImage dst window s.dma.started n (head.length / 4096) 0 head s))
    (sendImage dst window s.dma.started n (n / 4096) extBytes data s)

/-- What a checkpoint with TARGET 0x01 sends. -/
def sendCopy (j : CkptJob) (m : ImageMeta) (head : List Byte) (s : State) : Bool × State :=
  if j.target ≠ 1 then (true, s)
  else sendParts (BitVec.ofNat 14 (fieldAt s.health.cfg.toNat 30 14)) (j.window.setWidth 6) (copyExtents m * extBytes)
    (imageData s j.first (copyExtents m)) head s

/-- The header extent has been written: the DONE entry. -/
def finishDrain (j : CkptJob) (m : ImageMeta) (rest : List Byte) (s : State) : State :=
  let s := modMedium s (fun x => { x with images := (rest, m) :: x.images })
  ckptDone j (ansRes (leBytes 4 (imageExtents m.sections)))
    (modHealth s (fun x => { x with stage := .idle, job := .none, completed := bump8 x.completed }))

/-- The data extents have committed: the partner's writes, and when they have completed the header extent (R393, R394). -/
def drainHeader (j : CkptJob) (m : ImageMeta) (s : State) : State :=
  let extents := imageExtents m.sections
  let n := freeBits 16 s
  let rest := freeBytes (extBytes - 64) n.2
  let head := imageHeader rest.2 j extents n.1.toNat (crc32c (imageData rest.2 j.first extents)) ++ rest.1
  let r := sendCopy j m head rest.2
  if !r.1 then failCkpt j stUnreachable r.2
  else match storeExtents 1 j.first false head r.2 with
    | .none => failCkpt j stVaultFull r.2
    | some s => finishDrain j m rest.1 s

/-- CHECKPOINT_DRAIN_DONE: the data extents have committed; the partner's writes and the header extent follow. `partnerLost` says that
a partner write did not complete. -/
def doDrainDone (partnerLost : Bool) (s : State) : State :=
  match s.health.job with
  | .none => s
  | some j =>
    match j.image with
    | .none => s
    | some m =>
      if !docentUp s || s.health.stage != .draining then s
      else
        let plain := sectionsEnd (m.sections.filter (fun x => !x.rgn.isSealed))
        let r := copyHbm (stageBase s) plain s
        match storeExtents (ceilDiv plain extBytes) (j.first + 1) false r.1 r.2 with
        | .none => failCkpt j stVaultFull r.2
        | some s => if j.target == 1 && partnerLost then failCkpt j stUnreachable s else drainHeader j m s

/-! ### Restoring (18 R396 to R398, R401) -/

/-- The header of the image in extent `first`, its 64 bytes. -/
def headerAt (s : State) (first : Nat) : List Byte := vaultGet s (first * extBytes) 64

def headExtents (b : List Byte) : Nat := bytesAt b 0x20 4

/-- What the image in extent `first` says. -/
def metaAt (s : State) (first : Nat) : Option ImageMeta :=
  let rest := vaultGet s (first * extBytes + 64) (extBytes - 64)
  match s.vault.medium.images.find? (fun x => x.1 == rest) with
  | some x => some x.2
  | .none => Config.imageMeta rest

/-- Extents of an image that exist. -/
def imageRun (s : State) (first : Nat) : List Nat :=
  (List.range (max 1 (headExtents (headerAt s first)))).map (first + ·) |>.filter (fun e => decide (e < extentCount))

/-- The first failing row of Table 18-5; OK when none fails. -/
def restoreImageCheck (first : Nat) (s : State) : BitVec 16 :=
  let b := headerAt s first
  let run := imageRun s first
  if s.health.stage != .idle || anyLive s || !vaultDue s || trainedOrDue s != 0xFF then stNotReady
  else if catExists s && (s.cat.base != bytesAt b 0x18 8 || (heldEnts s).any (fun i => (catEnt s i).locked)) then stNotReady
  else if run.any (fun e => (mapOf s e).state == .conflict) then stReplicaConflict
  else if run.any (fun e => (mapOf s e).state == .damaged ||
      s.vault.medium.badUnits.any (fun u => u / 2048 == (mapOf s e).slot.toNat && (mapOf s e).state == .written)) then stVaultUncorrectable
  else if bytesAt b 0 4 != 0x4B5A434B || bytesAt b 4 2 != 1 || crc32c (b.take 60) != bytesAt b 60 4 ||
      crc32c (imageData s first (headExtents b)) != bytesAt b 0x28 4 then stBadParam
  else if !bitAt (bytesAt b 6 1) 0 && bytesAt b 8 8 != (Config.mapHash (numGal s)).toNat then stNotPortable
  else if bitAt (bytesAt b 6 1) 1 && bitAt (bytesAt b 7 1) 3 && s.fab.lock &&
      (match metaAt s first with | some m => m.module != s.fab.module | .none => false) then stNotReady
  else stOk

/-- CHECKPOINT_RESTORE. -/
def doCkptRestore (first : Nat) (s : State) : Answer × State :=
  let st := restoreImageCheck first s
  if st ≠ stOk then (ansFail st, s)
  else (ansLong (.checkpointRestore first), modHealth s (fun x => { x with stage := .restoring }))

/-- The bytes of a section in the image at `first`. -/
def sectionBytes (s : State) (first : Nat) (x : CkptSection) : List Byte :=
  vaultGet s ((first + 1) * extBytes + x.offset) x.length

/-- The Catalogue and the objects of the image. Entries take the epoch in force, with the Catalogue all of them, else those of the
objects written, where a Catalogue exists; an object written whole loses LOADING and its poison mark, and a restored Catalogue holds no
lock, since no tour is loaded (06 Table 06-1, R397, R401; log entry 72). -/
def restoreHbm (first catBase : Nat) (xs : List CkptSection) (s : State) : State :=
  let s := xs.foldl (fun s x =>
    match x.item with
    | .catalogue => (hubWrite { s with cat := { s.cat with enabled := true, base := catBase } } catBase (sectionBytes s first x)).2
    | .object _ => (hubWrite s x.addr (sectionBytes s first x)).2
    | .region _ _ => s) s
  let whole := xs.any (fun x => x.item == .catalogue)
  let done := xs.filterMap (fun x => match x.item with | .object i => some i | _ => .none)
  let s := if whole then pruneBlocks s else s
  ((heldEnts s).filter (fun i => whole || done.contains i)).foldl (fun s i =>
    modEnt i (fun e => { e with
      epoch := s.health.epoch.toNat, locked := e.locked && !whole, loading := e.loading && !whole && !done.contains i,
      poisoned := e.poisoned && !done.contains i }) s) s

/-- A declared region is released before a restore. -/
def dropRegion (g j : Nat) (s : State) : State := if (rgnOf s g j).valid then releaseRgn g j s else s

/-- Puts one region section of an image back. -/
def restoreRgn (first : Nat) (s : State) (x : CkptSection) : State :=
  match x.item with
  | .region g j =>
    if numGal s ≤ g then s
    else
      let s := setRgn s g j { x.rgn with poisoned := false, poisonCode := 0, readyTick := s.time.now }
      hubBulk g j (wordsOf (sectionBytes s first x)) s
  | _ => s

/-- Every declared region is released, B60 to B63 too while Restoration is enabled, sealed ones filled with zeros, whose fills land
before their rows are declared again (04 R92; log entry 72). Then the regions of the image are declared and filled. -/
def restoreRegions (first : Nat) (xs : List CkptSection) (s : State) : State :=
  xs.foldl (restoreRgn first) (foldRange (numGal s) (fun g x => landZeroFills g (foldRange 64 (dropRegion g) x)) s)

/-- Queue positions, sizes and bases, into a queue pair that is not enabled. -/
def restoreQp (img q : Qp) : Qp :=
  if q.enable then q
  else { q with sqHead := img.sqHead, rqTail := img.rqTail, phase := img.phase, sqLog := img.sqLog, rqLog := img.rqLog,
                sqLoc := img.sqLoc, sqAddr := img.sqAddr, rqLoc := img.rqLoc, rqAddr := img.rqAddr }

/-- The counter sets of both banks. -/
def restoreCounters (cs : List (CounterSet × CounterSet)) (s : State) : State :=
  if cs.isEmpty then s
  else foldRange (numGal s) (fun g x => modGal x g (fun y =>
    match cs[g]? with
    | some c => { y with bank0 := { y.bank0 with counters := c.1 }, bank1 := { y.bank1 with counters := c.2 } }
    | .none => y)) s

/-- A party group of the image is formed again; what it meets joins the statuses. None is formed in debug mode. -/
def restoreGroup (m : ImageMeta) (o : WorkOutcome) (r : List (BitVec 16) × State) (k : Nat) : List (BitVec 16) × State :=
  if r.2.sec.debug then r
  else if o.groups.getLsbD k then (r.1 ++ [stUnreachable], r.2)
  else
    let g := vget m.groups k Group.empty
    let x := channelKeys g.self.toNat g.parties.toNat (8 * k) g.idKeys o r.2
    if x.1.ok then (r.1, modGroup x.2 k (formedGroup g.groupId g.self.toNat g.parties.toNat g.members g.idKeys x.1))
    else (r.1 ++ [stAuthFail], x.2)

/-- The items of a large image, and the first of FABRIC_UNREACHABLE and AUTH_FAIL that a window or a group met. -/
def restoreLarge (m : ImageMeta) (o : WorkOutcome) (s : State) : BitVec 16 × State :=
  let s := { s with fab := { s.fab with module := m.module, lock := true, routes := m.routes } }
  let open_ := (List.range 64).filter (fun w => (vget m.windows w LoanWindow.closed).isOpen)
  let deaf := fun (w : Nat) => o.failed.getLsbD w || !(routeOf s (vget m.windows w LoanWindow.closed).remote.toNat).valid
  let s := open_.foldl (fun x w => if deaf w then x
    else modWin x w (fun _ => { vget m.windows w LoanWindow.closed with epoch := x.health.epoch })) s
  let isRoot := m.root == s.fab.module
  let s := if m.joined then modTime s (fun t => { t with
      domain := m.domain, root := m.root, isRoot := isRoot, joined := true, disciplined := isRoot, aligned := isRoot,
      holdover := false, offset := 0, lastMessage := t.now, lastExchange := t.now })
    else s
  let formed := (List.range 4).filter (fun k => (vget m.groups k Group.empty).formed)
  let r := formed.foldl (restoreGroup m o) ([], s)
  (if open_.any deaf then stUnreachable else r.1.headD stOk, r.2)

/-- The end of a restore (R397). -/
def finishRestore (first : Nat) (o : WorkOutcome) (s : State) : Answer × State :=
  let b := headerAt s first
  let s := modHealth s (fun x => { x with stage := .idle })
  match metaAt s first with
  | .none => (ansOk, s)
  | some m =>
    let scope := bytesAt b 7 1
    let s := restoreHbm first (bytesAt b 0x18 8) m.sections s
    let s := restoreRegions first m.sections s
    if !bitAt scope 3 then (ansOk, s)
    else
      let s := modHost s (fun h => { h with qps := Vector.ofFn (fun (i : Fin 64) => restoreQp (vget m.qps i Qp.reset) (vget h.qps i Qp.reset)) })
      let s := restoreCounters m.counters s
      let (st, s) := if bitAt (bytesAt b 6 1) 1 then restoreLarge m o s else (stOk, s)
      (if st = stOk then ansOk else ansFail st, s)

/-- A saved tour is loaded again, at once and without a DONE entry. -/
def reloadTour (bs : List Byte) (s : State) : BitVec 16 × State :=
  let (a, s) := loadPackage bs s
  match a.work with
  | some (.tourLoad id st detail) => let (a, s) := finishTourLoad id st detail s; (a.status, s)
  | _ => (a.status, s)

/-- A saved tour is submitted again, NOT_BEFORE = Tr + (S - Tc), DEADLINE_LIMIT 0; its REPLY goes to its queue pair (R398). -/
def resubmitTour (x : SavedTour) (s : State) : State :=
  let nb := fun (k : Int) => ((s.time.now : Int) + k).toNat
  match x.restore, x.offset with
  | some j, some k =>
    let q : RestoreReq :=
      { input := j.input, output := j.output, keyR := j.keyR, keyX := j.keyX, keyP := j.keyP, slotsLog := j.slotsLog,
        outLimbs := j.outLimbs, policy := x.policy, inBits := j.inBits, outBits := j.outBits, lut := j.lut, lutIndex := .none,
        autoIns := .none }
    if s.power.emergency then writeReply s x.hdr 0x0303 (ansFail stNotReady)
    else
    let ((st, id, start), s') := admitRestore x.hdr q (nb k) 0 s
    let res := match tourOf s' id with | some t => startResult t start | .none => []
    writeReply (if st = stOk then s' else { s with freeCount := s'.freeCount }) x.hdr 0x0303
      { status := if st = stOk && start != plainStart s (nb k) then stDeferred else st, detail := 0, result := res, work := .none }
  | .none, off =>
    let (st, s) := reloadTour x.package s
    (match off with
     | .none => s
     | some k =>
       if st ≠ stOk then writeReply s x.hdr 0x0302 (ansFail st)
       else
         let (a, s) := doTourSubmit x.hdr (BitVec.ofNat 64 (bytesAt x.package 8 8)) (nb k) 0 s
         writeReply s x.hdr 0x0302 a)
  | _, _ => s

/-- After DONE, the saved tours in their admission order (R398). -/
def resubmitAll (first : Nat) (s : State) : State :=
  match metaAt s first with
  | .none => s
  | some m => if bitAt (bytesAt (headerAt s first) 7 1) 3 then m.tours.foldl (fun x t => resubmitTour t x) s else s

/-! ### Migration epochs (18 R399, R400) -/

/-- MIGRATE_FENCE: the epoch of the module and of every open window changes at the REPLY. -/
def doFence (e : BitVec 8) (timeout : Nat) (s : State) : Answer × State :=
  if e = s.health.epoch then (ansFail stBadParam, s)
  else
    let s := modHealth s (fun x => { x with epoch := e, fencing := true })
    let s := { s with fab := { s.fab with windows := s.fab.windows.map (fun w => if w.isOpen then { w with epoch := e } else w) } }
    (ansLong (.migrateFence e (s.time.now + timeout)), s)

/-- Descriptors with a FABRIC endpoint and another epoch that are in progress. -/
def outstanding (s : State) (e : BitVec 8) : Nat :=
  (s.dma.chans.toList.filter (fun c => match c.cur with
    | some p => (p.desc.src == .fabric || p.desc.dst == .fabric) && p.desc.epoch != e
    | .none => false)).length

/-- DONE of a fence: RESULT carries OUTSTANDING with either status (R400). -/
def fenceEntry (h : Hdr) (op st : BitVec 16) (n : Nat) (s : State) : State :=
  let body := leBytes 8 0 ++ padTo 16 (leBytes 4 n)
  match h.src with
  | .qp q =>
    let s := modQp s q.toNat (fun x => { x with longs := x.longs - 1 })
    qpEntry s q.toNat h.irq h.tag kindDone st op body
  | .mbox => mboxEntry s h.tag st op body

/-- FENCE_DONE: the first fence whose count reached 0 or whose time has passed. -/
def doFenceDone (s : State) : State :=
  let due := fun (w : LongWork) => match w.kind with
    | .migrateFence e limit => outstanding s e == 0 || decide (limit ≤ s.time.now)
    | _ => false
  if !docentUp s then s
  else match s.host.longWork.findIdx? due with
  | .none => s
  | some i =>
    let r := takeWork i s
    match r.1 with
    | some w =>
      (match w.kind with
       | .migrateFence e _ =>
         let n := outstanding r.2 e
         let left := r.2.host.longWork.any (fun x => match x.kind with | .migrateFence _ _ => true | _ => false)
         fenceEntry w.hdr w.opcode (if n = 0 then stOk else stNotReady) n (modHealth r.2 (fun x => { x with fencing := left }))
       | _ => r.2)
    | .none => r.2

/-! ### The risk estimate (18 R384 to R388) -/

/-- Sums of the taps over the last 64 periods. -/
def sumTaps (l : List Taps) : Taps :=
  l.foldl (fun a t => { ce := a.ce + t.ce, ue := a.ue + t.ue, rl := a.rl + t.rl, uc := a.uc + t.uc, rt := a.rt + t.rt,
                        tr := a.tr + t.tr, dr := a.dr + t.dr, af := a.af + t.af }) Taps.zero

/-- The components of Table 18-1: HBM, VAULT, LINK, DROOP, THERMAL, WEAR, ARITH. -/
def riskParts (t : Taps) (margin : Int) (meanErases : Nat) : List Nat :=
  [min 64 (t.ce / 64 + 32 * t.ue), min 48 (t.rl / 4 + 24 * t.uc), min 32 (t.rt / 256 + 8 * t.tr), min 32 (8 * t.dr),
   (min 40 (4 * max 0 (10 - margin))).toNat, min 16 (16 * meanErases / 5000), min 64 (32 * t.af)]

/-- An automatic checkpoint, with the parameters of HUB_CKPT_CFG (R386). Whether its partner answers is a free value (log entry 105). -/
def autoCkpt (s : State) : State :=
  let (v, s) := freeBits 1 s
  let c := s.health.cfg.toNat
  let f := fun (lo : Nat) => BitVec.ofNat 8 (fieldAt c lo 8)
  let window := BitVec.ofNat 8 (fieldAt c 24 6)
  let first := fieldAt c 44 20
  let st := ckptCheck (f 8) (f 16) (f 0) window.toNat first (v == 1) s
  if st ≠ stOk then raiseEvent (modHealth s (fun x => { x with skipped := bump8 x.skipped }))
  else startCkpt .none (f 8) (f 16) (f 0) window first
    (modHealth s (fun x => { x with triggers := bump8 x.triggers, lastAuto := some x.periods }))

/-- RISK_EVALUATION: the end of an evaluation period; the smallest thermal margin comes from the sensors. -/
def doRisk (margin : Int) (s : State) : State :=
  if !hubRuns s then s
  else
    let h := s.health
    let hist := (h.taps :: h.history).take 64
    let parts := riskParts (sumTaps hist) margin (meanErasesRead s)
    let est := min 255 (sumNat parts)
    let th := h.ckptTh.toNat
    let crossing := h.armed && decide (h.estimate.toNat < th) && decide (th ≤ est)
    let gapOk := match h.lastAuto with | some p => decide (p + h.autoGap.toNat ≤ h.periods + 1) | .none => true
    let alert := if h.alertTh.toNat ≤ est then true else if est + 16 < h.alertTh.toNat then false else h.alert
    let s := modHealth s (fun x => { x with
      history := hist, taps := Taps.zero, periods := x.periods + 1, estimate := BitVec.ofNat 8 est,
      parts := Vector.ofFn (fun (i : Fin 7) => BitVec.ofNat 8 (parts.getD i 0)), alert := alert,
      armed := if crossing then false else x.armed || decide (est + 16 < th) })
    let s := { s with hbm := { s.hbm with
      fixes := s.hbm.fixes.filter (fun f => correctedTwice s f.1 || decide (s.health.periods < f.2 + 64)) } }
    let s := if alert && !h.alert then raiseEvent s else s
    if crossing && h.autoEn && gapOk then autoCkpt s else s

/-! ### Meanings -/

def execCheckpointTake (h : Hdr) (kind scope target window : BitVec 8) (firstExtent : Word) (peer : Peer) (s : State) : Out :=
  .next (command h 0x0600 (doCkptTake h kind scope target window firstExtent.toNat peer) s)
def execTourStart (tourId : Quad) (s : State) : Out := .next (doTourStart tourId (stageFor tourId s))
def execCheckpointStage (s : State) : Out := .next (doCkptStage s)
def execCheckpointDrainDone (partnerLost : Bool) (s : State) : Out := .next (doDrainDone partnerLost s)
def execCheckpointRestore (h : Hdr) (firstExtent : Word) (s : State) : Out :=
  .next (command h 0x0601 (doCkptRestore firstExtent.toNat) s)
def execMigrateFence (h : Hdr) (epoch : BitVec 8) (timeout : Word) (s : State) : Out :=
  .next (command h 0x0602 (doFence epoch timeout.toNat) s)
def execFenceDone (s : State) : Out := .next (doFenceDone s)
def execRiskEvaluation (thermalMargin : Int) (s : State) : Out := .next (doRisk thermalMargin s)

end Sys2Proof.Machine
end

