-- ==== Sys2Proof/Machine/Security.lean ====
section
/-!
DEFINITION. Sys2Proof/Machine/Security.lean: boot, firmware, debug states, the big-number engine, SPDM and MCTP (19).
-/

set_option Elab.async false

namespace Sys2Proof.Machine

/-! ### Boot (19 R404 to R408) -/

def flashGet (s : State) (o n : Nat) : List Byte := smRead 0 o n s.flash

def fwVersionOf (h : List Byte) : Nat := bytesAt h 8 4
def fwSvn (h : List Byte) : Nat := bytesAt h 12 4
def fwMinSvn (h : List Byte) : Nat := bytesAt h 16 4
def fwBody (h : List Byte) : Nat := bytesAt h 20 4

/-- The ROM root key as 133 bytes. -/
def rootKeyBytes : List Byte :=
  [0x04] ++ leBytes 66 (Config.rootKey 0).toNat ++ leBytes 66 (Config.rootKey 1).toNat

/-- MAGIC, VERSION and the zero fields of a header (19 Table 19-2). -/
def fwHeadOk (h : List Byte) : Bool :=
  bytesAt h 0 4 == 0x4B5A4657 && bytesAt h 4 2 == 1 && bytesAt h 6 2 == 0 && bytesAt h 0x18 8 == 0 &&
    bytesAt h 0xE5 3 == 0 && bytesAt h 0x16C 4 == 0 && bytesAt h 0x1F4 12 == 0

def fwKey (h : List Byte) : List Byte := (h.drop 0x60).take 133

/-- The first failing check of 19 Table 19-3, in table order; 0 for a valid image. `h` is the 512-byte header, `body`
gives the body's bytes. -/
def imageReason (fusedMin : Nat) (h : List Byte) (body : Nat → List Byte) (readError : Bool) : Nat :=
  if !fwHeadOk h then 1
  else if !signatureOk rootKeyBytes ((h.drop 0xE8).take 132) (fwKey h) then 2
  else if !signatureOk (fwKey h) ((h.drop 0x170).take 132) (h.take 0x170) then 3
  else if decide (127 < fwSvn h) || decide (fwSvn h < fwMinSvn h) then 4
  else if fwSvn h < fusedMin then 5
  else if fwBody h < 1 ∨ 16707584 < fwBody h then 6
  else if sha512 (body (fwBody h)) != (h.drop 0x20).take 64 then 7
  else if readError then 8
  else 0

/-- Reason code of a flash slot at boot (19 R405). -/
def slotReason (s : State) (b readError : Bool) : Nat :=
  let base := slotBase b
  imageReason s.fuses.svnBlown (flashGet s base 512) (fun n => flashGet s (base + 0x1000) n) readError

/-- The slot that boots, if any, and AB_DIFFER (19 Table 19-4). -/
def slotChoice (okA okB : Bool) (ha hb : List Byte) : Option Bool × Bool :=
  match okA, okB with
  | false, false => (.none, false)
  | true, false => (some false, false)
  | false, true => (some true, false)
  | true, true =>
    if fwSvn ha < fwSvn hb then (some true, true)
    else if fwSvn hb < fwSvn ha then (some false, true)
    else (some false, ha != hb)

/-- A challenge or nonce that leaves the module (19 R410): 32 bytes. -/
def freshNonce (s : State) : List Byte × State :=
  let e := rawBits 2 s
  ((sha512 e.1).take 32, e.2)

/-- The challenge made of the bytes of `r`. -/
def setChallenge (r : List Byte × State) : State :=
  { r.2 with sec := { r.2.sec with challenge := BitVec.ofNat 256 (leNat r.1) } }

def newChallenge (s : State) : State := setChallenge (freshNonce s)


/-- The host link up at speed `a`, width `b` and flit mode `c` (16 Tables 16-1, 16-12): 64 GT/s has 256-byte flits only. -/
def linkTrained (a b c : Nat) (s : State) : State :=
  modHost s (fun h => { h with link := { h.link with
    up := true, speed := BitVec.ofNat 4 (a % 6 + 1), width := BitVec.ofNat 5 (2 ^ (b % 5)), flit256 := a % 6 == 5 || c == 1 } })

/-- The link after training: speed, width and flit mode are what the host settles (free values). -/
def trainLink (s : State) : State :=
  let a := freeBits 8 s
  let b := freeBits 8 a.2
  let c := freeBits 1 b.2
  linkTrained a.1.toNat b.1.toNat c.1.toNat c.2

/-- What the ROM found: the two reason codes, whether the valid images differ, and whether none is valid. -/
def noteSlots (ra rb : Nat) (differ none : Bool) (s : State) : State :=
  { s with sec := { s.sec with aReason := BitVec.ofNat 4 ra, bReason := BitVec.ofNat 4 rb, abDiffer := differ,
                               recovery := none } }

/-- The image with header `h` in slot `b` is entered: SVN fuses are blown up to its MIN_SVN (19 R407). -/
def enterImage (b : Bool) (h : List Byte) (s : State) : State :=
  { s with fuses := { s.fuses with svnBlown := max s.fuses.svnBlown (fwMinSvn h) },
           sec := { s.sec with slotB := b, bootSvn := BitVec.ofNat 7 (fwSvn h),
                               fwVersion := BitVec.ofNat 32 (fwVersionOf h) } }

/-- The clocks lock and the link trains, whatever boots (20 R431). -/
def bootLinks (s : State) : State :=
  let s := modTime s (fun t => { t with refLock := true, islandLock := t.islandLock ||| 0x40000000000 })
  if s.host.link.up then s else trainLink s

/-- The chosen image runs, or recovery does. A health test that failed since the reset, in the start-up tests too, leaves no instance. -/
def bootInto (pick : Option Bool) (ha hb : List Byte) (s : State) : State :=
  match pick with
  | .none => setPowerState (newChallenge s) .recovery
  | some b => setPowerState (newChallenge (drbgStart (enterImage b (if b then hb else ha) s))) .idle

/-- The slot that boots and AB_DIFFER, as both slots stand. -/
def bootChoice (s : State) (readErrorA readErrorB : Bool) : Option Bool × Bool :=
  slotChoice (slotReason s false readErrorA == 0) (slotReason s true readErrorB == 0) (flashGet s (slotBase false) 512)
    (flashGet s (slotBase true) 512)

/-- A reset or a loss of power that cuts BOOT short may find some of the SVN fuses blown that the image asks for: how many is a free value
(19 R407; log entry 154). -/
def cutBoot (s : State) : State :=
  if s.power.state ≠ .boot ∨ s.power.perst then s
  else match (bootChoice s false false).1 with
    | .none => s
    | some b =>
      let (n, s) := freeBits 7 s
      { s with fuses := { s.fuses with
          svnBlown := max s.fuses.svnBlown (min n.toNat (fwMinSvn (flashGet s (slotBase b) 512))) } }

/-- The identity certificate, in the last 64 KiB of slot B's range (19, before R404). -/
def identityCert (s : State) : List Byte := flashGet s 0x1FF0000 0x10000

/-- The boot checks the identity certificate against ID_SCALAR (19, after R402); what follows from a certificate that does not fit is not
stated. LAST tells the engine's last operation of the boot, a signature check or the public key of ID_SCALAR: a free bit (log entry 153). -/
def checkCert (s : State) : State :=
  let (v, s) := freeBits 1 s
  noteOp (if v = 1 then 1312500 else 2750000)
    { s with sec := { s.sec with certOk := Config.certKey (identityCert s) == identityKey } }

/-- BOOT (19 R405 to R408): in BOOT with PERST# deasserted the ROM checks both slots, blows SVN fuses up to MIN_SVN of
the booted image and starts the Docent, or recovery. -/
def doBoot (readErrorA readErrorB : Bool) (s : State) : State :=
  if s.power.state ≠ .boot ∨ s.power.perst then s else
  let ra := slotReason s false readErrorA
  let rb := slotReason s true readErrorB
  let ha := flashGet s (slotBase false) 512
  let hb := flashGet s (slotBase true) 512
  let c := bootChoice s readErrorA readErrorB
  bootInto c.1 ha hb (noteSlots ra rb c.2 c.1.isNone (checkCert (bootLinks s)))

/-! ### FIRMWARE_WRITE (19 R409) -/

def firmwareRunning (s : State) : Bool :=
  s.host.longWork.any (fun w => match w.kind with | .firmwareWrite .. => true | _ => false)

/-- The write names the slot that booted. -/
def namesBooted (s : State) (slot : Nat) : Bool := !s.sec.recovery && decide (slot = bit01 s.sec.slotB)

def doFirmwareWrite (slot addr bytes : Nat) (s : State) : Answer × State :=
  if 1 < slot ∨ bytes < 512 ∨ 0xFF0000 < bytes then (ansFail stBadParam, s)
  else if !hostReady s || namesBooted s slot || firmwareRunning s then (ansFail stNotReady, s)
  else
    let img := hostGet s addr bytes
    if imageReason s.fuses.svnBlown (img.take 512) (fun n => ((img.drop 0x1000).take n)) false ≠ 0 then
      (ansFail stAuthFail, s)
    else (ansLong (.firmwareWrite (slot == 1) img), s)

/-- The slot is erased and the image written; it takes effect at the next boot. -/
def finishFirmwareWrite (slot1 : Bool) (img : List Byte) (s : State) : Answer × State :=
  (ansOk, { s with flash := smPut 0 (slotBase slot1) img (smFill 0 (slotBase slot1) 0xFF0000 0 s.flash) })

/-! ### Debug states (19 R419 to R422) -/

def badUnlock (s : State) : State := { s with sec := { s.sec with unlockFails := bump8 s.sec.unlockFails } }

/-- The token is valid under 19 Table 19-9. -/
def tokenOk (s : State) (t : List Byte) : Bool :=
  bytesAt t 0 4 == 0x4B5A4454 && bytesAt t 4 2 == 1 && bytesAt t 6 2 == 0 &&
    (t.drop 8).take 16 == (sha512 identityKey).take 16 && bytesAt t 0x18 32 == s.sec.challenge.toNat &&
    bytesAt t 0x38 8 == 0 && bytesAt t 0xC5 3 == 0 && bytesAt t 0x14C 4 == 0 &&
    signatureOk rootKeyBytes ((t.drop 0xC8).take 132) ((t.drop 0x40).take 133) &&
    signatureOk ((t.drop 0x40).take 133) ((t.drop 0x150).take 132) (t.take 0x150)

def sealedDeclared (s : State) : Bool :=
  s.gals.toList.any (fun g => g.regions.toList.any (fun r => r.isSealed && holdsRows r))

def groupFormed (s : State) : Bool := s.fab.groups.toList.any (fun g => g.formed)

/-- DEBUG_STATE with STATE 0x01 (19 R419, R420). The token is checked before the other conditions (log entry 25). -/
def doDebugEnter (addr : Nat) (s : State) : Answer × State :=
  if !hostReady s then (ansFail stNotReady, s)
  else
    let ok := !s.fuses.debugDisabled && tokenOk s (hostGet s addr 468)
    let s := newChallenge s
    if !ok then (ansFail stAuthFail, badUnlock s)
    else if anyLive s || sealedDeclared s || groupFormed s then (ansFail stNotReady, s)
    else
      let s := drbgInstantiateNow (drbgZero s)
      (ansLong (.debugState 1 stOk), { s with sec := { s.sec with debug := true, sinceReset := true } })

/-- Zeroizes a gallery's cabinets, tour stores and twiddle banks as a reset does (19 R421). -/
def zeroGallery (g : Gallery) : Gallery :=
  { g with cab := [], bank0 := { g.bank0 with store := [], twiddle := [] },
           bank1 := { g.bank1 with store := [], twiddle := [] },
           cabRegs := { g.cabRegs with zeroized := true }, inv := { g.inv with enable := false } }

/-- DEBUG_STATE with STATE 0x00 (19 R421); in LOCKED it has nothing to leave. AUTH_ADDR names a host address in every form (16 R354).
-/
def doDebugLeave (s : State) : Answer × State :=
  if !hostReady s || anyLive s then (ansFail stNotReady, s)
  else if !s.sec.debug then (ansLong (.debugState 0 stOk), s)
  else
    let s := drbgInstantiateNow { s with gals := s.gals.map zeroGallery, sec := { s.sec with debug := false } }
    (ansLong (.debugState 0 stOk), s)

/-- DEBUG_STATE with STATE 0x02 (19 R422): accepted only in LOCKED. -/
def doDebugDisable (s : State) : Answer × State :=
  if !hostReady s || s.sec.debug then (ansFail stNotReady, s)
  else (ansLong (.debugState 2 stOk), { s with fuses := { s.fuses with debugDisabled := true } })

/-! ### The big-number engine (19 R414 to R418) -/

/-- An operand of L bits from its 512-byte field. -/
def pkField (blk : List Byte) (o bits : Nat) : Nat := bytesAt blk o 512 % 2 ^ bits

def pkFail (cycles addr : Nat) : LongKind := .pkOperation addr stPkFail (List.replicate 512 0) cycles
def pkDone (cycles addr : Nat) (res : List Byte) : LongKind := .pkOperation addr stOk (padTo 512 res) cycles

/-- Cycles of MODMUL and MODEXP (19 Table 19-7). -/
def modmulCycles (l : Nat) : Nat := let n := l / 64; n * n + 4 * n + 8
def modexpCycles (l : Nat) : Nat := (2 * l + 3) * modmulCycles l + 200

/-- L of MODMUL and MODEXP. -/
def lengthOk (l : Nat) : Bool := decide (64 ≤ l) && decide (l ≤ 4096) && l % 64 == 0

/-- Two operands and a modulus are free of the input failures of R415. -/
def modInputsOk (a b m : Nat) : Bool := m % 2 == 1 && a != 0 && b != 0 && decide (a < m) && decide (b < m)

/-- A request block accepted: BUSY until it is done. -/
def pkStart (k : LongKind) (s : State) : Answer × State :=
  (ansLong k, { s with sec := { s.sec with pkBusy := true } })

/-- Reads the request block and refuses what R417 refuses before the engine starts. -/
def pkBlock (addr : Nat) (lOk : Nat → Bool) (f : List Byte → Nat → State → Answer × State) (s : State) : Answer × State :=
  if addr % 4096 ≠ 0 then (ansFail stBadParam, s)
  else if !hostReady s then (ansFail stNotReady, s)
  else
    let blk := hostGet s addr 4096
    let l := bytesAt blk 0 2
    if lOk l then f blk l s else (ansFail stBadParam, s)

def doModmul (addr : Nat) : State → Answer × State :=
  pkBlock addr lengthOk (fun blk l =>
    let a := pkField blk 0x40 l
    let b := pkField blk 0x240 l
    let m := pkField blk 0x440 l
    pkStart (if modInputsOk a b m then pkDone (modmulCycles l) addr (leBytes 512 (a * b % m))
             else pkFail (modmulCycles l) addr))

def doModexp (addr : Nat) : State → Answer × State :=
  pkBlock addr lengthOk (fun blk l =>
    let a := pkField blk 0x40 l
    let b := pkField blk 0x240 l
    let m := pkField blk 0x440 l
    pkStart (if modInputsOk a b m then pkDone (modexpCycles l) addr (leBytes 512 (powMod a b m))
             else pkFail (modexpCycles l) addr))

/-- A scalar drawn from the entropy source: 1 + (H mod (n - 1)) (19 R418). -/
def drawScalar (s : State) : Nat × State :=
  let e1 := rawBits 2 s
  let e2 := rawBits 2 e1.2
  (1 + leNat (sha512 e1.1 ++ sha512 e2.1) % (p521N - 1), e2.2)

def scalarOk (d : Nat) : Bool := d != 0 && decide (d < p521N)

/-- What a key pair of scalar `d` answers. -/
def keygenKind (addr d : Nat) : LongKind :=
  match pointMul d p521G with
  | some (x, y) =>
    if onCurve x y then pkDone 1312500 addr (leBytes 66 d ++ leBytes 66 x ++ leBytes 66 y) else pkFail 1312500 addr
  | .none => pkFail 1312500 addr

def doP521Keygen (addr : Nat) : State → Answer × State :=
  pkBlock addr (· == 521) (fun _ _ s =>
    let d := drawScalar s
    pkStart (keygenKind addr d.1) d.2)

/-- What a key agreement of scalar `d` with the point (x, y) answers. -/
def ecdhKind (addr d x y : Nat) : LongKind :=
  if scalarOk d && onCurve x y then
    match pointMul d (some (x, y)) with
    | some (rx, ry) => if onCurve rx ry then pkDone 1375000 addr (leBytes 66 rx) else pkFail 1375000 addr
    | .none => pkFail 1375000 addr
  else pkFail 1375000 addr

def doP521Ecdh (addr : Nat) : State → Answer × State :=
  pkBlock addr (· == 521) (fun blk _ s =>
    let d := bytesAt blk 0x40 512
    let x := bytesAt blk 0x240 512
    let y := bytesAt blk 0x440 512
    pkStart (ecdhKind addr d x y) s)

def signKind (addr d e k : Nat) : LongKind :=
  pkDone 4187500 addr (leBytes 66 (ecdsaSign d e k).1 ++ leBytes 66 (ecdsaSign d e k).2)

def doP521Sign (addr : Nat) : State → Answer × State :=
  pkBlock addr (· == 521) (fun blk _ s =>
    let d := bytesAt blk 0x40 512
    let e := bytesAt blk 0x240 512
    let k := drawScalar s
    if scalarOk d then
      if signatureGood d e k.1 then pkStart (signKind addr d e k.1) k.2 else pkStart (pkFail 4187500 addr) (selfFailed k.2)
    else pkStart (pkFail 4187500 addr) k.2)

def doP521Verify (addr : Nat) : State → Answer × State :=
  pkBlock addr (· == 521) (fun blk _ s =>
    let e := bytesAt blk 0x40 512
    let x := bytesAt blk 0x240 512
    let y := bytesAt blk 0x440 512
    let r := bytesAt blk 0x640 96
    let t := bytesAt blk 0x6A0 416
    if onCurve x y && scalarOk r && scalarOk t && (ecdsaPoint x y e r t).isSome then
      pkStart (pkDone 2750000 addr (leBytes 4 (bit01 (ecdsaVerify x y e r t)))) s
    else pkStart (pkFail 2750000 addr) s)

/-- The operation ends: the result is in the block, the cycles in SEC_PK_CYCLES (19 R414, R417). -/
def finishPk (addr : Nat) (st : BitVec 16) (res : List Byte) (cycles : Nat) (s : State) : Answer × State :=
  let s := hostPut s (addr + 0x840) res
  let more := s.host.longWork.any (fun w => match w.kind with | .pkOperation .. => true | _ => false)
  let s := { s with sec := { s.sec with pkBusy := more, pkCycles := BitVec.ofNat 64 cycles,
                                        pkFails := if st = stOk then s.sec.pkFails else bump8 s.sec.pkFails } }
  (if st = stOk then ansOk else ansFail st, s)

/-! ### Attestation (19 R410 to R413, R423) -/

def bootHeader (s : State) : List Byte := flashGet s (slotBase s.sec.slotB) 512

/-- Measurement blocks (19 Table 19-6). -/
def measurement (s : State) (i : Nat) : List Byte :=
  match i with
  | 1 => leBytes 64 Config.romDigest.toNat
  | 2 => sha512 (bootHeader s)
  | 3 => [s.sec.bootSvn.setWidth 8, BitVec.ofNat 8 s.fuses.svnBlown, BitVec.ofNat 8 (bit01 s.sec.slotB),
          BitVec.ofNat 8 (bit01 s.sec.abDiffer), 0, 0, 0, 0]
  | 4 => [BitVec.ofNat 8 (bit01 s.sec.debug + 2 * bit01 s.sec.sinceReset + 4 * bit01 s.fuses.debugDisabled), 0, 0, 0]
  | 5 => leBytes 4 (hubId s) ++ leBytes 4 s.fuses.galleryMap.toNat
  | 6 => leBytes 64 s.sec.tourLog.toNat ++ leBytes 8 s.sec.tourCount
  | _ => []

/-- A block in the form of the DMTF (19 R412): its index, the form's number, its size, then whether it is a digest or raw data, and the
content. The other bits of the type are those of the DMTF (PRESUMED, log entry 26). -/
def measurementBlock (s : State) (i : Nat) : List Byte :=
  let v := measurement s i
  let kind := match i with | 1 => 0x00 | 2 => 0x01 | 5 => 0x82 | _ => 0x83
  if v.isEmpty then [] else [BitVec.ofNat 8 i, 1] ++ leBytes 2 (v.length + 3) ++ [BitVec.ofNat 8 kind] ++ leBytes 2 v.length ++ v

def setReply (b : List Byte) (s : State) : State := { s with sec := { s.sec with spdmReply := b } }
def noSession : Session := { inUse := false, keyed := false, updates := 0, keys := 0 }
def modSession (i : Nat) (f : Session → Session) (s : State) : State :=
  { s with sec := { s.sec with sessions := vmod s.sec.sessions i noSession f } }
def sessionOf (s : State) (i : Nat) : Session := vget s.sec.sessions i noSession

/-- A reply that carries a nonce, and a signature by the identity key (19 R403) over a transcript that SPDM defines: its digest is a free
value (log entry 26). -/
def signedReply (b : List Byte) (s : State) : State :=
  let n := freshNonce s
  let d := freeBits 512 n.2
  let sig := identitySign d.1.toNat d.2
  setReply (b ++ n.1 ++ sig.1) sig.2

/-- Session `i` has new keys: SPDM derives them, so their value is free (log entry 26). -/
def sessionKeys (i : Nat) (f : Session → Session) (s : State) : State :=
  let k := freeBits 512 s
  modSession i (fun x => { f x with keys := k.1 }) k.2

/-- The certificate chain of slot 0 (Table 19-5). -/
def certChain (s : State) : List Byte := Config.upperCerts ++ identityCert s

/-- The capabilities of Table 19-5 as the flags of SPDM 1.2: CERT, CHAL, MEAS with signature, MEAS_FRESH, ENCRYPT, MAC, KEY_EX, HBEAT,
KEY_UPD (PRESUMED, log entry 26). -/
def spdmFlags : Nat := 0x62F6

/-- The algorithms of Table 19-5 as SPDM 1.2 numbers them: ECDSA P-521, SHA-512, SHA-512 of measurements, secp521r1, AES-256-GCM
(PRESUMED, log entry 26). -/
def spdmAlgorithms : List Byte := leBytes 4 0x100 ++ leBytes 4 0x4 ++ leBytes 4 0x8 ++ leBytes 2 0x20 ++ leBytes 2 0x2

/-- IDE streams of the host link start or stop (16 Table 16-1, CXL_LINK_STATUS.IDE_ON). -/
def setIde (on : Bool) (s : State) : State := modHost s (fun h => { h with link := { h.link with ideOn := on } })

/-- SPDM_REQUEST (19 R411, R412): what this manual fixes of the reply; the rest of its format is that of SPDM 1.2 (log entry 26). -/
def doSpdmRequest (r : SpdmReq) (_payload : List Byte) (s : State) : State :=
  if !docentUp s then s else
  match r with
  | .getVersion => setReply (leBytes 2 0x1200) s
  | .getCapabilities => setReply (leBytes 4 spdmFlags) s
  | .negotiate => setReply spdmAlgorithms s
  | .getDigests => setReply ([0x01] ++ sha512 (certChain s)) s
  | .getCertificate => setReply (certChain s) s
  | .challenge => signedReply [] s
  | .getMeasurements i signed =>
    let b := if i = 0 then [6] else if i = 0xFF then (List.range 6).flatMap (fun k => measurementBlock s (k + 1))
             else measurementBlock s i.toNat
    if signed then signedReply b s else setReply b s
  | .keyExchange =>
    match (List.range 4).find? (fun i => !(sessionOf s i).inUse) with
    | some i => signedReply [] (sessionKeys i (fun _ => { noSession with inUse := true }) (drbgRequest 66 s).2)
    | .none => setReply [] s
  | .finish i => setReply [] (if (sessionOf s i.toNat).inUse then sessionKeys i.toNat (fun x => { x with keyed := true }) s else s)
  | .heartbeat _ => setReply [] s
  | .keyUpdate i =>
    setReply [] (if (sessionOf s i.toNat).keyed then sessionKeys i.toNat (fun x => { x with updates := x.updates + 1 }) s else s)
  | .endSession i => setReply [] (modSession i.toNat (fun _ => noSession) s)
  | .ideSetGo i => setReply [] (if (sessionOf s i.toNat).keyed && s.host.link.up then setIde true s else s)
  | .ideSetStop i => setReply [] (if (sessionOf s i.toNat).keyed then setIde false s else s)
  | .other _ => setReply [] s

/-- SPDM_HEARTBEAT_LOSS (19 R423): the session ends and its keys are zeroized. -/
def doHeartbeatLoss (i : Nat) (s : State) : State := modSession i (fun _ => noSession) s

/-- The transport brings the message: over PCIe the link is up; over SMBus it goes to the endpoint's address, or to that of ARP for an
ARP message, and its PEC fits (16 R359; log entry 27). -/
def mctpHeard (via : MctpVia) (m : MctpMsg) (s : State) : Bool :=
  match via, m with
  | .pcie, .arpAssign _ => false
  | .pcie, _ => s.host.link.up
  | .smbus a pec, .arpAssign _ => pec && a == 0x61
  | .smbus a pec, _ => pec && a == s.sec.smbusAddr

/-- MCTP_MESSAGE (16 R359): the endpoint's control messages; message types and the reserved endpoint numbers are those of the MCTP
base specification (PRESUMED, log entry 27). -/
def doMctpMessage (via : MctpVia) (m : MctpMsg) (s : State) : State :=
  if !docentUp s || !mctpHeard via m s then s else
  let reply := fun (b : List Byte) (x : State) => { x with sec := { x.sec with mctpReply := b } }
  match m with
  | .setEndpointId e =>
    if e = 0 ∨ e = 0xFF then reply [2] s
    else reply [0, e] { s with sec := { s.sec with mctpEid := e } }
  | .getEndpointId => reply [0, s.sec.mctpEid] s
  | .getVersionSupport => reply [0] s
  | .getMessageTypes => reply [0, 0x00, 0x05] s
  | .arpAssign a => { s with sec := { s.sec with smbusAddr := a } }
  | .other _ => reply [5] s

/-! ### Meanings -/

def execBoot (readErrorA readErrorB : Bool) (s : State) : Out := .next (doBoot readErrorA readErrorB s)
def execFirmwareWrite (h : Hdr) (slot : BitVec 8) (addr : Quad) (bytes : Word) (s : State) : Out :=
  .next (command h 0x0703 (doFirmwareWrite slot.toNat addr.toNat bytes.toNat) s)
def execDebugEnter (h : Hdr) (authAddr : Quad) (s : State) : Out :=
  .next (command h 0x0702 (doDebugEnter authAddr.toNat) s)
def execDebugLeave (h : Hdr) (_authAddr : Quad) (s : State) : Out := .next (command h 0x0702 doDebugLeave s)
def execDebugDisable (h : Hdr) (_authAddr : Quad) (s : State) : Out := .next (command h 0x0702 doDebugDisable s)
def execModmul (h : Hdr) (addr : Quad) (s : State) : Out := .next (command h 0x0704 (doModmul addr.toNat) s)
def execModexp (h : Hdr) (addr : Quad) (s : State) : Out := .next (command h 0x0704 (doModexp addr.toNat) s)
def execP521Keygen (h : Hdr) (addr : Quad) (s : State) : Out := .next (command h 0x0704 (doP521Keygen addr.toNat) s)
def execP521Ecdh (h : Hdr) (addr : Quad) (s : State) : Out := .next (command h 0x0704 (doP521Ecdh addr.toNat) s)
def execP521Sign (h : Hdr) (addr : Quad) (s : State) : Out := .next (command h 0x0704 (doP521Sign addr.toNat) s)
def execP521Verify (h : Hdr) (addr : Quad) (s : State) : Out := .next (command h 0x0704 (doP521Verify addr.toNat) s)
def execSpdmRequest (r : SpdmReq) (payload : List Byte) (s : State) : Out := .next (doSpdmRequest r payload s)
def execMctpMessage (via : MctpVia) (m : MctpMsg) (s : State) : Out := .next (doMctpMessage via m s)
def execSpdmHeartbeatLoss (session : BitVec 2) (s : State) : Out := .next (doHeartbeatLoss session.toNat s)

end Sys2Proof.Machine
end

