-- ==== Sys2Proof/Machine/Done.lean ====
section
/-!
DEFINITION. Sys2Proof/Machine/Done.lean: the end of a long command (16 R350): its remaining effect and its DONE entry. The
fills, loads, checkpoints and fences that have rows of their own end there.
-/

set_option Elab.async false

namespace Sys2Proof.Machine

/-- RESTORATION_ENABLE ends (07 R146); a reset that took B60 to B63 away leaves nothing to enable. -/
def finishRestorationEnable (scratch : Nat) (s : State) : Answer × State :=
  if (rgnOf s 0 60).valid then (ansOk, { s with rst := { s.rst with enabled := true, scratch := scratch } })
  else (ansFail stNotReady, s)

/-- DEBUG_STATE's outcome (19 R419 to R422). -/
def finishDebug (code : Nat) (st : BitVec 16) (s : State) : Answer × State :=
  (if st = stOk then ansRes [BitVec.ofNat 8 code] else ansFail st, s)

/-- What a long command still does when its work ends, with its DONE status; none when it cannot end yet, or ends in a row of
its own. -/
def finishWork (k : LongKind) (o : WorkOutcome) (s : State) : Option (Answer × State) :=
  match k with
  | .galleriesStart idle => some (finishGalleriesStart idle o.failed s)
  | .hbmTrain stks => some (finishHbmTrain stks o.failed s)
  | .catalogueCreate addr => some (ansOk, { s with cat := { s.cat with enabled := true, base := addr } })
  | .regionFill _ _ _ => .none
  | .restorationEnable scratch => some (finishRestorationEnable scratch s)
  | .restorationDisable => some (ansOk, disableRestoration s)
  | .atomicOpen k i => some (ansRes [BitVec.ofNat 8 i, BitVec.ofNat 8 k], s)
  | .atomicClose _ _ => some (ansOk, s)
  | .generatorFill dest rdy g j count addr seed lidx => finishGeneratorFill dest rdy g j count addr seed lidx s
  | .tourLoad _ _ _ => .none
  | .vaultOpen => some (finishVaultOpen o.failed s)
  | .vaultClose => finishVaultClose s
  | .extentRelease first count => finishExtentRelease first count s
  | .vaultSanitize => some (finishVaultSanitize s)
  | .portsEnable ports => some (finishPorts ports o s)
  | .timeJoin _ _ => finishJoin s
  | .groupForm slot id self parties members idKeys => some (finishGroup slot id self parties members idKeys o s)
  | .lockstepSet partner enable => some (finishLockstep partner enable o.heard s)
  | .checkpointTake => .none
  | .checkpointRestore first => some (finishRestore first o s)
  | .migrateFence _ _ => .none
  | .drbgInstantiate => some (finishDrbgInstantiate o.failed s)
  | .drbgFill g j rdy fresh noise q count => finishDrbgFill g j rdy fresh noise q count s
  | .debugState code st => some (finishDebug code st s)
  | .firmwareWrite slot1 image => some (finishFirmwareWrite slot1 image s)
  | .pkOperation addr st res cycles => some (finishPk addr st res cycles s)
  | .monitorSnapshot hbm addr image => finishSnapshot hbm addr image s

/-- What follows the DONE entry: a restore submits its saved tours again (18 R398). -/
def afterDone (k : LongKind) (s : State) : State :=
  match k with
  | .checkpointRestore first => resubmitAll first s
  | _ => s

/-- A PK_OPERATION before number `i` still has the engine: operations end in their order of arrival (19 R414). -/
def engineBefore (s : State) (i : Nat) (k : LongKind) : Bool :=
  let isPk := fun (x : LongKind) => match x with | .pkOperation .. => true | _ => false
  isPk k && (s.host.longWork.take i).any (fun w => isPk w.kind)

/-- LONG_COMMAND_DONE for the long command number `i`. -/
def doLongDone (i : Nat) (o : WorkOutcome) (s : State) : State :=
  match s.host.longWork[i]? with
  | .none => s
  | some w =>
    if !firmwareRuns s || engineBefore s i w.kind then s
    else match finishWork w.kind o (takeWork i s).2 with
      | .none => s
      | some r => afterDone w.kind (writeDone r.2 w.hdr w.opcode r.1)

/-! ### Meanings -/

def execLongCommandDone (work : Nat) (outcome : WorkOutcome) (s : State) : Out := .next (doLongDone work outcome s)

end Sys2Proof.Machine
end

