-- ==== Sys2Proof/Machine/Power.lean ====
section
/-!
DEFINITION. Sys2Proof/Machine/Power.lean: the input, the rails and PERST#, resets from outside, thermal and supply
emergencies, and the measured energy profile (20, 11 R239, 23 R458).
-/

set_option Elab.async false

namespace Sys2Proof.Machine

/-! ### Losing and gaining power (00, 01 R16; 20 R425, R431, R440) -/

/-- The boot flash after a loss of power: a slot that was being written is left erased, and fails its checks (19, after R409; log
entry 126). -/
def tornFlash (s : State) : SMem Byte :=
  s.host.longWork.foldl (fun f w => match w.kind with
    | .firmwareWrite slot1 _ => smFill 0 (slotBase slot1) 0xFF0000 0 f
    | _ => f) s.flash

/-- All volatile state goes, also in the middle of BOOT: what only the Vault medium, the boot flash and the fuses survive (01 R16,
20 Table 20-3). The vectors that the host has received stay with the host. -/
def loseVolatile (p : PowerState) (s : State) : State :=
  let s := cutBoot s
  let t := deviceReset 0 s
  let (m, n) := unpowered s
  { t with
    flash := tornFlash s, vault := Vault.resetOn m, freeCount := n, time := TimeSt.reset, host := { HostPort.reset with raised := s.host.raised },
    power := { Power.reset with state := p, senseClosed := s.power.senseClosed, perst := s.power.perst } }

/-- The module is powered: its rails are up. -/
def railsUp (s : State) : Bool := s.power.state != .off && s.power.state != .sequencing && s.power.state != .latchedOff

/-- POWER_INPUT_LOSS: below 42 V for 50 µs, or the input removed. LATCHED_OFF ends only when the input is removed, below 40 V for at least
1 s (R425): whether this loss is one is a free bit (log entry 150). -/
def doInputLoss (s : State) : State :=
  if s.power.state = .latchedOff then
    let (v, s) := freeBits 1 s
    if v = 1 then loseVolatile .off s else s
  else loseVolatile .off s

/-- POWER_INPUT_RISE: `bad` lists, for each failed attempt to bring the rails up, the rail that was not good in time; after
three failed attempts the stage stays off (R425). The input voltage that it measures is a free value. -/
def doInputRise (bad : List RailNo) (s : State) : State :=
  if s.power.state ≠ .off ∨ !s.power.senseClosed then s
  else if 3 ≤ bad.length then modPower s (fun p => { p with state := .latchedOff, attempts := 3 })
  else
    let (v, s) := freeBits 16 (loseVolatile .boot s)
    modPower s (fun p => { p with vin := v, attempts := bad.length })

/-- PWR_SENSE: while it is open the input counts as absent (23 R458). -/
def doSense (closed : Bool) (s : State) : State :=
  let s := if closed then s else doInputLoss s
  modPower s (fun p => { p with senseClosed := closed })

/-- PERST: assertion resets every block but the power-stage loops and PWR_RESET_CAUSE, and holds it; deassertion lets BOOT
begin (20 Tables 20-2, 20-3). -/
def doPerst (asserted : Bool) (s : State) : State :=
  let hold := fun (x : State) => modPower x (fun p => { p with perst := asserted })
  if !railsUp s || !asserted then hold s
  else
    let t := deviceReset 1 (hold (cutBoot s))
    { t with host := { HostPort.reset with raised := s.host.raised } }

/-- FUNCTION_LEVEL_RESET: a Function Level Reset or a secondary bus reset acts as a DEVICE reset (R430). -/
def doFlr (s : State) : State := if hubRuns s then deviceReset 4 (cutBoot s) else s

/-- SHUTDOWN: every rail off, LATCHED_OFF (R440). -/
def doShutdown (s : State) : State := if railsUp s then loseVolatile .latchedOff s else s

/-! ### Emergencies (20 R436 to R439) -/

/-- The emergency condition is set with a status, and every running tour ends with it at the next tick edge. -/
def emergency (st : BitVec 16) (s : State) : State :=
  let tick := s.time.now + 1
  let s := (runningTours s).foldl (fun x t => endEarly t.tourId st (causeOnly 0) tick tick x) s
  modPower s (fun p => { p with emergency := true, emergencyCode := st })

/-- THERMAL_ABORT. -/
def doThermalAbort (s : State) : State :=
  if !hubRuns s then s
  else raiseEvent (modPower (emergency stThermalAbort s) (fun p => { p with
    thermalAbort := true, thermalAborts := bump8 p.thermalAborts }))

/-- POWER_FAULT. -/
def doPowerFault (s : State) : State :=
  if !hubRuns s then s
  else raiseEvent (modPower (emergency stPowerFault s) (fun p => { p with
    powerFault := true, powerFaults := bump8 p.powerFaults }))

/-- EMERGENCY_CLEAR. -/
def doEmergencyClear (s : State) : State :=
  if hubRuns s then modPower s (fun p => { p with emergency := false, emergencyCode := 0 }) else s

/-- DROOP: counted, and by the Conservator too; no tour changes. -/
def doDroop (s : State) : State :=
  if !hubRuns s then s
  else raiseEvent (modPower (modTaps s (fun t => { t with dr := t.dr + 1 })) (fun p => { p with
    droop := true, droops := bump8 p.droops }))

/-- THERM_WARN. -/
def doThermWarn (s : State) : State :=
  if !hubRuns s then s
  else raiseEvent (modPower s (fun p => { p with thermWarn := true, thermWarns := bump8 p.thermWarns }))

/-- SMB_ALERT# is asserted while any PWR_EVENT flag is 1 (23 Table 23-5). -/
def smbAlert (s : State) : Bool :=
  railsUp s && (s.power.powerFault || s.power.thermalAbort || s.power.thermWarn || s.power.droop)

/-! ### The measured profile (11 R239) -/

/-- WATTS of a running tour in the tick that has just ended. -/
def wattsNow (s : State) (t : Tour) : Nat := t.watts.getD ((s.time.now - 1 - tourBase t) / windowTicks) 0

/-- The tours that ran in the tick before the present edge: one whose last step ends at the edge is among them. -/
def ranBefore (s : State) : List Tour :=
  s.tours.filter (fun t => decide (t.start < s.time.now) && (t.state == .running || t.state == .completed) &&
    (match t.status with
     | some _ => decide (s.time.now ≤ t.stopAt)
     | .none => (t.state == .running && !tourOver s t) || decide (s.time.now ≤ t.endTick)))

/-- Input power planned for the tours that ran in the window's last tick and everything else. -/
def plannedWatts (s : State) : Nat :=
  allowanceAt s 0 (s.time.now - 1) + sumNat ((ranBefore s).map (wattsNow s))

/-- PROFILE_EXCESS: a profile window ends with an average input of `watts`. -/
def doProfileExcess (watts : Nat) (s : State) : State :=
  if !hubRuns s then s
  else
    let plan := plannedWatts s
    let s := modPower s (fun p => { p with pin := BitVec.ofNat 12 (min 4095 watts) })
    if 105 * plan < 100 * watts then
      modPower s (fun p => { p with
        excessWindows := bump8 p.excessWindows,
        maxExcess := BitVec.ofNat 12 (max p.maxExcess.toNat (min 4095 (watts - plan))) })
    else s

/-! ### The host link (18 R384) -/

/-- CXL_LINK_RETRAIN: speed, width and flit mode settle anew. While IDE streams are active, how many integrity failures led to it is a
free value: they are counted, and the streams stop (log entry 140). -/
def doLinkRetrain (s : State) : State :=
  if !hubRuns s || !s.host.link.up then s
  else
    let free := freeBits 8 s
    let fails := if s.host.link.ideOn then free.1.toNat else 0
    let s := trainLink (modTaps free.2 (fun t => { t with tr := t.tr + 1 }))
    modHost s (fun h => { h with link := { h.link with
      retrains := bump8 h.link.retrains,
      ideFails := BitVec.ofNat 8 (min 255 (h.link.ideFails.toNat + fails)),
      ideOn := h.link.ideOn && fails == 0 } })

/-! ### Meanings -/

def execProfileExcess (inputWatts : Nat) (s : State) : Out := .next (doProfileExcess inputWatts s)
def execPowerInputRise (badRails : List RailNo) (s : State) : Out := .next (doInputRise badRails s)
def execPowerInputLoss (s : State) : Out := .next (doInputLoss s)
def execPwrSense (closed : Bool) (s : State) : Out := .next (doSense closed s)
def execPerst (asserted : Bool) (s : State) : Out := .next (doPerst asserted s)
def execFunctionLevelReset (s : State) : Out := .next (doFlr s)
def execThermalAbort (s : State) : Out := .next (doThermalAbort s)
def execPowerFault (s : State) : Out := .next (doPowerFault s)
def execEmergencyClear (s : State) : Out := .next (doEmergencyClear s)
def execDroop (_rail : RailNo) (s : State) : Out := .next (doDroop s)
def execThermWarn (s : State) : Out := .next (doThermWarn s)
def execShutdown (s : State) : Out := .next (doShutdown s)
def execCxlLinkRetrain (s : State) : Out := .next (doLinkRetrain s)

end Sys2Proof.Machine
end

