-- ==== Sys2Proof/Machine/Take.lean ====
section
/-!
DEFINITION. Sys2Proof/Machine/Take.lean: queue pairs and the mailbox (16 R340 to R347, R352): doorbells, the taking of a
packet, and the GO of the mailbox.
-/

set_option Elab.async false

namespace Sys2Proof.Machine

/-! ### Queue pairs (16 R342 to R345) -/

/-- RESERVED of a queue pair (R344). -/
def qpReserved (Q : Qp) : Nat := 2 * Q.tours + Q.longs

/-- IDLE of a queue pair (R345). -/
def qpIdle (Q : Qp) : Bool := !Q.enable && qpReserved Q == 0

/-- NO_MASTER of a queue pair (R343). -/
def qpNoMaster (s : State) (Q : Qp) : Bool := (!Q.sqLoc || !Q.rqLoc) && !s.host.busMaster

/-- Free entries of a reply queue: it is full when RQ_TAIL stands one entry before RQ_HEAD. -/
def rqFree (Q : Qp) : Nat := (Q.rqHead.toNat % rqSize Q + rqSize Q - Q.rqTail.toNat % rqSize Q - 1) % rqSize Q

/-- The reply queue has the room that R344 asks for. -/
def rqRoom (Q : Qp) : Bool := decide (qpReserved Q + 3 ≤ rqFree Q)

/-- A packet of the queue pair waits. -/
def qpWaits (Q : Qp) : Bool := Q.enable && Q.sqHead != Q.sqTail

/-- A queue in HBM lies in device memory, in trained stacks. -/
def queueReady (s : State) (hbm : Bool) (a n : Nat) : Bool := !hbm || (decide (a + n ≤ hbmBytes) && hbmTrained s a n)

/-- QP_DOORBELL: a write of CXL_QP_SQ_TAIL, after what the driver wrote into host memory (R342, R343). -/
def doQpDoorbell (q tail : Nat) (writes : HostWrites) (s : State) : State :=
  let s := hostPutAll s writes
  if !hubRuns s then s
  else modQp s q (fun Q =>
    if tail % 65536 < sqSize Q then { Q with sqTail := BitVec.ofNat 16 tail }
    else { Q with badDoorbell := true, badDoorbells := bump8 Q.badDoorbells })

/-- The fields of CXL_QP_CTRL: the logs only while IDLE is 1; setting ENABLE from 0 restarts the indices and PHASE (R344,
R345). -/
def writeQpCtrl (v : Nat) (Q : Qp) : Qp :=
  let Q := if qpIdle Q then { Q with rqLog := BitVec.ofNat 5 (fieldAt v 16 5), sqLog := BitVec.ofNat 5 (fieldAt v 8 5) } else Q
  let Q := { Q with vector := BitVec.ofNat 6 (fieldAt v 24 6), irqEn := bitAt v 1 }
  if bitAt v 0 && !Q.enable then { Q with enable := true, sqHead := 0, rqTail := 0, sqTail := 0, phase := true }
  else { Q with enable := bitAt v 0 }

/-- QP_ENABLE: a write of CXL_QP_CTRL. -/
def doQpCtrl (q v : Nat) (s : State) : State := if hubRuns s then modQp s q (writeQpCtrl v) else s

/-! ### Running a command -/

/-- The state after a meaning; every meaning of a packet's command answers a next state. -/
def stateOf (s : State) (o : Out) : State :=
  match o with
  | .next t => t
  | _ => s

/-- Runs the command that a packet holds: the meaning of its row. -/
def packetMeaning (c : Instr) (s : State) : Out :=
  match c with
  | .identify h => execIdentify h s
  | .galleriesStart h => execGalleriesStart h s
  | .galleriesStop h => execGalleriesStop h s
  | .hbmTrain h stks => execHbmTrain h stks s
  | .moduleResetGalleries h => execModuleResetGalleries h s
  | .moduleResetDevice h => execModuleResetDevice h s
  | .catalogueCreate h addr => execCatalogueCreate h addr s
  | .regionDeclare h gallery region mode feed sealed baseRow rows wblk =>
    execRegionDeclare h gallery region mode feed sealed baseRow rows wblk s
  | .regionRelease h gallery region => execRegionRelease h gallery region s
  | .regionFill h gallery region value => execRegionFill h gallery region value s
  | .objectRegister h catIndex entryAddr paramAddr paramBytes =>
    execObjectRegister h catIndex entryAddr paramAddr paramBytes s
  | .objectUpdate h catIndex entryAddr => execObjectUpdate h catIndex entryAddr s
  | .objectRelease h catIndex count => execObjectRelease h catIndex count s
  | .costTableLoad h addr => execCostTableLoad h addr s
  | .restorationEnable h scratch => execRestorationEnable h scratch s
  | .restorationDisable h => execRestorationDisable h s
  | .atomicOpen h addr length q => execAtomicOpen h addr length q s
  | .atomicClose h range stack => execAtomicClose h range stack s
  | .generatorFill h destKind flags gallery region count addr seed lidxBase =>
    execGeneratorFill h destKind flags gallery region count addr seed lidxBase s
  | .tourLoad h srcKind addr bytes => execTourLoad h srcKind addr bytes s
  | .tourUnload h tourId => execTourUnload h tourId s
  | .tourSubmit h tourId notBefore deadlineLimit => execTourSubmit h tourId notBefore deadlineLimit s
    | .restoreSubmit h input output lut keyRefresh keyExtract keyPack notBefore deadlineLimit slotsLog outLimbs
      policy =>
    execRestoreSubmit h input output lut keyRefresh keyExtract keyPack notBefore deadlineLimit slotsLog
      outLimbs policy s
  | .tourQuery h tourId => execTourQuery h tourId s
  | .keyRegister h catIndex space addr paramAddr paramBytes =>
    execKeyRegister h catIndex space addr paramAddr paramBytes s
  | .vaultOpen h => execVaultOpen h s
  | .vaultClose h => execVaultClose h s
  | .extentRelease h first count => execExtentRelease h first count s
  | .extentQuery h first count addr => execExtentQuery h first count addr s
  | .vaultSanitize h => execVaultSanitize h s
  | .patrolSet h enable threshold => execPatrolSet h enable threshold s
  | .portsEnable h ports => execPortsEnable h ports s
  | .timeJoin h domain root => execTimeJoin h domain root s
  | .timeLeave h => execTimeLeave h s
  | .windowOpen h window access remote kind gallery region addr length peer =>
    execWindowOpen h window access remote kind gallery region addr length peer s
  | .windowClose h window => execWindowClose h window s
  | .groupForm h groupId slot selfIndex parties members idKeysAddr =>
    execGroupForm h groupId slot selfIndex parties members idKeysAddr s
  | .groupDissolve h slot => execGroupDissolve h slot s
  | .groupRegionRegister h slot gallery region => execGroupRegionRegister h slot gallery region s
  | .groupRegionRemove h slot gallery region => execGroupRegionRemove h slot gallery region s
  | .lockstepSet h partner enable peer => execLockstepSet h partner enable peer s
  | .checkpointTake h kind scope target window firstExtent peer =>
    execCheckpointTake h kind scope target window firstExtent peer s
  | .checkpointRestore h firstExtent => execCheckpointRestore h firstExtent s
  | .migrateFence h epoch timeout => execMigrateFence h epoch timeout s
  | .drbgInstantiate h => execDrbgInstantiate h s
  | .drbgFill h gallery region flags noiseBits count q => execDrbgFill h gallery region flags noiseBits count q s
  | .debugEnter h authAddr => execDebugEnter h authAddr s
  | .debugLeave h authAddr => execDebugLeave h authAddr s
  | .debugDisable h authAddr => execDebugDisable h authAddr s
  | .firmwareWrite h slot addr bytes => execFirmwareWrite h slot addr bytes s
  | .modmul h addr => execModmul h addr s
  | .modexp h addr => execModexp h addr s
  | .p521Keygen h addr => execP521Keygen h addr s
  | .p521Ecdh h addr => execP521Ecdh h addr s
  | .p521Sign h addr => execP521Sign h addr s
  | .p521Verify h addr => execP521Verify h addr s
  | .monitorConfig h unit source binShift offset => execMonitorConfig h unit source binShift offset s
  | .monitorSnapshot h space addr => execMonitorSnapshot h space addr s
  | _ => .next s

def runPacket (c : Instr) (s : State) : State := stateOf s (packetMeaning c s)

/-- The packet at SQ_HEAD, as the Docent reads it. -/
def qpPacket (s : State) (q : Nat) : List Byte × State :=
  let Q := qpOf s q
  locRead Q.sqLoc (Q.sqAddr.toNat * 64 + 64 * Q.sqHead.toNat) 64 s

/-- The Docent may take the next packet of a queue pair (R343, R344). -/
def qpServed (s : State) (q : Nat) : Bool :=
  let Q := qpOf s q
  docentUp s && qpWaits Q && !qpNoMaster s Q && rqRoom Q &&
    queueReady s Q.sqLoc (Q.sqAddr.toNat * 64 + 64 * Q.sqHead.toNat) 64 &&
    queueReady s Q.rqLoc (Q.rqAddr.toNat * 64 + 32 * Q.rqTail.toNat) 32

/-- QP_COMMAND_TAKE: the Docent takes the packet at SQ_HEAD, executes it and writes its REPLY. A packet with FENCE set waits
for the DONE entries of the long commands before it (R352). -/
def doQpTake (q : BitVec 6) (peer : Peer) (s : State) : State :=
  let (bs, s') := qpPacket s q.toNat
  let h := packetHdr (.qp q) bs
  if !qpServed s q.toNat || (h.fence && (qpOf s q.toNat).longs != 0) then s
  else
    let s := modQp s' q.toNat (fun Q => { Q with sqHead := BitVec.ofNat 16 ((Q.sqHead.toNat + 1) % sqSize Q) })
    match readPacket (.qp q) bs peer with
    | .refuse st => writeReply s h (packetOp bs) (ansFail st)
    | .run c => runPacket c s

/-! ### The mailbox (16 R346) -/

/-- The packet in CXL_MBOX_CMD. -/
def mboxPacket (s : State) : List Byte := leBytes 64 s.host.mbox.cmd.toNat

/-- MBOX_GO: GO is taken while BUSY is 0 and a firmware runs. In RECOVERY every command that the recovery image does not
accept is answered NOT_READY (19 R408). -/
def doMboxGo (v : Nat) (peer : Peer) (s : State) : State :=
  if !bitAt v 0 || s.host.mbox.busy || !firmwareRuns s || !hubRuns s then s
  else
    let bs := mboxPacket s
    let s := modHost s (fun h => { h with mbox := { h.mbox with busy := true } })
    match readPacket .mbox bs peer with
    | .refuse st =>
      let st := if docentUp s || recoveryTakes (packetOp bs) then st else stNotReady
      writeReply s (packetHdr .mbox bs) (packetOp bs) (ansFail st)
    | .run c => runPacket c s

/-! ### Meanings -/

def execQpDoorbell (q : BitVec 6) (tail : Word) (writes : HostWrites) (s : State) : Out :=
  .next (doQpDoorbell q.toNat tail.toNat writes s)
def execQpCommandTake (q : BitVec 6) (peer : Peer) (s : State) : Out := .next (doQpTake q peer s)
def execQpEnable (q : BitVec 6) (value : Word) (s : State) : Out := .next (doQpCtrl q.toNat value.toNat s)
def execMboxGo (value : Word) (peer : Peer) (s : State) : Out := .next (doMboxGo value.toNat peer s)

end Sys2Proof.Machine
end

