-- ==== Sys2Proof/Machine/RegRead.lean ====
section
/-!
DEFINITION. Sys2Proof/Machine/RegRead.lean: the value of every register of BAR0 (22 Table 22-3), block by block, and what a
read clears.
-/

set_option Elab.async false

namespace Sys2Proof.Machine

/-- A register's value: whether it is a 64-bit register, and its bits. -/
structure Reg where
  wide : Bool
  val  : Nat
  deriving DecidableEq, Repr

/-- A 32-bit register made of fields (low bit, value). -/
def reg32 (fs : List (Nat × Nat)) : Option Reg := some { wide := false, val := sumNat (fs.map (fun f => f.2 * 2 ^ f.1)) % 2 ^ 32 }

/-- A 64-bit register made of fields (low bit, value). -/
def reg64 (fs : List (Nat × Nat)) : Option Reg := some { wide := true, val := sumNat (fs.map (fun f => f.2 * 2 ^ f.1)) % 2 ^ 64 }

/-- The base of the configuration space among the offsets of register accesses (log entry 38). -/
def cfgBase : Nat := 2 ^ 32

/-! ### HUB_, STR_ (02, 03, 06, 07, 11, 18) -/

/-- HUB_RISK_PARTS: component i at bits [8i + 7 : 8i]. -/
def riskPartsWord (h : Health) : Nat := leNat h.parts.toList

def stageIs (h : Health) (c : CkptStage) : Nat := bit01 (h.stage == c)

def hubReg (s : State) (o : Nat) : Option Reg :=
  let t := s.time
  let h := s.health
  match o with
  | 0x000 => reg32 [(0, hubId s)]
  | 0x100 => reg64 [(0, t.now)]
  | 0x108 => reg32 [(16, if t.disciplined then t.offset.toNat else 0), (7, bit01 t.setRefused), (6, bit01 t.holdover),
      (5, bit01 t.aligned), (4, bit01 t.disciplined), (0, bit01 t.refLock)]
  | 0x110 => reg64 []
  | 0x118 => reg64 [(0, t.islandLock.toNat)]
  | 0x200 => reg64 [(63, bit01 s.cat.enabled), (0, s.cat.base)]
  | 0x208 => reg32 [(24, s.cat.budgetRefusals.toNat), (16, s.cat.levelRefusals.toNat), (8, s.cat.tagRefusals.toNat),
      (1, bit01 s.cat.costLoaded)]
  | 0x300 => reg64 [(0, s.rst.scratch)]
  | 0x308 => reg32 [(24, s.rst.runs.toNat), (16, s.rst.autoRuns.toNat), (8, s.rst.faults.toNat), (1, bit01 s.rst.running),
      (0, bit01 s.rst.enabled)]
  | 0x400 => reg64 [(48, s.mon.invRecords.toNat), (12, s.mon.invBase.toNat)]
  | 0x500 => reg32 [(24, h.triggers.toNat), (16, h.skipped.toNat), (9, bit01 h.alert), (8, bit01 h.armed), (0, h.estimate.toNat)]
  | 0x508 => reg64 [(0, riskPartsWord h)]
  | 0x510 => reg32 [(24, h.alertTh.toNat), (16, h.ckptTh.toNat), (8, h.autoGap.toNat), (0, bit01 h.autoEn)]
  | 0x518 => reg64 [(0, h.cfg.toNat)]
  | 0x520 => reg64 [(48, h.stageSize.toNat), (30, h.stageBase.toNat)]
  | 0x528 => reg32 [(24, h.completed.toNat), (16, h.failed.toNat), (3, stageIs h .restoring), (2, stageIs h .draining),
      (1, stageIs h .staging), (0, stageIs h .waitingCut)]
  | 0x530 => reg64 [(0, h.cut)]
  | 0x540 => reg32 [(8, bit01 h.fencing), (0, h.epoch.toNat)]
  | _ => .none

def bridgeReg (s : State) (o : Nat) : Option Reg :=
  let b := s.bridge
  if o = 0 then
    reg32 [(24, b.retrains.toNat), (16, b.laneRejects.toNat), (8, b.flitLosses.toNat), (2, bit01 b.retraining),
      (1, bit01 b.dir10Up), (0, bit01 b.dir01Up)]
  else .none

/-! ### FAB_ (12, 17) -/

def portReg (p : Port) : Option Reg :=
  reg32 [(24, p.retries.toNat), (16, p.authFails.toNat), (8, p.retrains.toNat), (3, p.lanes.toNat), (2, bit01 p.keyed),
    (1, bit01 p.up), (0, bit01 p.enabled)]

/-- FAB_WIN_CFG. -/
def winCfg (w : LoanWindow) : Option Reg :=
  reg64 [(63, bit01 w.isOpen), (32, w.remote.toNat), (20, w.region.toNat), (15, w.gallery.toNat),
    (13, if w.isOpen then (if w.cabinet then 2 else 1) else 0), (9, w.redOp.toNat), (8, bit01 w.reduce), (0, w.access.toNat)]

/-- FAB_ROUTE. -/
def routeWord (r : Route) : Nat := bit01 r.valid * 2 ^ 13 + r.minimal.toNat * 2 ^ 5 + r.dport.toNat

def fabReg (s : State) (o : Nat) : Option Reg :=
  let l := s.fab.lockstep
  if o < 0x800 then (if o % 0x100 = 0 then portReg (portOf s (o / 0x100)) else .none)
  else if o = 0xC00 then
    reg32 [(31, bit01 s.fab.lock), (16, bit01 (adaptiveOn s)), (0, s.fab.module.toNat)]
  else if o = 0xC08 then reg32 [(24, s.fab.stale.toNat), (16, s.fab.refused.toNat), (8, s.fab.hopDrops.toNat)]
  else if o = 0xE00 then
    reg32 [(24, l.divergences.toNat), (6, l.partner.toNat), (2, bit01 l.partnerLost), (1, bit01 l.divValid), (0, bit01 l.enabled)]
  else if o = 0xE08 then reg64 [(0, l.divTick.toNat)]
  else if o = 0xE10 then
    reg64 [(40, l.divStep.toNat), (37, l.divStation.toNat), (32, l.divGallery.toNat), (0, l.divCtick.toNat)]
  else if 0xF00 ≤ o ∧ o < 0xF40 then
    let g := groupOf s ((o - 0xF00) / 0x10)
    if o % 0x10 = 0 then
      reg32 [(24, g.authFails.toNat), (16, g.openings.toNat), (6, g.self.toNat), (4, g.parties.toNat), (2, bit01 g.failed),
        (1, bit01 g.keyed), (0, bit01 g.formed)]
    else if o % 0x10 = 8 then reg32 [(0, g.groupId.toNat)]
    else .none
  else if 0x10000 ≤ o ∧ o < 0x20000 then
    (if o % 4 = 0 then reg32 [(0, routeWord (routeOf s ((o - 0x10000) / 4)))] else .none)
  else if 0x20000 ≤ o ∧ o < 0x20800 then
    let w := winOf s ((o - 0x20000) / 0x20)
    match o % 0x20 with
    | 0x00 => winCfg w
    | 0x08 => reg64 [(0, w.addr)]
    | 0x10 => reg64 [(0, w.length)]
    | _ => .none
  else .none

/-! ### PWR_, RNG_ (11, 12, 20) -/

/-- The code of PWR_STATE.STATE (20 Table 20-2). -/
def powerCode (p : PowerState) : Nat :=
  match p with
  | .off => 0 | .sequencing => 1 | .boot => 2 | .recovery => 3 | .idle => 4 | .active => 5 | .latchedOff => 6

def pwrReg (s : State) (o : Nat) : Option Reg :=
  let p := s.power
  match o with
  | 0x00 => reg32 [(8, bit01 p.emergency), (0, powerCode p.state)]
  | 0x08 => reg32 [(16, p.vin.toNat), (0, p.pin.toNat)]
  | 0x10 => reg32 [(16, if docentUp s then allowanceAt s 0 s.time.now else 0), (0, p.limit.toNat)]
  | 0x18 => reg32 [(3, bit01 p.powerFault), (2, bit01 p.thermalAbort), (1, bit01 p.thermWarn), (0, bit01 p.droop)]
  | 0x20 => reg32 [(24, p.powerFaults.toNat), (16, p.thermalAborts.toNat), (8, p.thermWarns.toNat), (0, p.droops.toNat)]
  | 0x28 => reg32 [(0, p.resetCause.toNat)]
  | 0x40 => reg32 [(24, p.excessWindows.toNat), (12, p.maxExcess.toNat), (0, bit01 s.sec.debug)]
  | _ => .none

def rngReg (s : State) (o : Nat) : Option Reg :=
  let d := s.drbg
  match o with
  | 0x00 => reg32 [(24, d.reseeds.toNat), (16, d.fills.toNat), (3, bit01 d.error), (2, bit01 d.reseeding),
      (1, bit01 d.instantiated), (0, bit01 d.esOk)]
  | 0x08 => reg32 [(24, d.rctFails.toNat), (16, d.aptFails.toNat)]
  | 0x10 => reg64 [(0, d.requests.toNat)]
  | _ => .none

/-! ### DMA_, HBM_, VLT_ (13, 14, 15) -/

/-- PEND_REQ of a channel: requests that the line of its descriptor holds, up to 255 (13 R273). -/
def pendReq (s : State) (c : Channel) : Nat :=
  match c.cur with
  | some p => if p.desc.reqLine = 0 then 0 else min 255 (lineCount s p.desc.reqLine)
  | .none => 0

/-- WAITING of a channel. -/
def chanWaiting (s : State) (c : Channel) : Bool :=
  match c.cur with
  | some p => burstWaits s c p
  | .none => false

def chanReg (s : State) (n o : Nat) : Option Reg :=
  let c := chanOf s n
  match o with
  | 0x00 => reg64 [(63, bit01 c.ringLoc), (6, c.ringAddr.toNat)]
  | 0x08 => reg64 [(63, bit01 c.cqLoc), (6, c.cqAddr.toNat)]
  | 0x10 => reg32 [(24, c.vector.toNat), (16, c.cqLog.toNat), (8, c.ringLog.toNat), (1, bit01 c.irqEn), (0, bit01 c.enable)]
  | 0x14 => reg32 [(0, c.tail.toNat)]
  | 0x18 => reg32 [(16, c.cqTail.toNat), (0, c.head.toNat)]
  | 0x1C => reg32 [(0, c.cqHead.toNat)]
  | 0x20 => reg32 [(0, c.credit.toNat)]
  | 0x24 => reg32 []
  | 0x28 => reg32 [(24, c.completions.toNat), (16, c.errors.toNat), (8, pendReq s c), (3, bit01 (cqFull c)),
      (2, bit01 s.dma.stopped), (1, bit01 (chanWaiting s c)), (0, bit01 c.cur.isSome)]
  | _ => .none

def dmaReg (s : State) (o : Nat) : Option Reg :=
  if o < 0x1000 then chanReg s (o / 0x40) (o % 0x40)
  else match o with
    | 0x1000 => reg32 [(24, s.dma.busErrors.toNat), (1, bit01 s.dma.stopped), (0, bit01 s.dma.errValid)]
    | 0x1008 => reg32 []
    | 0x1010 => reg64 [(0, s.dma.errAddr.toNat)]
    | 0x1018 => reg64 [(0, s.dma.errIface.toNat)]
    | _ => .none

def stackReg (st : Stack) (o : Nat) : Option Reg :=
  match o with
  | 0x00 => reg32 [(16, st.corrected.toNat), (8, st.uncorrectable.toNat), (0, bit01 st.ueValid)]
  | 0x08 => reg64 [(60, st.ueSource.toNat), (54, st.uePc.toNat), (0, st.ueLine.toNat)]
  | 0x10 => reg32 [(24, st.atomSat.toNat), (16, st.atomNan.toNat), (0, (st.ranges.toList.filter (·.isSome)).length)]
  | 0x18 => reg32 [(7, bit01 st.tgDone), (6, bit01 st.tgBusy), (4, st.tgMode.toNat), (2, st.tgPattern.toNat)]
  | 0x20 => reg64 [(0, st.tgMask.toNat)]
  | _ => if 0x100 ≤ o ∧ o < 0x200 ∧ o % 4 = 0 then reg32 [(0, (vget st.tgErr ((o - 0x100) / 4) 0).toNat)] else .none

def hbmReg (s : State) (o : Nat) : Option Reg :=
  if o = 0 then reg32 [(0, bit01 s.hbm.hubEighth)]
  else if o = 8 then
    reg32 [(24, s.hbm.shareRefusals.toNat), (8, s.hbm.doubleRate.toNat), (0, s.hbm.trained.toNat)]
  else if 0x1000 ≤ o ∧ o < 0x9000 then stackReg (stkOf s (o / 0x1000 - 1)) (o % 0x1000)
  else .none

/-- Extents not FREE. -/
def writtenExtents (s : State) : Nat := (s.vault.map.filter (fun p => p.2.state != .free)).length

/-- ERASED_SLOTS of an open Vault: the slots of stripes in use that are not programmed (15 Table 15-7). -/
def erasedSlots (s : State) : Nat :=
  let m := s.vault.medium
  stripeSlots * (m.goodStripes - 64) - (m.programmed.filter (fun k => stripeUsed m (k / stripeSlots))).length

def vaultReg (s : State) (o : Nat) : Option Reg :=
  let v := s.vault
  let m := v.medium
  match o with
  | 0x00 => reg32 [(24, v.conflicts.toNat), (16, v.uncorrectable.toNat), (8, v.progFails.toNat), (5, bit01 v.readOnly),
      (4, bit01 v.openPass), (3, bit01 v.sanitizing), (2, bit01 v.rebuilding), (1, bit01 v.isOpen), (0, bit01 v.mediumOk)]
  | 0x08 => if v.isOpen then reg64 [(42, m.goodStripes), (21, erasedSlots s), (0, writtenExtents s)] else reg64 []
  | 0x10 => reg64 [(0, if v.wearRead then m.bytesWritten else 0)]
  | 0x18 => reg32 [(16, if v.eraseRead then min 65535 (maxErases m) else 0), (0, min 65535 (meanErasesRead s))]
  | 0x20 => reg32 [(16, v.threshold.toNat), (8, v.relocations.toNat), (0, bit01 v.patrolEn)]
  | _ => .none

/-! ### CXL_, MSI-X (16) -/

def qpReg (s : State) (q o : Nat) : Option Reg :=
  let Q := qpOf s q
  match o with
  | 0x00 => reg64 [(63, bit01 Q.sqLoc), (6, Q.sqAddr.toNat)]
  | 0x08 => reg64 [(63, bit01 Q.rqLoc), (6, Q.rqAddr.toNat)]
  | 0x10 => reg32 [(24, Q.vector.toNat), (16, Q.rqLog.toNat), (8, Q.sqLog.toNat), (1, bit01 Q.irqEn), (0, bit01 Q.enable)]
  | 0x14 => reg32 [(0, Q.sqTail.toNat)]
  | 0x18 => reg32 [(16, Q.rqTail.toNat), (0, Q.sqHead.toNat)]
  | 0x1C => reg32 [(0, Q.rqHead.toNat)]
  | 0x20 => reg32 [(24, Q.badDoorbells.toNat), (8, qpReserved Q), (4, bit01 Q.badDoorbell), (3, bit01 (qpNoMaster s Q && Q.enable)),
      (2, bit01 (qpWaits Q && !rqRoom Q)), (1, bit01 (qpIdle Q)), (0, bit01 (Q.longs != 0))]
  | _ => .none

def cxlReg (s : State) (o : Nat) : Option Reg :=
  let h := s.host
  if o < 0x40 then (if o % 4 = 0 then reg32 [(0, h.mbox.cmd.toNat / 2 ^ (8 * o) % 2 ^ 32)] else .none)
  else if o < 0x60 then (if o % 4 = 0 then reg32 [(0, h.mbox.reply.toNat / 2 ^ (8 * (o - 0x40)) % 2 ^ 32)] else .none)
  else if o = 0x60 then reg32 [(2, bit01 h.mbox.busy)]
  else if o = 0x80 then
    reg32 [(24, h.irq.eventVec.toNat), (16, h.irq.engineVec.toNat), (8, h.irq.mboxVec.toNat), (2, bit01 h.irq.eventEn),
      (1, bit01 h.irq.engineEn), (0, bit01 h.irq.mboxEn)]
  else if o = 0x100 then
    reg32 [(24, h.link.retrains.toNat), (16, h.link.ideFails.toNat), (8, h.link.speed.toNat), (3, h.link.width.toNat),
      (2, bit01 h.link.flit256), (1, bit01 h.link.ideOn), (0, bit01 h.link.up)]
  else if o = 0x200 then reg32 [(8, h.dbgRefusals.toNat), (0, if s.sec.debug then h.dbgGallery.toNat else 0)]
  else if 0x10000 ≤ o ∧ o < 0x50000 then qpReg s ((o - 0x10000) / 0x1000) (o % 0x1000)
  else .none

/-- The MSI-X table (as PCIe defines it; the mask bits are kept inverted, log entry 11) and the pending bits. -/
def msixReg (s : State) (o : Nat) : Option Reg :=
  if o < 0x400 ∧ o % 4 = 0 then
    let w := smGet (0 : Word) (o / 4) s.host.msixTable
    if o % 16 = 12 then reg32 [(0, bit01 (vectorMasked s (o / 16)))] else reg32 [(0, w.toNat)]
  else if o = 0x1000 then reg64 [(0, s.host.msixPending.toNat)]
  else .none

/-! ### SEC_, MON_ (19, 21) -/

def secReg (s : State) (o : Nat) : Option Reg :=
  let c := s.sec
  match o with
  | 0x00 => reg32 [(24, s.fuses.svnBlown), (17, c.bootSvn.toNat), (16, bit01 c.abDiffer), (12, c.bReason.toNat),
      (8, c.aReason.toNat), (1, bit01 c.recovery), (0, bit01 c.slotB)]
  | 0x04 => reg32 [(0, s.fuses.galleryMap.toNat)]
  | 0x08 => reg32 [(24, c.unlockFails.toNat), (2, bit01 s.fuses.debugDisabled), (1, bit01 c.sinceReset), (0, bit01 c.debug)]
  | 0x10 => reg64 [(0, c.challenge.toNat)]
  | 0x18 => reg64 [(0, c.challenge.toNat / 2 ^ 64)]
  | 0x20 => reg64 [(0, c.challenge.toNat / 2 ^ 128)]
  | 0x28 => reg64 [(0, c.challenge.toNat / 2 ^ 192)]
  | 0x30 => reg32 [(24, c.pkFails.toNat), (16, c.selfFails.toNat), (0, bit01 c.pkBusy)]
  | 0x38 => reg64 [(0, c.pkCycles.toNat)]
  | _ => .none

def unitReg (u : Unit16) (o : Nat) : Option Reg :=
  match o with
  | 0x00 => reg64 [(0, unitCfg u)]
  | 0x08 => reg64 [(0, u.count.toNat)]
  | 0x10 => reg32 [(0, u.min.toNat)]
  | 0x14 => reg32 [(0, u.max.toNat)]
  | _ => if 0x100 ≤ o ∧ o < 0x200 ∧ o % 4 = 0 then reg32 [(0, (vget u.bins ((o - 0x100) / 4) 0).toNat)] else .none

def monReg (s : State) (o : Nat) : Option Reg :=
  let m := s.mon
  if o < 0x4000 then unitReg (unitOf s (o / 0x400)) (o % 0x400)
  else if o < 0x10000 then .none
  else
    let o := o - 0x10000
    if o < 0x20 ∧ o % 8 = 0 then reg64 [(0, (vget m.stall (o / 8) 0).toNat)]
    else if o = 0x20 then reg64 [(0, m.satTotal.toNat)]
    else if o = 0x28 then reg64 [(0, m.nanTotal.toNat)]
    else if o = 0x30 then reg32 [(0, m.setRefusals.toNat)]
    else if 0x100 ≤ o ∧ o < 0x300 ∧ o % 8 = 0 then reg64 [(0, (vget m.sentTotal ((o - 0x100) / 8) 0).toNat)]
    else .none

/-! ### GAL_, TOUR_, CAB_ (03 to 05, 06, 08 to 11) -/

def bankCode (b : BankState) : Nat := match b with | .free => 0 | .loaded => 1 | .accepted => 2 | .active => 3

def satSeen (c : CounterSet) : Bool := c.sat.toList.any (fun x => x != 0)

/-- The active bank holds an image of FORM 0x01 (10 Table 10-3). -/
def compatBank (b : Bank) : Bool := smGet (0 : Byte) 6 b.store == 1

def counterReg (c : CounterSet) (o : Nat) : Option Reg :=
  if o % 4 ≠ 0 then .none
  else if o < 0x40 then reg32 [(0, (vget c.sat (o / 4) 0).toNat)]
  else if o = 0x40 then reg32 [(0, c.nan.toNat)]
  else if 0x80 ≤ o ∧ o < 0x180 then reg32 [(0, (vget c.sent ((o - 0x80) / 4) 0).toNat)]
  else .none

def galReg (s : State) (k o : Nat) : Option Reg :=
  let x := galOf s k
  let r := x.regs
  let a := r.arithFault
  let f := r.keyFault
  match o with
  | 0x00 => reg32 [(16, r.step.toNat), (8, r.lateArrivals.toNat), (5, bit01 r.relayFwd), (4, bit01 r.relayHead),
      (3, bit01 x.active1), (2, bit01 r.inStep), (0, bit01 r.clockOn)]
  | 0x20 => reg32 [(24, r.arithCheck.toNat), (16, r.arithRange.toNat)]
  | 0x28 => reg64 [(40, a.stepCycle.toNat), (32, a.lane.toNat), (16, a.step.toNat), (9, a.limb.toNat), (8, bit01 a.valid),
      (6, a.station.toNat), (0, a.cause.toNat)]
  | 0x30 => reg32 [(8, r.injectLane.toNat), (4, r.injectTarget.toNat), (0, bit01 (r.injectArm && s.sec.debug))]
  | 0x38 => reg64 [(40, f.stepCycle.toNat), (32, f.binding.toNat), (16, f.step.toNat), (8, bit01 f.valid), (0, f.cause.toNat)]
  | 0x40 => reg32 [(24, r.keyMismatches.toNat), (16, r.poisonedKeys.toNat)]
  | 0x48 => reg32 [(24, r.planeLoads.toNat), (16, r.sampled.toNat),
      (1, bit01 (x.bank0.counters.nan != 0 || x.bank1.counters.nan != 0)),
      (0, bit01 (satSeen x.bank0.counters || satSeen x.bank1.counters))]
  | 0x50 => reg32 [(24, r.listSteps.toNat), (16, r.tileSteps.toNat), (8, r.maskedSets.toNat), (0, bit01 r.stateClear)]
  | 0x60 => reg32 [(1, x.inv.mask.toNat), (0, bit01 (x.inv.enable && s.sec.debug))]
  | 0x68 => reg32 [(8, x.inv.hazards.toNat), (0, x.inv.dropped.toNat)]
  | 0x800 => reg32 [(24, r.busyRefusals.toNat), (16, r.swaps.toNat), (6, bankCode x.bank1.status), (4, bankCode x.bank0.status),
      (1, bit01 (compatBank (activeBank x))), (0, bit01 x.active1)]
  | _ =>
    if 0x80 ≤ o ∧ o < 0x200 then counterReg x.bank0.counters (o - 0x80)
    else if 0x280 ≤ o ∧ o < 0x400 then counterReg x.bank1.counters (o - 0x280)
    else .none

/-- CAB_RGN_GEOM. -/
def rgnGeom (r : Region) : Option Reg :=
  reg64 [(32, r.wblk.toNat), (31, bit01 r.mode2D), (16, r.rows.toNat), (0, r.baseRow.toNat)]

/-- CAB_RGN_STATE. -/
def rgnState (r : Region) : Option Reg :=
  reg32 [(16, if r.poisoned then r.poisonCode.toNat else 0), (5, r.feed.toNat), (4, bit01 r.ready), (3, bit01 r.poisoned),
    (2, bit01 r.isSealed), (1, bit01 r.zeroizing), (0, bit01 r.valid)]

/-- ENGINE_BUSY: the cabinet engine runs a REGION_FILL, or the fill or copy of the step in progress (04 Table 04-5). -/
def engineRuns (s : State) (k : Nat) : Bool :=
  let x := galOf s k
  x.cabRegs.engineBusy ||
    (match x.run with
     | some r => r.stopped.isNone && (match r.engine with | some t => decide (t.1 ≤ s.time.now) && decide (s.time.now ≤ t.2) | .none => false)
     | .none => false)

def cabReg (s : State) (k o : Nat) : Option Reg :=
  let c := (galOf s k).cabRegs
  if o < 0x400 then
    let r := rgnOf s k (o / 0x10)
    if o % 0x10 = 0 then rgnGeom r else if o % 0x10 = 8 then rgnState r else .none
  else if o = 0x400 then
    reg32 [(24, c.hubDefers.toNat), (16, c.sealedRefusals.toNat), (8, c.poisonFaults.toNat), (1, bit01 (engineRuns s k)),
      (0, bit01 c.zeroized)]
  else .none

/-! ### The configuration space (16 R337; log entry 38) -/

def cfgReg (s : State) (o : Nat) : Option Reg :=
  match o with
  | 0x00 => reg32 [(16, 0x4B5A), (0, 0x1C7A)]
  | 0x04 => reg32 [(2, bit01 s.host.busMaster)]
  | 0x08 => reg32 [(8, 0x120000), (0, 0xB0)]
  | 0x10 => reg32 [(26, fieldAt s.host.bar0.toNat 26 6), (2, 1)]
  | 0x14 => reg32 [(0, fieldAt s.host.bar0.toNat 32 32)]
  | 0x18 => reg32 [(28, fieldAt s.host.bar2.toNat 28 4), (2, 3)]
  | 0x1C => reg32 [(0, fieldAt s.host.bar2.toNat 32 32)]
  | 0x100 => reg32 [(0, bit01 s.host.msixEnable)]
  | 0x104 => reg32 [(1, bit01 s.host.hdmEnabled1), (0, bit01 s.host.hdmEnabled)]
  | _ => .none

/-! ### The block map (22 Table 22-1) -/

/-- The register at an offset, if one starts there. Gallery-indexed registers of a gallery that the grade does not have are
none (R452). -/
def regAt (s : State) (o : Nat) : Option Reg :=
  let gal := o / 0x10000 % 0x100
  if o < 0x1000 then hubReg s o
  else if 0x300000 ≤ o ∧ o < 0x301000 then bridgeReg s (o - 0x300000)
  else if 0x400000 ≤ o ∧ o < 0x420800 then fabReg s (o - 0x400000)
  else if 0x500000 ≤ o ∧ o < 0x501000 then pwrReg s (o - 0x500000)
  else if 0x600000 ≤ o ∧ o < 0x601000 then rngReg s (o - 0x600000)
  else if 0x700000 ≤ o ∧ o < 0x702000 then dmaReg s (o - 0x700000)
  else if 0x800000 ≤ o ∧ o < 0x809000 then hbmReg s (o - 0x800000)
  else if 0x900000 ≤ o ∧ o < 0x901000 then vaultReg s (o - 0x900000)
  else if 0xA00000 ≤ o ∧ o < 0xA50000 then cxlReg s (o - 0xA00000)
  else if 0xB00000 ≤ o ∧ o < 0xB02000 then msixReg s (o - 0xB00000)
  else if 0xC00000 ≤ o ∧ o < 0xC01000 then secReg s (o - 0xC00000)
  else if 0xD00000 ≤ o ∧ o < 0xD11000 then monReg s (o - 0xD00000)
  else if 0x1000000 ≤ o ∧ o < 0x1200000 then (if gal < numGal s then galReg s gal (o % 0x10000) else .none)
  else if 0x2000000 ≤ o ∧ o < 0x2200000 then (if gal < numGal s then cabReg s gal (o % 0x10000) else .none)
  else if cfgBase ≤ o then cfgReg s (o - cfgBase)
  else .none

/-- The 32-bit word at an offset: a 32-bit register, or a half of a 64-bit one; 0 where no register is (R451). -/
def regWord (s : State) (o : Nat) : Nat :=
  match regAt s o with
  | some r => r.val % 2 ^ 32
  | .none =>
    match (if 4 ≤ o then regAt s (o - 4) else .none) with
    | some r => if r.wide then r.val / 2 ^ 32 else 0
    | .none => 0

/-! ### What a read clears (00 Table 00-4 RC) -/

/-- The RC fields of the registers of a gallery. -/
def clearGal (k o : Nat) (s : State) : State :=
  match o with
  | 0x00 => modRegs s k (fun r => { r with lateArrivals := 0 })
  | 0x20 => modRegs s k (fun r => { r with arithCheck := 0, arithRange := 0 })
  | 0x40 => modRegs s k (fun r => { r with keyMismatches := 0, poisonedKeys := 0 })
  | 0x48 => modRegs s k (fun r => { r with planeLoads := 0, sampled := 0 })
  | 0x50 => modRegs s k (fun r => { r with listSteps := 0, tileSteps := 0, maskedSets := 0 })
  | 0x68 => modInv s k (fun i => { i with hazards := 0, dropped := 0 })
  | 0x800 => modRegs s k (fun r => { r with busyRefusals := 0, swaps := 0 })
  | _ => s

/-- The RC fields of the fabric's registers. -/
def clearFab (o : Nat) (s : State) : State :=
  if o < 0x800 ∧ o % 0x100 = 0 then modPort s (o / 0x100) (fun p => { p with retries := 0, authFails := 0, retrains := 0 })
  else if o = 0xC08 then { s with fab := { s.fab with stale := 0, refused := 0, hopDrops := 0 } }
  else if o = 0xE00 then { s with fab := { s.fab with lockstep := { s.fab.lockstep with divergences := 0 } } }
  else if 0xF00 ≤ o ∧ o < 0xF40 ∧ o % 0x10 = 0 then
    modGroup s ((o - 0xF00) / 0x10) (fun g => { g with authFails := 0, openings := 0 })
  else s

/-- The RC fields of the other registers with a fixed offset. -/
def clearFixed (o : Nat) (s : State) : State :=
  match o with
  | 0x208 => { s with cat := { s.cat with budgetRefusals := 0, levelRefusals := 0, tagRefusals := 0 } }
  | 0x308 => { s with rst := { s.rst with runs := 0, autoRuns := 0, faults := 0 } }
  | 0x500 => { s with health := { s.health with triggers := 0, skipped := 0 } }
  | 0x528 => { s with health := { s.health with completed := 0, failed := 0 } }
  | 0x300000 => { s with bridge := { s.bridge with retrains := 0, laneRejects := 0, flitLosses := 0 } }
  | 0x500020 => modPower s (fun p => { p with powerFaults := 0, thermalAborts := 0, thermWarns := 0, droops := 0 })
  | 0x500040 => modPower s (fun p => { p with excessWindows := 0, maxExcess := 0 })
  | 0x600000 => { s with drbg := { s.drbg with reseeds := 0, fills := 0 } }
  | 0x600008 => { s with drbg := { s.drbg with rctFails := 0, aptFails := 0 } }
  | 0x701000 => { s with dma := { s.dma with busErrors := 0 } }
  | 0x800008 => { s with hbm := { s.hbm with shareRefusals := 0 } }
  | 0x900000 => modVault s (fun v => { v with conflicts := 0, uncorrectable := 0, progFails := 0 })
  | 0x900020 => modVault s (fun v => { v with relocations := 0 })
  | 0xA00100 => modHost s (fun h => { h with link := { h.link with retrains := 0, ideFails := 0 } })
  | 0xA00200 => modHost s (fun h => { h with dbgRefusals := 0 })
  | 0xC00008 => { s with sec := { s.sec with unlockFails := 0 } }
  | 0xC00030 => { s with sec := { s.sec with pkFails := 0, selfFails := 0 } }
  | 0xD10030 => { s with mon := { s.mon with setRefusals := 0 } }
  | _ => s

/-- The RC fields of a stack's registers. -/
def clearStack (o : Nat) (st : Stack) : Stack :=
  if o = 0 then { st with corrected := 0, uncorrectable := 0 }
  else if o = 0x10 then { st with atomSat := 0, atomNan := 0 }
  else if 0x100 ≤ o ∧ o < 0x200 then { st with tgErr := vset st.tgErr ((o - 0x100) / 4) 0 }
  else st

/-- What the read of the register word at an offset does besides returning it: its RC fields clear. -/
def readEffect (o : Nat) (s : State) : State :=
  if 0x400000 ≤ o ∧ o < 0x401000 then clearFab (o - 0x400000) s
  else if 0x700000 ≤ o ∧ o < 0x701000 then
    (if o % 0x40 = 0x28 then modChan s ((o - 0x700000) / 0x40) (fun c => { c with completions := 0, errors := 0 }) else s)
  else if 0x801000 ≤ o ∧ o < 0x809000 then modStk s ((o - 0x801000) / 0x1000) (clearStack (o % 0x1000))
  else if 0x900008 ≤ o ∧ o < 0x900010 then { s with freeCount := s.freeCount + 1 }
  else if 0xA10000 ≤ o ∧ o < 0xA50000 then
    (if o % 0x1000 = 0x20 then modQp s ((o - 0xA10000) / 0x1000) (fun Q => { Q with badDoorbells := 0 }) else s)
  else if 0x1000000 ≤ o ∧ o < 0x1200000 then
    (if o / 0x10000 % 0x100 < numGal s then clearGal (o / 0x10000 % 0x100) (o % 0x10000) s else s)
  else if 0x2000000 ≤ o ∧ o < 0x2200000 then
    (if o / 0x10000 % 0x100 < numGal s ∧ o % 0x10000 = 0x400 then
      modCabRegs s (o / 0x10000 % 0x100) (fun c => { c with hubDefers := 0, sealedRefusals := 0, poisonFaults := 0 })
    else s)
  else clearFixed o s

/-! ### Reads (00 R9 to R11) -/

/-- A 32-bit read: the low half of a 64-bit register latches its high half, which the next read of that half returns (R11). -/
def readWord (o : Nat) (s : State) : Nat × State :=
  match s.host.latches.find? (fun l => l.1 == o) with
  | some l => (l.2.toNat, readEffect o (modHost s (fun h => { h with latches := h.latches.filter (fun x => x.1 != o) })))
  | .none =>
    let v := regWord s o
    let wide := match regAt s o with | some r => r.wide | .none => false
    let hi := BitVec.ofNat 32 (regWord s (o + 4))
    let s' := if wide then modHost s (fun h => { h with latches := (o + 4, hi) :: h.latches.filter (fun x => x.1 != o + 4) }) else s
    (v, readEffect o s')

/-- REGISTER_READ_CLEAR: a host read of BAR0 or of the configuration space. A read narrower than 32 bits has no side effect
(R10); a misaligned one returns a free value (R9). Until the Docent has started, a configuration request gets Request Retry Status,
which carries no data (20 R431). -/
def doRegisterRead (o size : Nat) (s : State) : State :=
  if !hubRuns s then s
  else if decide (cfgBase ≤ o) && !firmwareRuns s then returned [] false s
  else if !([1, 2, 4, 8].contains size) || o % size != 0 then
    let (bs, s) := freeBytes size s
    returned bs false s
  else if size < 4 then returned (leBytes size (regWord s (o - o % 4) / 2 ^ (8 * (o % 4)))) false s
  else if size = 4 then
    let (v, s) := readWord o s
    returned (leBytes 4 v) false s
  else
    let v := regWord s o + 2 ^ 32 * regWord s (o + 4)
    returned (leBytes 8 v) false (readEffect (o + 4) (readEffect o s))

/-! ### Meanings -/

def execRegisterReadClear (offset size : Nat) (s : State) : Out := .next (doRegisterRead offset size s)

end Sys2Proof.Machine
end

