-- ==== Sys2Proof/Machine/Registers.lean ====
section
/-!
DEFINITION. Sys2Proof/Machine/Registers.lean: host writes of registers (00 R6 to R10, 22 R453 to R455), the register writes
that have rows of their own, and the BAR2 debug window (16 R338, R339).
-/

set_option Elab.async false

namespace Sys2Proof.Machine

/-- A 64-bit value with its low or high half replaced (22 R455). -/
def setHalf (cur : Nat) (hi : Bool) (v : Nat) : Nat :=
  if hi then cur % 2 ^ 32 + 2 ^ 32 * (v % 2 ^ 32) else cur / 2 ^ 32 * 2 ^ 32 + v % 2 ^ 32

/-! ### HUB_TIME_SET (02 R45, Table 02-4) -/

/-- A value is to become module time at the next hub tick edge, under R45. -/
def setTime (v : Nat) (s : State) : State :=
  if anyAccepted s || s.time.disciplined then
    { modTime s (fun t => { t with setRefused := true }) with mon := { s.mon with setRefusals := bump8 s.mon.setRefusals } }
  else modTime s (fun t => { t with pendingSet := some v })

/-- TIME_SET: a write of both halves, or of one. The low half alone is kept until the high half is written. -/
def doTimeSet (w : TimeWrite) (s : State) : State :=
  if !hubRuns s then s
  else match w with
  | .full v => setTime v.toNat s
  | .low v => modTime s (fun t => { t with pendingLow := some v })
  | .high v =>
    let lo := (s.time.pendingLow.getD 0).toNat
    setTime (v.toNat * 2 ^ 32 + lo) (modTime s (fun t => { t with pendingLow := .none }))

/-! ### Gallery registers of debug mode (05 R115, 11 R240) -/

/-- ARITH_INJECT_ARM: a write of GAL_ARITH_INJECT; ARM is RW1S. -/
def doInjectArm (g v : Nat) (s : State) : State :=
  if !hubRuns s || decide (numGal s ≤ g) || !s.sec.debug then s
  else modRegs s g (fun r => { r with
    injectLane := BitVec.ofNat 8 (fieldAt v 8 8), injectTarget := BitVec.ofNat 2 (fieldAt v 4 2),
    injectArm := r.injectArm || bitAt v 0 })

/-- INVIGILATOR_ENABLE: a write of GAL_INV_CTRL; ENABLE takes it in debug mode alone (11 R240, Table 11-9). -/
def doInvCtrl (g v : Nat) (s : State) : State :=
  if !hubRuns s || decide (numGal s ≤ g) then s
  else modInv s g (fun i => { i with mask := BitVec.ofNat 7 (fieldAt v 1 7), enable := if s.sec.debug then bitAt v 0 else i.enable })

/-! ### PWR_ADMIT (20 R435) -/

/-- ADMIT_LIMIT_WRITE: a write of PWR_ADMIT; a limit outside 1,000 to 2,400 W is discarded. -/
def doAdmitLimit (v : Nat) (s : State) : State :=
  let w := fieldAt v 0 12
  if hubRuns s && decide (1000 ≤ w) && decide (w ≤ 2400) then modPower s (fun p => { p with limit := BitVec.ofNat 12 w }) else s

/-! ### Writes block by block -/

/-- HUB_TIME_STATUS, HUB_INV_LOG, HUB_RISK_CFG, HUB_CKPT_CFG, HUB_CKPT_STAGE, by word. The hazard ring
starts anew with each write of HUB_INV_LOG (11 Table 11-6 SEQ; log entry 37). -/
def writeHub (o v : Nat) (s : State) : State :=
  let h := s.health
  let stage := fun (hi : Bool) =>
    if h.stage = .idle ∨ h.stage = .restoring then
      let x := setHalf (h.stageSize.toNat * 2 ^ 48 + h.stageBase.toNat * 2 ^ 30) hi v
      { s with health := { h with stageSize := BitVec.ofNat 16 (fieldAt x 48 16), stageBase := BitVec.ofNat 10 (fieldAt x 30 10) } }
    else s
  let log := fun (hi : Bool) =>
    let x := setHalf (s.mon.invRecords.toNat * 2 ^ 48 + s.mon.invBase.toNat * 2 ^ 12) hi v
    let n := fieldAt x 48 16
    { s with mon := { s.mon with
        invRecords := BitVec.ofNat 16 n,
        invBase := BitVec.ofNat 28 (fieldAt x 12 28), invSeq := 0 } }
  match o with
  | 0x108 => modTime s (fun t => { t with setRefused := clear1 t.setRefused (bitAt v 7) })
  | 0x110 => doTimeSet (.low (BitVec.ofNat 32 v)) s
  | 0x114 => doTimeSet (.high (BitVec.ofNat 32 v)) s
  | 0x400 => log false
  | 0x404 => log true
  | 0x510 =>
    { s with health := { h with alertTh := BitVec.ofNat 8 (fieldAt v 24 8), ckptTh := BitVec.ofNat 8 (fieldAt v 16 8),
                                autoGap := BitVec.ofNat 8 (fieldAt v 8 8), autoEn := bitAt v 0 } }
  | 0x518 => { s with health := { h with cfg := BitVec.ofNat 64 (setHalf h.cfg.toNat false v) } }
  | 0x51C => { s with health := { h with cfg := BitVec.ofNat 64 (setHalf h.cfg.toNat true v) } }
  | 0x520 => stage false
  | 0x524 => stage true
  | _ => s

/-- FAB_CTRL (17 Table 17-3, R379), FAB_LOCKSTEP_STATUS, FAB_ROUTE. -/
def writeFab (o v : Nat) (s : State) : State :=
  if o = 0xC00 then
    { s with fab := { s.fab with
        module := if s.fab.lock then s.fab.module else BitVec.ofNat 14 (fieldAt v 0 14),
        adaptive := if lockstepOn s then s.fab.adaptive else bitAt v 16,
        lock := s.fab.lock || bitAt v 31 } }
  else if o = 0xE00 then
    { s with fab := { s.fab with lockstep := { s.fab.lockstep with divValid := clear1 s.fab.lockstep.divValid (bitAt v 1) } } }
  else if 0x10000 ≤ o ∧ o < 0x20000 then
    let r : Route := { valid := bitAt v 13, minimal := BitVec.ofNat 8 (fieldAt v 5 8), dport := BitVec.ofNat 3 (fieldAt v 0 3) }
    { s with fab := { s.fab with routes := smSet noRoute ((o - 0x10000) / 4) r s.fab.routes } }
  else s

/-- PWR_ADMIT and the flags of PWR_EVENT. -/
def writePwr (o v : Nat) (s : State) : State :=
  match o with
  | 0x10 => doAdmitLimit v s
  | 0x18 => modPower s (fun p => { p with
      powerFault := clear1 p.powerFault (bitAt v 3), thermalAbort := clear1 p.thermalAbort (bitAt v 2),
      thermWarn := clear1 p.thermWarn (bitAt v 1), droop := clear1 p.droop (bitAt v 0) })
  | _ => s

/-- The value of a ring or queue base (13 Table 13-8, 16 Table 16-9). -/
def baseWord (loc : Bool) (addr : BitVec 46) : Nat := bit01 loc * 2 ^ 63 + addr.toNat * 64

/-- A half of a base register is written; its fields LOC and ADDR. -/
def writeBase (loc : Bool) (addr : BitVec 46) (hi : Bool) (v : Nat) : Bool × BitVec 46 :=
  let x := setHalf (baseWord loc addr) hi v
  (bitAt x 63, BitVec.ofNat 46 (fieldAt x 6 46))

/-- The registers of one of the driver's DMA channels (13 R269, Tables 13-8 to 13-11). -/
def writeChan (n o v : Nat) (s : State) : State :=
  let ring := fun (hi : Bool) => modChan s n (fun c =>
    if c.enable then c
    else { c with ringLoc := (writeBase c.ringLoc c.ringAddr hi v).1, ringAddr := (writeBase c.ringLoc c.ringAddr hi v).2,
                  ringChange := true })
  let cq := fun (hi : Bool) => modChan s n (fun c =>
    if c.enable then c
    else { c with cqLoc := (writeBase c.cqLoc c.cqAddr hi v).1, cqAddr := (writeBase c.cqLoc c.cqAddr hi v).2,
                  ringChange := true })
  if !driverChan n then s
  else match o with
  | 0x00 => ring false
  | 0x04 => ring true
  | 0x08 => cq false
  | 0x0C => cq true
  | 0x10 => doDmaCtrl n v s
  | 0x14 => doDmaDoorbell n v [] s
  | 0x1C => modChan s n (fun c => { c with cqHead := BitVec.ofNat 16 v })
  | 0x24 => doCreditAdd n v s
  | _ => s

def writeDma (o v : Nat) (s : State) : State :=
  if o < 0x1000 then writeChan (o / 0x40) (o % 0x40) v s
  else match o with
    | 0x1000 => { s with dma := { s.dma with errValid := clear1 s.dma.errValid (bitAt v 0) } }
    | 0x1008 => doEngineResume v s
    | _ => s

/-- HBM_CTRL and the registers of the stacks. -/
def writeHbm (o v : Nat) (s : State) : State :=
  if o = 0 then doHubShare v s
  else if 0x1000 ≤ o ∧ o < 0x9000 then
    let k := o / 0x1000 - 1
    let mask := fun (hi : Bool) => modStk s k (fun st =>
      if st.tgBusy then st else { st with tgMask := BitVec.ofNat 64 (setHalf st.tgMask.toNat hi v) })
    match o % 0x1000 with
    | 0x00 => modStk s k (fun st => { st with ueValid := clear1 st.ueValid (bitAt v 0) })
    | 0x18 => doTgStart k v s
    | 0x20 => mask false
    | 0x24 => mask true
    | _ => s
  else s

/-- VLT_PATROL. -/
def writeVault (o v : Nat) (s : State) : State :=
  if o = 0x20 then
    modVault s (fun x => { x with
      patrolEn := bitAt v 0,
      threshold := BitVec.ofNat 8 (fieldAt v 16 8) })
  else s

/-- No other module answers. -/
def noPeer : Peer := { answers := false, windowsFull := false, galleries := 0, busy := false, aligned := false, domain := 0 }

/-- The registers of a queue pair (16 Tables 16-9 to 16-11). -/
def writeQp (q o v : Nat) (s : State) : State :=
  let sq := fun (hi : Bool) => modQp s q (fun Q =>
    if qpIdle Q then { Q with sqLoc := (writeBase Q.sqLoc Q.sqAddr hi v).1, sqAddr := (writeBase Q.sqLoc Q.sqAddr hi v).2 } else Q)
  let rq := fun (hi : Bool) => modQp s q (fun Q =>
    if qpIdle Q then { Q with rqLoc := (writeBase Q.rqLoc Q.rqAddr hi v).1, rqAddr := (writeBase Q.rqLoc Q.rqAddr hi v).2 } else Q)
  match o with
  | 0x00 => sq false
  | 0x04 => sq true
  | 0x08 => rq false
  | 0x0C => rq true
  | 0x10 => doQpCtrl q v s
  | 0x14 => doQpDoorbell q v [] s
  | 0x1C => modQp s q (fun Q => { Q with rqHead := BitVec.ofNat 16 v })
  | 0x20 => modQp s q (fun Q => { Q with badDoorbell := clear1 Q.badDoorbell (bitAt v 4) })
  | _ => s

/-- The mailbox, CXL_IRQ_ROUTE, CXL_DBG_SELECT and the queue pairs. A GO written here meets no answer of another module. -/
def writeCxl (o v : Nat) (s : State) : State :=
  if o < 0x40 then
    if s.host.mbox.busy || o % 4 != 0 then s
    else modHost s (fun h => { h with mbox := { h.mbox with
      cmd := BitVec.ofNat 512 (leNat ((leBytes 64 h.mbox.cmd.toNat).take o ++ leBytes 4 v ++ (leBytes 64 h.mbox.cmd.toNat).drop (o + 4))) } })
  else if o = 0x60 then doMboxGo v noPeer s
  else if o = 0x80 then
    modHost s (fun h => { h with irq :=
      { eventVec := BitVec.ofNat 6 (fieldAt v 24 6), engineVec := BitVec.ofNat 6 (fieldAt v 16 6),
        mboxVec := BitVec.ofNat 6 (fieldAt v 8 6), eventEn := bitAt v 2, engineEn := bitAt v 1, mboxEn := bitAt v 0 } })
  else if o = 0x200 then
    (if s.sec.debug then modHost s (fun h => { h with dbgGallery := BitVec.ofNat 5 (fieldAt v 0 5) }) else s)
  else if 0x10000 ≤ o ∧ o < 0x50000 then writeQp ((o - 0x10000) / 0x1000) (o % 0x1000) v s
  else s

/-- The MSI-X table. A vector that is pending is sent when its mask falls while MSI-X is enabled (as PCIe defines). -/
def writeMsix (o v : Nat) (s : State) : State :=
  if o < 0x400 ∧ o % 4 = 0 then
    let w : Word := if o % 16 = 12 then (if bitAt v 0 then 0 else 1) else BitVec.ofNat 32 v
    let s := modHost s (fun h => { h with msixTable := smSet 0 (o / 4) w h.msixTable })
    let k := o / 16
    if o % 16 = 12 ∧ !bitAt v 0 ∧ s.host.msixPending.getLsbD k ∧ s.host.msixEnable then
      modHost s (fun h => { h with msixPending := h.msixPending &&& ~~~((1 : Quad) <<< k), raised := BitVec.ofNat 6 k :: h.raised })
    else s
  else s

/-- The registers of a gallery of the grade. -/
def writeGal (g o v : Nat) (s : State) : State :=
  match o with
  | 0x28 => modRegs s g (fun r => { r with arithFault := { r.arithFault with valid := clear1 r.arithFault.valid (bitAt v 8) } })
  | 0x30 => doInjectArm g v s
  | 0x38 => modRegs s g (fun r => { r with keyFault := { r.keyFault with valid := clear1 r.keyFault.valid (bitAt v 8) } })
  | 0x60 => doInvCtrl g v s
  | _ => s

/-- Address bits of BAR0 (64 MiB) and BAR2 (256 MiB) that a write keeps (R337). -/
def barBits (size v : Nat) : Quad := BitVec.ofNat 64 (v / size * size)

/-- Writes of the configuration space, once the Docent or the recovery image runs (20 R431; log entry 38). -/
def writeCfg (o v : Nat) (s : State) : State :=
  if !firmwareRuns s then s
  else match o with
  | 0x04 => modHost s (fun h => { h with busMaster := bitAt v 2 })
  | 0x10 => modHost s (fun h => { h with bar0 := barBits 0x4000000 (setHalf h.bar0.toNat false v) })
  | 0x14 => modHost s (fun h => { h with bar0 := barBits 0x4000000 (setHalf h.bar0.toNat true v) })
  | 0x18 => modHost s (fun h => { h with bar2 := barBits 0x10000000 (setHalf h.bar2.toNat false v) })
  | 0x1C => modHost s (fun h => { h with bar2 := barBits 0x10000000 (setHalf h.bar2.toNat true v) })
  | 0x100 => modHost s (fun h => { h with msixEnable := bitAt v 0 })
  | 0x104 => modHost s (fun h => { h with hdmEnabled := bitAt v 0, hdmEnabled1 := bitAt v 1 })
  | _ => s

/-- A write of the 32-bit word at an offset (22 Tables 22-1, 22-3); where no writable field is, nothing happens (R451). -/
def writeWord (o v : Nat) (s : State) : State :=
  if o < 0x1000 then writeHub o v s
  else if 0x400000 ≤ o ∧ o < 0x420800 then writeFab (o - 0x400000) v s
  else if 0x500000 ≤ o ∧ o < 0x501000 then writePwr (o - 0x500000) v s
  else if 0x700000 ≤ o ∧ o < 0x702000 then writeDma (o - 0x700000) v s
  else if 0x800000 ≤ o ∧ o < 0x809000 then writeHbm (o - 0x800000) v s
  else if 0x900000 ≤ o ∧ o < 0x901000 then writeVault (o - 0x900000) v s
  else if 0xA00000 ≤ o ∧ o < 0xA50000 then writeCxl (o - 0xA00000) v s
  else if 0xB00000 ≤ o ∧ o < 0xB02000 then writeMsix (o - 0xB00000) v s
  else if 0x1000000 ≤ o ∧ o < 0x1200000 then
    (if o / 0x10000 % 0x100 < numGal s then writeGal (o / 0x10000 % 0x100) (o % 0x10000) v s else s)
  else if cfgBase ≤ o then writeCfg (o - cfgBase) v s
  else s

/-- REGISTER_WRITE: a host write of BAR0 or of the configuration space. One narrower than 32 bits is discarded (R10), and so
is a misaligned one (R9). HUB_TIME_SET takes a 64-bit write whole; every other pair of words takes it half by half (R455). -/
def doRegisterWrite (o size : Nat) (v : Quad) (s : State) : State :=
  if !hubRuns s || o % size != 0 then s
  else if size = 4 then writeWord o (v.toNat % 2 ^ 32) s
  else if size = 8 then
    if o = 0x110 then doTimeSet (.full v) s
    else writeWord (o + 4) (v.toNat / 2 ^ 32) (writeWord o (v.toNat % 2 ^ 32) s)
  else s

/-! ### The debug window (16 R338, R339, Table 16-2) -/

/-- What a BAR2 offset names: a cabinet word by its physical address, a byte of a tour-store bank, a twiddle word of a bank,
or nothing. -/
inductive Bar2 where
  | cabinet (pa : Nat)
  | store (bank : Bool) (byte : Nat)
  | twiddle (bank : Bool) (word : Nat)
  | reserved
  deriving DecidableEq, Repr

def bar2At (o : Nat) : Bar2 :=
  if o < 0xC00000 then .cabinet (o / 4)
  else if o < 0xC40000 then .store false (o - 0xC00000)
  else if o < 0xC80000 then .store true (o - 0xC40000)
  else if o < 0xD00000 then .twiddle false ((o - 0xC80000) / 4)
  else if o < 0xD80000 then .twiddle true ((o - 0xD00000) / 4)
  else .reserved

def bankOf1 (x : Gallery) (one : Bool) : Bank := if one then x.bank1 else x.bank0
def setBank1 (one : Bool) (b : Bank) (x : Gallery) : Gallery := if one then { x with bank1 := b } else { x with bank0 := b }

/-- The word at a word-aligned BAR2 offset of the selected gallery, without its checks. -/
def bar2Word (g : Gallery) (o : Nat) : Nat :=
  match bar2At o with
  | .cabinet pa => (smGet (0 : Word) pa g.cab).toNat
  | .store one b => leNat (smRead 0 b 4 (bankOf1 g one).store)
  | .twiddle one w => (smGet (0 : Word) w (bankOf1 g one).twiddle).toNat
  | .reserved => 0

/-- Writes the word at a word-aligned BAR2 offset. -/
def bar2Put (o v : Nat) (g : Gallery) : Gallery :=
  match bar2At o with
  | .cabinet pa => { g with cab := smSet 0 pa (BitVec.ofNat 32 v) g.cab }
  | .store one b => setBank1 one { bankOf1 g one with store := smPut 0 b (leBytes 4 v) (bankOf1 g one).store } g
  | .twiddle one w => setBank1 one { bankOf1 g one with twiddle := smSet 0 w (BitVec.ofNat 32 v) (bankOf1 g one).twiddle } g
  | .reserved => g

/-- How a BAR2 write of the selected gallery fares: refused by R82, R90, R111 or R213, held while READY is 1 (R226) or its
clock stands, discarded behind the last bank, or done. -/
inductive Bar2Write where
  | refused | busy | held | nothing | done
  deriving DecidableEq, Repr

def bar2Check (s : State) (g o : Nat) : Bar2Write :=
  match bar2At o with
  | .cabinet pa =>
    match rgnAt s g pa with
    | .none => .refused
    | some j =>
      let r := rgnOf s g j
      if r.feed = 0 || r.isSealed then .refused
      else if r.ready || !(galOf s g).regs.clockOn then .held else .done
  | .store one _ => if one == (galOf s g).active1 then .busy else .done
  | .twiddle one _ => if one == (galOf s g).active1 then .refused else .done
  | .reserved => .nothing

/-- A BAR2 read reaches a word of a sealed region. -/
def bar2Sealed (s : State) (g o : Nat) : Bool :=
  match bar2At o with
  | .cabinet pa => (match rgnAt s g pa with | some j => (rgnOf s g j).isSealed | .none => false)
  | _ => false

/-- A BAR2 read reaches a cabinet whose clock stands. -/
def bar2Stopped (s : State) (g o : Nat) : Bool := decide (o < 0xC00000) && !(galOf s g).regs.clockOn

/-- Physical addresses of the cabinet words of an access. -/
def bar2Pas (o size : Nat) : List Nat := if size = 8 then [o / 4, o / 4 + 1] else [o / 4]

/-- A read of the debug window: cabinet words in the hub's turn at their ports. Answers false while it is held (04 R81). -/
def bar2Read (g o size : Nat) (deferred : Bool) (s : State) : Bool × State :=
  if bar2Sealed s g o then
    (true, returned (leBytes size 0) false (modCabRegs s g (fun c => { c with sealedRefusals := bump8 c.sealedRefusals })))
  else if bar2Stopped s g o then
    let (bs, s) := freeBytes size s
    (true, returned bs false s)
  else if o < 0xC00000 then
    let (ok, s) := hubTurn g false deferred (bar2Pas o size) s
    (ok, if ok then returned ((((hubWords s g (bar2Pas o size)).flatMap (fun w => leBytes 4 w)).drop (o % 4)).take size) false s else s)
  else
    let a := o - o % 4
    let v := bar2Word (galOf s g) a + 2 ^ 32 * bar2Word (galOf s g) (a + 4)
    (true, returned (leBytes size (v / 2 ^ (8 * (o % 4)))) false s)

/-- Merges `size` bytes of a write at byte `k` into a word. -/
def mergeWord (old k size v : Nat) : Nat :=
  leNat ((leBytes 4 old).take k ++ (leBytes size v ++ (leBytes 4 old).drop (k + size)))

/-- What a write of the debug window leaves in the gallery. -/
def bar2Set (o size v : Nat) (x : Gallery) : Gallery :=
  if size = 8 then bar2Put (o + 4) (v / 2 ^ 32) (bar2Put o (v % 2 ^ 32) x)
  else let a := o - o % 4; bar2Put a (mergeWord (bar2Word x a) (o % 4) size v) x

/-- A write of the debug window: cabinet words in the hub's turn at their ports. Answers false while it is held (04 R81, 10 R226). -/
def bar2Store (g o size v : Nat) (deferred : Bool) (s : State) : Bool × State :=
  let refuse := fun (x : State) => modHost x (fun h => { h with dbgRefusals := bump8 h.dbgRefusals })
  match bar2Check s g o with
  | .refused => (true, refuse s)
  | .busy => (true, refuse (modRegs s g (fun r => { r with busyRefusals := bump8 r.busyRefusals })))
  | .held => (false, s)
  | .nothing => (true, s)
  | .done =>
    let (ok, s) := if o < 0xC00000 then hubTurn g true deferred (bar2Pas o size) s else (true, s)
    (ok, if ok then modGal s g (bar2Set o size v) else s)

/-- An access of the debug window to gallery `g` in debug mode. -/
def bar2Try (g o size : Nat) (acc : Access Quad) (deferred : Bool) (s : State) : Bool × State :=
  match acc with
  | .read => bar2Read g o size deferred s
  | .write v => bar2Store g o size v.toNat deferred s

/-- READY or a gated clock holds the access, not a bank port. -/
def bar2Waits (s : State) (g o : Nat) (acc : Access Quad) : Bool :=
  match acc with | .read => false | .write _ => bar2Check s g o == .held

/-- BAR2_ACCESS. Outside debug mode, and for a gallery that the grade does not have, reads return 0 and writes are discarded;
a misaligned access reads a free value and writes nothing. One that is held is performed later, on the gallery selected at the access. -/
def doBar2 (o size : Nat) (acc : Access Quad) (s : State) : State :=
  let g := s.host.dbgGallery.toNat
  if !hubRuns s then s
  else if !s.sec.debug || decide (numGal s ≤ g) then
    (match acc with | .read => returned (leBytes size 0) false s | .write _ => s)
  else if !([1, 2, 4, 8].contains size) || o % size != 0 then
    (match acc with | .read => let (bs, s) := freeBytes size s; returned bs false s | .write _ => s)
  else
    let waits := bar2Waits s g o acc
    let (ok, s) := bar2Try g o size acc false s
    if ok then s else { s with held := s.held ++ [.bar2 g o size acc (!waits)] }

/-! ### Meanings -/

def execTimeSet (w : TimeWrite) (s : State) : Out := .next (doTimeSet w s)
def execArithInjectArm (gallery : BitVec 5) (value : Word) (s : State) : Out :=
  .next (doInjectArm gallery.toNat value.toNat s)
def execInvigilatorEnable (gallery : BitVec 5) (value : Word) (s : State) : Out :=
  .next (doInvCtrl gallery.toNat value.toNat s)
def execAdmitLimitWrite (value : Word) (s : State) : Out := .next (doAdmitLimit value.toNat s)
def execBar2Access (offset size : Nat) (acc : Access Quad) (s : State) : Out := .next (doBar2 offset size acc s)
def execRegisterWrite (offset size : Nat) (value : Quad) (s : State) : Out := .next (doRegisterWrite offset size value s)

end Sys2Proof.Machine
end

