-- ==== Sys2Proof/Machine/Dispatch.lean ====
section
/-!
DEFINITION. Sys2Proof/Machine/Dispatch.lean: one arm per command, each a direct call of that command's meaning.
-/

namespace Sys2Proof.Machine

def exec (i : Instr) (s : State) : Host.Outcome State Fault Refusal :=
  match i with
  -- 01xx
  | .identify h => Sys2Proof.Machine.execIdentify h s
  | .galleriesStart h => Sys2Proof.Machine.execGalleriesStart h s
  | .galleriesStop h => Sys2Proof.Machine.execGalleriesStop h s
  | .hbmTrain h stks => Sys2Proof.Machine.execHbmTrain h stks s
  | .moduleResetGalleries h => Sys2Proof.Machine.execModuleResetGalleries h s
  | .moduleResetDevice h => Sys2Proof.Machine.execModuleResetDevice h s
  -- 02xx
  | .catalogueCreate h addr => Sys2Proof.Machine.execCatalogueCreate h addr s
  | .regionDeclare h gallery region mode feed sealed baseRow rows wblk => Sys2Proof.Machine.execRegionDeclare h gallery region mode feed sealed baseRow rows wblk s
  | .regionRelease h gallery region => Sys2Proof.Machine.execRegionRelease h gallery region s
  | .regionFill h gallery region value => Sys2Proof.Machine.execRegionFill h gallery region value s
  | .regionFillDone work => Sys2Proof.Machine.execRegionFillDone work s
  | .objectRegister h catIndex entryAddr paramAddr paramBytes => Sys2Proof.Machine.execObjectRegister h catIndex entryAddr paramAddr paramBytes s
  | .objectUpdate h catIndex entryAddr => Sys2Proof.Machine.execObjectUpdate h catIndex entryAddr s
  | .objectRelease h catIndex count => Sys2Proof.Machine.execObjectRelease h catIndex count s
  | .costTableLoad h addr => Sys2Proof.Machine.execCostTableLoad h addr s
  | .restorationEnable h scratch => Sys2Proof.Machine.execRestorationEnable h scratch s
  | .restorationDisable h => Sys2Proof.Machine.execRestorationDisable h s
  | .atomicOpen h addr length q => Sys2Proof.Machine.execAtomicOpen h addr length q s
  | .atomicClose h range stack => Sys2Proof.Machine.execAtomicClose h range stack s
  | .generatorFill h destKind flags gallery region count addr seed lidxBase => Sys2Proof.Machine.execGeneratorFill h destKind flags gallery region count addr seed lidxBase s
  -- 03xx
  | .tourLoad h srcKind addr bytes => Sys2Proof.Machine.execTourLoad h srcKind addr bytes s
  | .tourLoadDone work => Sys2Proof.Machine.execTourLoadDone work s
  | .tourUnload h tourId => Sys2Proof.Machine.execTourUnload h tourId s
  | .tourSubmit h tourId notBefore deadlineLimit => Sys2Proof.Machine.execTourSubmit h tourId notBefore deadlineLimit s
  | .restoreSubmit h input output lut keyRefresh keyExtract keyPack notBefore deadlineLimit slotsLog outLimbs policy => Sys2Proof.Machine.execRestoreSubmit h input output lut keyRefresh keyExtract keyPack notBefore deadlineLimit slotsLog outLimbs policy s
  | .tourQuery h tourId => Sys2Proof.Machine.execTourQuery h tourId s
  -- 04xx
  | .keyRegister h catIndex space addr paramAddr paramBytes => Sys2Proof.Machine.execKeyRegister h catIndex space addr paramAddr paramBytes s
  | .vaultOpen h => Sys2Proof.Machine.execVaultOpen h s
  | .vaultClose h => Sys2Proof.Machine.execVaultClose h s
  | .extentRelease h first count => Sys2Proof.Machine.execExtentRelease h first count s
  | .extentQuery h first count addr => Sys2Proof.Machine.execExtentQuery h first count addr s
  | .vaultSanitize h => Sys2Proof.Machine.execVaultSanitize h s
  | .patrolSet h enable threshold => Sys2Proof.Machine.execPatrolSet h enable threshold s
  -- 05xx
  | .portsEnable h ports => Sys2Proof.Machine.execPortsEnable h ports s
  | .timeJoin h domain root => Sys2Proof.Machine.execTimeJoin h domain root s
  | .timeLeave h => Sys2Proof.Machine.execTimeLeave h s
  | .windowOpen h window access remote kind gallery region addr length peer => Sys2Proof.Machine.execWindowOpen h window access remote kind gallery region addr length peer s
  | .windowAnnounce owner window access length reduce => Sys2Proof.Machine.execWindowAnnounce owner window access length reduce s
  | .windowClose h window => Sys2Proof.Machine.execWindowClose h window s
  | .groupForm h groupId slot selfIndex parties members idKeysAddr => Sys2Proof.Machine.execGroupForm h groupId slot selfIndex parties members idKeysAddr s
  | .groupDissolve h slot => Sys2Proof.Machine.execGroupDissolve h slot s
  | .groupRegionRegister h slot gallery region => Sys2Proof.Machine.execGroupRegionRegister h slot gallery region s
  | .groupRegionRemove h slot gallery region => Sys2Proof.Machine.execGroupRegionRemove h slot gallery region s
  | .lockstepSet h partner enable peer => Sys2Proof.Machine.execLockstepSet h partner enable peer s
  -- 06xx
  | .checkpointTake h kind scope target window firstExtent peer => Sys2Proof.Machine.execCheckpointTake h kind scope target window firstExtent peer s
  | .checkpointStage => Sys2Proof.Machine.execCheckpointStage s
  | .checkpointDrainDone partnerLost => Sys2Proof.Machine.execCheckpointDrainDone partnerLost s
  | .checkpointRestore h firstExtent => Sys2Proof.Machine.execCheckpointRestore h firstExtent s
  | .migrateFence h epoch timeout => Sys2Proof.Machine.execMigrateFence h epoch timeout s
  | .fenceDone => Sys2Proof.Machine.execFenceDone s
  -- 07xx
  | .drbgInstantiate h => Sys2Proof.Machine.execDrbgInstantiate h s
  | .drbgFill h gallery region flags noiseBits count q => Sys2Proof.Machine.execDrbgFill h gallery region flags noiseBits count q s
  | .debugEnter h authAddr => Sys2Proof.Machine.execDebugEnter h authAddr s
  | .debugLeave h authAddr => Sys2Proof.Machine.execDebugLeave h authAddr s
  | .debugDisable h authAddr => Sys2Proof.Machine.execDebugDisable h authAddr s
  | .firmwareWrite h slot addr bytes => Sys2Proof.Machine.execFirmwareWrite h slot addr bytes s
  | .modmul h addr => Sys2Proof.Machine.execModmul h addr s
  | .modexp h addr => Sys2Proof.Machine.execModexp h addr s
  | .p521Keygen h addr => Sys2Proof.Machine.execP521Keygen h addr s
  | .p521Ecdh h addr => Sys2Proof.Machine.execP521Ecdh h addr s
  | .p521Sign h addr => Sys2Proof.Machine.execP521Sign h addr s
  | .p521Verify h addr => Sys2Proof.Machine.execP521Verify h addr s
  -- 08xx
  | .monitorConfig h unit source binShift offset => Sys2Proof.Machine.execMonitorConfig h unit source binShift offset s
  | .monitorSnapshot h space addr => Sys2Proof.Machine.execMonitorSnapshot h space addr s
  | .longCommandDone work outcome => Sys2Proof.Machine.execLongCommandDone work outcome s
  -- host interface
  | .qpDoorbell q tail writes => Sys2Proof.Machine.execQpDoorbell q tail writes s
  | .qpCommandTake q peer => Sys2Proof.Machine.execQpCommandTake q peer s
  | .qpEnable q value => Sys2Proof.Machine.execQpEnable q value s
  | .mboxGo value peer => Sys2Proof.Machine.execMboxGo value peer s
  | .timeSet w => Sys2Proof.Machine.execTimeSet w s
  | .hubShareWrite value => Sys2Proof.Machine.execHubShareWrite value s
  | .tgStart stack value => Sys2Proof.Machine.execTgStart stack value s
  | .tgDone stack mismatches => Sys2Proof.Machine.execTgDone stack mismatches s
  | .arithInjectArm gallery value => Sys2Proof.Machine.execArithInjectArm gallery value s
  | .invigilatorEnable gallery value => Sys2Proof.Machine.execInvigilatorEnable gallery value s
  | .admitLimitWrite value => Sys2Proof.Machine.execAdmitLimitWrite value s
  -- DMA
  | .dmaDoorbell ch tail writes => Sys2Proof.Machine.execDmaDoorbell ch tail writes s
  | .dmaChEnable ch value => Sys2Proof.Machine.execDmaChEnable ch value s
  | .dmaAbort ch value => Sys2Proof.Machine.execDmaAbort ch value s
  | .creditAdd ch value => Sys2Proof.Machine.execCreditAdd ch value s
  | .engineResume value => Sys2Proof.Machine.execEngineResume value s
  | .dmaCopy ch => Sys2Proof.Machine.execDmaCopy ch s
  | .dmaReduce ch => Sys2Proof.Machine.execDmaReduce ch s
  | .dmaRequest line count => Sys2Proof.Machine.execDmaRequest line count s
  | .dmaBurst ch ack => Sys2Proof.Machine.execDmaBurst ch ack s
  | .dmaCompletion ch => Sys2Proof.Machine.execDmaCompletion ch s
  | .engineStop iface addr => Sys2Proof.Machine.execEngineStop iface addr s
  | .hubPortAccess gallery pa cycle acc => Sys2Proof.Machine.execHubPortAccess gallery pa cycle acc s
  | .hubBurst addr slot acc => Sys2Proof.Machine.execHubBurst addr slot acc s
  -- BAR and register accesses
  | .bar2Access offset size acc => Sys2Proof.Machine.execBar2Access offset size acc s
  | .registerWrite offset size value => Sys2Proof.Machine.execRegisterWrite offset size value s
  | .registerReadClear offset size => Sys2Proof.Machine.execRegisterReadClear offset size s
  -- the sequencers
  | .tourStart tourId => Sys2Proof.Machine.execTourStart tourId s
  | .readinessSample tourId => Sys2Proof.Machine.execReadinessSample tourId s
  | .stepLaunch gallery => Sys2Proof.Machine.execStepLaunch gallery s
  | .lateArrivalDiscard gallery => Sys2Proof.Machine.execLateArrivalDiscard gallery s
  | .stepEnd gallery => Sys2Proof.Machine.execStepEnd gallery s
  | .tourOverrun tourId => Sys2Proof.Machine.execTourOverrun tourId s
  | .holdLimitExceeded tourId => Sys2Proof.Machine.execHoldLimitExceeded tourId s
  | .tourEnd tourId => Sys2Proof.Machine.execTourEnd tourId s
  | .islandLockLoss island => Sys2Proof.Machine.execIslandLockLoss island s
  | .bridgeFlitLoss dir10 inFlight => Sys2Proof.Machine.execBridgeFlitLoss dir10 inFlight s
  | .bridgeRetrain due => Sys2Proof.Machine.execBridgeRetrain due s
  -- memory and Vault
  | .lineRewrite line => Sys2Proof.Machine.execLineRewrite line s
  | .atomicUpdate addr redOp operand compare => Sys2Proof.Machine.execAtomicUpdate addr redOp operand compare s
  | .extentCommit extent => Sys2Proof.Machine.execExtentCommit extent s
  | .programFail extent => Sys2Proof.Machine.execProgramFail extent s
  | .patrolRead extent correctedBits uncorrectable => Sys2Proof.Machine.execPatrolRead extent correctedBits uncorrectable s
  | .extentRelocate extent copied => Sys2Proof.Machine.execExtentRelocate extent copied s
  | .openPassDone => Sys2Proof.Machine.execOpenPassDone s
  -- fabric
  | .frameReceive port tag => Sys2Proof.Machine.execFrameReceive port tag s
  | .linkRekey port offer => Sys2Proof.Machine.execLinkRekey port offer s
  | .packetArrival p => Sys2Proof.Machine.execPacketArrival p s
  | .packetForward p => Sys2Proof.Machine.execPacketForward p s
  | .openingMessage m => Sys2Proof.Machine.execOpeningMessage m s
  | .timeMessage domain rootTick measured => Sys2Proof.Machine.execTimeMessage domain rootTick measured s
  | .timeHoldover => Sys2Proof.Machine.execTimeHoldover s
  | .lockstepSummary tourId window remoteTour remote => Sys2Proof.Machine.execLockstepSummary tourId window remoteTour remote s
  | .lockstepComplete tourId => Sys2Proof.Machine.execLockstepComplete tourId s
  | .partnerLost => Sys2Proof.Machine.execPartnerLost s
  -- randomness, health, power
  | .esHealthFail repetition => Sys2Proof.Machine.execEsHealthFail repetition s
  | .riskEvaluation thermalMargin => Sys2Proof.Machine.execRiskEvaluation thermalMargin s
  | .profileExcess inputWatts => Sys2Proof.Machine.execProfileExcess inputWatts s
  | .powerInputRise badRails => Sys2Proof.Machine.execPowerInputRise badRails s
  | .powerInputLoss => Sys2Proof.Machine.execPowerInputLoss s
  | .pwrSense closed => Sys2Proof.Machine.execPwrSense closed s
  | .boot readErrorA readErrorB => Sys2Proof.Machine.execBoot readErrorA readErrorB s
  | .perst asserted => Sys2Proof.Machine.execPerst asserted s
  | .functionLevelReset => Sys2Proof.Machine.execFunctionLevelReset s
  | .thermalAbort => Sys2Proof.Machine.execThermalAbort s
  | .powerFault => Sys2Proof.Machine.execPowerFault s
  | .emergencyClear => Sys2Proof.Machine.execEmergencyClear s
  | .droop rail => Sys2Proof.Machine.execDroop rail s
  | .thermWarn => Sys2Proof.Machine.execThermWarn s
  | .shutdown => Sys2Proof.Machine.execShutdown s
  | .spdmRequest r payload => Sys2Proof.Machine.execSpdmRequest r payload s
  | .mctpMessage via m => Sys2Proof.Machine.execMctpMessage via m s
  | .captureSample source value => Sys2Proof.Machine.execCaptureSample source value s
  | .cxlMemAccess addr cached acc => Sys2Proof.Machine.execCxlMemAccess addr cached acc s
  | .bridgeRetrainDone => Sys2Proof.Machine.execBridgeRetrainDone s
  | .spdmHeartbeatLoss session => Sys2Proof.Machine.execSpdmHeartbeatLoss session s
  | .fabricPortDown port loss => Sys2Proof.Machine.execFabricPortDown port loss s
  | .cxlLinkRetrain => Sys2Proof.Machine.execCxlLinkRetrain s
  | .refreshRateChange stack hot => Sys2Proof.Machine.execRefreshRateChange stack hot s

end Sys2Proof.Machine
end

