-- ==== Sys2Proof/Machine/Tick.lean ====
section
/-!
DEFINITION. Sys2Proof/Machine/Tick.lean: one tick of module time (02 R25), which the model takes when its queue is
empty (log entry 5).
-/

set_option Elab.async false

namespace Sys2Proof.Machine

/-- Module time at the next tick edge of the hub: one more, or what HUB_TIME_SET or a join left pending (02 Table 02-4, R45). A step
of module time starts the waits for time messages anew (17 R376, R377; log entry 138). -/
def advanceTime (t : TimeSt) : TimeSt :=
  match t.pendingSet with
  | some v => { t with now := v, cycle := 0, pendingSet := .none, lastMessage := v, lastExchange := v }
  | .none => { t with now := (t.now + 1) % 2 ^ 64, cycle := 0 }

/-- The ticks that a descriptor's bursts wait, counted in its channel (13 Table 13-6 WAITS). -/
def countWaits (s : State) : State :=
  { s with dma := { s.dma with chans := s.dma.chans.map (fun c => match c.cur with
      | some p => if burstWaits s c p then { c with cur := some (countWait s.time.now p) } else c
      | .none => c) } }

/-- The hub's PLL runs in a hub that is out of reset (02 R24, R25). -/
def timeRuns (s : State) : Bool := hubRuns s && s.time.islandLock.getLsbD 42

/-- The galleries of tours that ended early stop at the tick edge their ending names (03 R61, 20 R438). -/
def haltTours (s : State) : State := s.tours.foldl (fun x t => haltAtEdge t.tourId x) s

/-! ### Accesses that the hub holds (04 R81; 10 R226) -/

/-- READY or a gated clock holds the access, not a bank port. -/
def heldWaits (s : State) (h : HeldAccess) : Bool :=
  match h with
  | .word g pa acc _ => readyHolds s g pa acc
  | .bar2 g o _ acc _ => bar2Waits s g o acc
  | .packet p w _ => packetWaits s p w
  | .opening m _ => !hubCanWrite s m.gallery.toNat m.region.toNat
  | .burst _ _ | .cxl _ _ _ => true

/-- The access has been held at a bank port. -/
def deferHeld (h : HeldAccess) : HeldAccess :=
  match h with
  | .word g pa acc _ => .word g pa acc true
  | .bar2 g o n acc _ => .bar2 g o n acc true
  | .packet p w _ => .packet p w true
  | .opening m _ => .opening m true
  | .burst a acc => .burst a acc
  | .cxl a c acc => .cxl a c acc

/-- The hub tries a held access again; true when it is through. An access of the debug window goes no further once debug mode is
left (16 R338). -/
def tryHeld (h : HeldAccess) (s : State) : Bool × State :=
  match h with
  | .word g pa acc d => hubWord g pa acc d s
  | .bar2 g o n acc d => if s.sec.debug then bar2Try g o n acc d s else (true, s)
  | .packet p w d => servePacket p w d s
  | .opening m d => serveOpening m d s
  | .burst a acc => tryBurst a acc s
  | .cxl a c acc => (match cxlSlot s a acc with | some s => (true, cxlNow a c acc s) | .none => (false, s))

/-- Held accesses in turn, oldest first; `still` collects those that stay held. -/
def serveHeldFrom : List HeldAccess → List HeldAccess → State → State
  | [], still, s => { s with held := still.reverse }
  | h :: hs, still, s =>
    if still.any (goesBefore h) then serveHeldFrom hs (h :: still) s
    else
      let waits := heldWaits s h
      let (ok, s) := tryHeld h s
      if ok then serveHeldFrom hs still s else serveHeldFrom hs ((if waits then h else deferHeld h) :: still) s

def serveHeld (s : State) : State := if s.held.isEmpty then s else serveHeldFrom s.held [] s

/-- One tick of the hub's time base, and what happens at its edge: waits are counted, held accesses are tried again, the galleries run
their cycles, galleries of tours that ended early stop, reconfigured capture units and snapshots take effect (21 R443, R450), and a
time message leaves when it is due. A hub that does not run counts nothing. -/
def idleTick (s : State) : State :=
  if timeRuns s then
    let s := runTo 100 (serveHeld (countWaits s))
    let s := s.tours.foldl (fun x t => restoreChecks t.tourId x) s
    timeExchange (monitorEdge (haltTours (modTime s advanceTime)))
  else s

end Sys2Proof.Machine
end

