-- ==== Sys2Proof/Safety.lean ====
section
/-!
DEFINITION. Sys2Proof/Safety.lean: what counts as a safe run. A run is safe while every step answers a next state: no
fault and no refusal.
-/

set_option Elab.async false

namespace Sys2Proof

/-- The state after `n` steps, when every one of them answers a next state. -/
def runSteps : Nat → Machine.State → Option Machine.State
  | 0, s => some s
  | n + 1, s =>
    match Machine.step s with
    | .next t => runSteps n t
    | _ => none

/-- `n` steps from `s` meet no fault and no refusal. -/
def SafeFor (n : Nat) (s : Machine.State) : Prop := ∃ t, runSteps n s = some t

end Sys2Proof
end

