-- ==== Sys2Proof/Certificates/Slice0/Obligations.lean ====
section
/-! DEFINITION. The statements for the provers. Each docstring cites the rules of the spec that its statement follows, as file number
and rule; where a clause rests on a choice of the model, it names the log entry. -/

open Sys2Proof Sys2Proof.Machine

/-! ### The step -/

set_option Elab.async false

/-- A step takes the command at the front of the queue and runs it on the state with the queue's rest. -/
def Obligations.StepRunsTheFrontCommand : Prop :=
  ∀ (c : Instr) (cs : List Instr) (s : State), s.pending = c :: cs → step s = exec c { s with pending := cs }

/-- The model's choice (log entry 5): with no command waiting, a step is one tick of module time, or the tick at which a value
that was set takes effect (02 R25, R45). Where no access is held and no step runs, everything but module time, the waits that
channels count, what the monitors do at a tick edge, the galleries of tours that stop there (log entry 98) and the time message
that a joined module sends every 256 ticks (17 R377) stays. The model's choice too (log entry 138): a value that is set starts the wait
for that message anew, none leaves while the route's port is down, and a joined module sends also before it is disciplined. Ticks in
which steps run are RunningStepsCompute's, ticks in which a fill lands RegionFillsLand's; ticks with held accesses, running tours or an
Invigilator that still compares uses are left out here. -/
def Obligations.AnEmptyQueueLetsOneTickPass : Prop :=
  ∀ s : State, s.pending = [] → hubRuns s = true → s.time.islandLock.getLsbD 42 = true → s.held = [] →
    (∀ g < 32, (galOf s g).run = .none) → (∀ x ∈ s.tours, x.state ≠ .running) → filling s = false →
    (s.useLog = [] ∨ watching s = false) →
    let now := match s.time.pendingSet with | some v => v | .none => (s.time.now + 1) % 2 ^ 64
    let last := match s.time.pendingSet with | some v => v | .none => s.time.lastExchange
    let due := s.time.joined = true ∧ s.time.isRoot = false ∧ last + 256 ≤ now
    let r := routeOf s s.time.root.toNat
    ∃ t, step s = .next t ∧ t.time.now = now ∧ t.time.cycle = 0 ∧ t.time.pendingSet = .none ∧ t.pending = [] ∧ t.held = [] ∧
      ((∀ x ∈ s.tours, tourAccepted x = true → x.status = .none ∨ x.halted = true ∨ now < x.stopAt) →
        t.gals = s.gals ∧ t.tours = s.tours ∧
        (due → r.valid = true → (portOf s r.dport.toNat).up = true →
          t.fab = { s.fab with timeSent := (r.dport, now) :: s.fab.timeSent }) ∧
        (¬ (due ∧ r.valid = true ∧ (portOf s r.dport.toNat).up = true) → t.fab = s.fab)) ∧
      t.hbm = s.hbm ∧ t.vault = s.vault ∧
      t.cat = s.cat ∧ t.health = s.health ∧ t.drbg = s.drbg ∧ t.sec = s.sec ∧ t.power = s.power ∧
      t.hostMem = s.hostMem ∧ t.fuses = s.fuses ∧ t.flash = s.flash ∧ t.dma.lines = s.dma.lines ∧ t.host.qps = s.host.qps

/-- No step stops, and every step takes exactly the command at the front of the queue: no command puts one there or takes another
away. That a row whose condition does not hold does nothing, and does not stop, is the model's choice (log entries 6, 7). -/
def Obligations.EveryStepTakesOneCommand : Prop :=
  ∀ s : State, ∃ t, step s = .next t ∧ t.pending = s.pending.tail

/-- Fuses are never undone (19 R406, R422; 22 R456): the gallery map stays, the count of blown SVN fuses never falls, and a blown
debug-disable fuse stays blown. Debug mode and a blown debug-disable fuse never stand together (19 R420, R422): every step keeps
it so. -/
def Obligations.FusesAreNeverUndone : Prop :=
  (∀ s t : State, step s = .next t →
      t.fuses.galleryMap = s.fuses.galleryMap ∧ s.fuses.svnBlown ≤ t.fuses.svnBlown ∧
        (s.fuses.debugDisabled = true → t.fuses.debugDisabled = true)) ∧
  (∀ s t : State, (s.sec.debug = true → s.fuses.debugDisabled = false) → step s = .next t →
      (t.sec.debug = true → t.fuses.debugDisabled = false))

/-- What the spec says of the module right after a power-on reset (that State.reset is this state: log entry 1): no debug mode,
BOOT, the limit of 2,300 W, galleries without a clock and with zeroized cabinets, no region declared, no stack trained, the Vault
not open with its patrol enabled at 72, no queue pair or channel enabled, no link or port up, the DRBG not instantiated. -/
def Obligations.ResetState : Prop :=
  State.reset.sec.debug = false ∧ State.reset.power.state = .boot ∧ State.reset.power.limit = 2300 ∧
    State.reset.pending = [] ∧ State.reset.tours = [] ∧
    (∀ g < 32, (galOf State.reset g).regs.clockOn = false ∧ (galOf State.reset g).cab = [] ∧
      ∀ j < 64, (rgnOf State.reset g j).valid = false) ∧
    State.reset.hbm.trained = 0 ∧ State.reset.vault.isOpen = false ∧ State.reset.vault.patrolEn = true ∧
    State.reset.vault.threshold = 72 ∧ (∀ q < 64, (qpOf State.reset q).enable = false) ∧
    (∀ n < 64, (chanOf State.reset n).enable = false) ∧ State.reset.host.busMaster = false ∧
    State.reset.host.link.up = false ∧ (∀ k < 8, (portOf State.reset k).up = false) ∧
    State.reset.drbg.instantiated = false ∧ State.reset.cat.enabled = false ∧ State.reset.rst.enabled = false

/-! ### Entries that the Docent writes (16) -/

/-- The packet commands of 16 Table 16-6 with their opcodes. -/
def Sys2Proof.Claims.opcodeOf : Instr → Option (Hdr × BitVec 16)
  | .identify h => some (h, 0x0100) | .galleriesStart h => some (h, 0x0101) | .galleriesStop h => some (h, 0x0102)
  | .hbmTrain h _ => some (h, 0x0103) | .moduleResetGalleries h => some (h, 0x0104)
  | .catalogueCreate h _ => some (h, 0x0200) | .regionDeclare h _ _ _ _ _ _ _ _ => some (h, 0x0201)
  | .regionRelease h _ _ => some (h, 0x0202) | .regionFill h _ _ _ => some (h, 0x0203)
  | .objectRegister h _ _ _ _ => some (h, 0x0204) | .objectUpdate h _ _ => some (h, 0x0205)
  | .objectRelease h _ _ => some (h, 0x0206) | .costTableLoad h _ => some (h, 0x0207)
  | .restorationEnable h _ => some (h, 0x0208) | .restorationDisable h => some (h, 0x0209)
  | .atomicOpen h _ _ _ => some (h, 0x020A) | .atomicClose h _ _ => some (h, 0x020B)
  | .generatorFill h _ _ _ _ _ _ _ _ => some (h, 0x020C) | .tourLoad h _ _ _ => some (h, 0x0300)
  | .tourUnload h _ => some (h, 0x0301) | .tourSubmit h _ _ _ => some (h, 0x0302)
  | .restoreSubmit h _ _ _ _ _ _ _ _ _ _ _ => some (h, 0x0303) | .tourQuery h _ => some (h, 0x0304)
  | .keyRegister h _ _ _ _ _ => some (h, 0x0400) | .vaultOpen h => some (h, 0x0410) | .vaultClose h => some (h, 0x0411)
  | .extentRelease h _ _ => some (h, 0x0412) | .extentQuery h _ _ _ => some (h, 0x0413)
  | .vaultSanitize h => some (h, 0x0414) | .patrolSet h _ _ => some (h, 0x0415) | .portsEnable h _ => some (h, 0x0500)
  | .timeJoin h _ _ => some (h, 0x0501) | .timeLeave h => some (h, 0x0502)
  | .windowOpen h _ _ _ _ _ _ _ _ _ => some (h, 0x0503) | .windowClose h _ => some (h, 0x0504)
  | .groupForm h _ _ _ _ _ _ => some (h, 0x0505) | .groupDissolve h _ => some (h, 0x0506)
  | .groupRegionRegister h _ _ _ => some (h, 0x0508) | .groupRegionRemove h _ _ _ => some (h, 0x0508)
  | .lockstepSet h _ _ _ => some (h, 0x0507) | .checkpointTake h _ _ _ _ _ _ => some (h, 0x0600)
  | .checkpointRestore h _ => some (h, 0x0601) | .migrateFence h _ _ => some (h, 0x0602)
  | .drbgInstantiate h => some (h, 0x0700) | .drbgFill h _ _ _ _ _ _ => some (h, 0x0701)
  | .debugEnter h _ => some (h, 0x0702) | .debugLeave h _ => some (h, 0x0702) | .debugDisable h _ => some (h, 0x0702)
  | .firmwareWrite h _ _ _ => some (h, 0x0703) | .modmul h _ => some (h, 0x0704) | .modexp h _ => some (h, 0x0704)
  | .p521Keygen h _ => some (h, 0x0704) | .p521Ecdh h _ => some (h, 0x0704) | .p521Sign h _ => some (h, 0x0704)
  | .p521Verify h _ => some (h, 0x0704) | .monitorConfig h _ _ _ _ => some (h, 0x0800)
  | .monitorSnapshot h _ _ => some (h, 0x0801) | _ => .none

/-- In RECOVERY the mailbox answers every command but IDENTIFY, FIRMWARE_WRITE and MODULE_RESET with NOT_READY, and nothing
else happens (19 R408). The PHASE bit of the mailbox's entry is a free value (log entry 19). -/
def Obligations.RecoveryRefusesOtherCommands : Prop :=
  ∀ (c : Instr) (h : Hdr) (op : BitVec 16) (s : State), Claims.opcodeOf c = some (h, op) → s.power.state = .recovery →
    h.src = .mbox → op ≠ 0x0100 → op ≠ 0x0703 → op ≠ 0x0104 →
    exec c s = .next (writeReply s h op { status := stNotReady, detail := 0, result := [], work := .none })

/-- The REPLY of a command that is not long, from a queue pair whose reply queue lies in host memory: its 32 bytes stand at RQ_TAIL
(tag, PHASE with KIND REPLY, the queue pair, STATUS, opcode, DETAIL, RESULT), RQ_TAIL steps on around the ring, and PHASE is
inverted at each wrap to 0 (16 R344, Table 16-4; RQ_LOG outside its range acts as the nearest value: log entry 90). The submission
side and every other queue pair stay. -/
def Obligations.RepliesLandInTheirQueue : Prop :=
  ∀ (s : State) (q : BitVec 6) (tag : BitVec 16) (irq fence : Bool) (op st : BitVec 16) (detail : Nat) (result : List Byte),
    (qpOf s q.toNat).rqLoc = false →
    let h : Hdr := { src := .qp q, tag := tag, irq := irq, fence := fence }
    let t := writeReply s h op { status := st, detail := detail, result := result, work := .none }
    let Q := qpOf s q.toNat
    let tail := (Q.rqTail.toNat + 1) % rqSize Q
    hostGet t (64 * Q.rqAddr.toNat + 32 * Q.rqTail.toNat) 32 =
        leBytes 2 tag.toNat ++ [BitVec.ofNat 8 (bit01 Q.phase), BitVec.ofNat 8 q.toNat] ++ leBytes 2 st.toNat ++ leBytes 2 op.toNat ++
          leBytes 4 detail ++ leBytes 4 0 ++ padTo 16 (if accepts st then result else []) ∧
      (qpOf t q.toNat).rqTail.toNat = tail ∧ (qpOf t q.toNat).phase = (if tail = 0 then !Q.phase else Q.phase) ∧
      (qpOf t q.toNat).sqHead = Q.sqHead ∧ (qpOf t q.toNat).enable = Q.enable ∧
      (∀ p, p ≠ q.toNat → qpOf t p = qpOf s p) ∧ t.hbm = s.hbm ∧ t.gals = s.gals ∧ t.vault = s.vault ∧ t.tours = s.tours

/-- The mailbox: a command that is not long leaves its final entry, with KIND REPLY and QP 0xFF, in CXL_MBOX_REPLY, and BUSY 0; an
accepted long command leaves BUSY as it is until its DONE writes that entry (16 R346, R350). Its PHASE bit is a free value (log
entry 19). -/
def Obligations.TheMailboxAnswersWhenAllIsDone : Prop :=
  ∀ (s : State) (tag : BitVec 16) (irq fence : Bool) (op : BitVec 16) (a : Answer) (k : LongKind),
    let h : Hdr := { src := .mbox, tag := tag, irq := irq, fence := fence }
    let entry : Bool → BitVec 256 := fun phase => BitVec.ofNat 256 (leNat
      (leBytes 2 tag.toNat ++ [BitVec.ofNat 8 (bit01 phase), 0xFF] ++ leBytes 2 a.status.toNat ++ leBytes 2 op.toNat ++
        leBytes 4 a.detail ++ leBytes 4 0 ++ padTo 16 (if accepts a.status then a.result else [])))
    let done := writeDone s h op a
    (a.work = .none → writeReply s h op a = done) ∧
      (∃ phase, done.host.mbox.reply = entry phase) ∧ done.host.mbox.busy = false ∧ done.host.qps = s.host.qps ∧
      done.hostMem = s.hostMem ∧ done.hbm = s.hbm ∧ done.gals = s.gals ∧ done.tours = s.tours ∧
      (a.work = some k →
        writeReply s h op a = { s with host := { s.host with
          longWork := s.host.longWork ++ [{ hdr := h, opcode := op, kind := k }] } })

/-! ### Module commands (16, 20) -/

/-- IDENTIFY answers HUB_ID, the firmware version, the booted slot and the boot SVN, and changes nothing else. GALLERIES_START with every
stack trained and HBM_TRAIN of any stacks are accepted as long commands; GALLERIES_STOP without a loaded or accepted tour gates
every gallery clock, lets their lock bits read 0 and leads to IDLE (16 Table 16-6, 20 R426, R427). Nothing else changes.
MODULE_RESET of the galleries, with no tour loaded or accepted and no checkpoint or restore in progress, first replies (`u`): then every
gallery is at its reset values, Restoration is disabled, no window over a cabinet region stays open, the state is IDLE and the reset cause
3 (20 R428, R430, Table 20-3). Fuses, flash, the Vault, host memory and tours stay. The model's choice: the lock bits of the bridge ends
read 0 with those of the galleries (log entry 83), and the DRBG is kept (log entry 145). -/
def Obligations.ModuleCommandsRun : Prop :=
  (∀ (h : Hdr) (s : State), docentUp s = true →
      exec (.identify h) s = .next (writeReply s h 0x0100
        { status := stOk, detail := 0, work := .none,
          result := leBytes 4 (0x4B5AB000 + numGal s) ++ leBytes 4 s.sec.fwVersion.toNat ++ leBytes 4 (bit01 s.sec.slotB) ++
            leBytes 4 s.sec.bootSvn.toNat })) ∧
  (∀ (h : Hdr) (s : State), docentUp s = true →
      (s.hbm.trained = 0xFF → exec (.galleriesStart h) s = .next (writeReply s h 0x0101
        (ansLong (.galleriesStart (s.power.state != .active))))) ∧
      (∀ stks, exec (.hbmTrain h stks) s = .next (writeReply s h 0x0103 (ansLong (.hbmTrain stks)))) ∧
      (anyLive s = false → exec (.galleriesStop h) s = .next (writeReply (setPowerState { s with
          time := { s.time with islandLock := s.time.islandLock &&& 0xFFFFFFFF00000000 },
          gals := s.gals.map (fun g => { g with regs := { g.regs with clockOn := false } }) } .idle) h 0x0102 ansOk))) ∧
  (∀ (h : Hdr) (s : State), docentUp s = true → anyLive s = false → s.health.stage = .idle →
    let u := writeReply s h 0x0104 ansOk
    ∃ t, exec (.moduleResetGalleries h) s = .next t ∧
      (∀ g < 32, galOf t g = Gallery.reset) ∧ t.rst.enabled = false ∧
      (∀ w < 64, (winOf s w).cabinet = true → winOf t w = LoanWindow.closed) ∧
      (∀ w < 64, (winOf s w).cabinet = false → winOf t w = winOf s w) ∧
      t.time.islandLock = s.time.islandLock &&& 0xFFFFFCFF00000000 ∧
      t.power.state = .idle ∧ t.power.resetCause = 3 ∧ t.fuses = s.fuses ∧ t.flash = s.flash ∧ t.vault = s.vault ∧
      t.hostMem = u.hostMem ∧ t.host.qps = u.host.qps ∧ t.host.mbox = u.host.mbox ∧ t.tours = s.tours ∧ t.sec = s.sec ∧
      t.drbg = s.drbg ∧ t.dma = s.dma ∧ t.pending = s.pending)

/-- LONG_COMMAND_DONE: the named state changes, and the DONE entry follows (16 R350; 20 R426, R427; 06 R472; 07 R145; 12 R251; 15 R329,
Table 15-5; 17 R376, R378; 19 R409, R414, R417; 21 R450). `w` is the long command number `i`, and `u` the state without it. Training skips
stacks that are trained; a start of the galleries that was issued while ACTIVE has no effect. REGION_FILL, TOUR_LOAD, CHECKPOINT_TAKE and
MIGRATE_FENCE end by rows of their own, so that this row leaves them. Left out here: PORTS_ENABLE, VAULT_OPEN, GROUP_FORM,
CHECKPOINT_RESTORE, RESTORATION_DISABLE, DRBG_FILL, DRBG_INSTANTIATE that passes its tests, and GENERATOR_FILL into a region. The model's
choice: each replica of the map keeps its latest and its previous snapshot (log entry 143), the RESULT byte of DEBUG_STATE's DONE (log
entry 85), a failed start-up test of the DRBG (log entry 24), a join that fails (log entry 68), and which effects wait for DONE (log
entry 30). -/
def Obligations.LongCommandsEnd : Prop :=
  ∀ (i : Nat) (o : WorkOutcome) (w : LongWork) (s : State), docentUp s = true → s.host.longWork[i]? = some w →
    let u : State := { s with host := { s.host with longWork := s.host.longWork.eraseIdx i } }
    (∀ stks : BitVec 8, w.kind = .hbmTrain stks →
      let newly := stks &&& ~~~(o.failed.setWidth 8) &&& ~~~s.hbm.trained
      exec (.longCommandDone i o) s = .next (writeDone { u with
        hbm := { s.hbm with trained := s.hbm.trained ||| newly },
        time := { s.time with islandLock := s.time.islandLock ||| (newly.setWidth 64 <<< 32) } }
        w.hdr w.opcode (ansRes [s.hbm.trained ||| newly]))) ∧
    (w.kind = .galleriesStart true → o.failed = 0 → s.power.state = .idle →
      ∃ t, exec (.longCommandDone i o) s = .next (writeDone t w.hdr w.opcode ansOk) ∧ t.power.state = .active ∧
        (∀ g < numGal s, (galOf t g).regs.clockOn = true) ∧ t.bridge.dir10Up = true ∧ t.bridge.dir01Up = true ∧
        t.hbm = s.hbm ∧ t.hostMem = s.hostMem ∧ t.vault = s.vault ∧ t.tours = s.tours) ∧
    (∀ idle, w.kind = .galleriesStart idle → idle = false ∨ s.power.state = .active →
      exec (.longCommandDone i o) s = .next (writeDone u w.hdr w.opcode ansOk)) ∧
    (∀ addr, w.kind = .catalogueCreate addr →
      exec (.longCommandDone i o) s = .next (writeDone { u with cat := { s.cat with enabled := true, base := addr } }
        w.hdr w.opcode ansOk)) ∧
    (w.kind = .vaultClose → vaultMoving s = false →
      let snap := snapReplica s.vault.medium.seq s.vault.map
      let m := if s.vault.isOpen then { s.vault.medium with
        replica0 := snap s.vault.medium.replica0, replica1 := snap s.vault.medium.replica1 } else s.vault.medium
      exec (.longCommandDone i o) s = .next (writeDone { u with vault := { s.vault with
        isOpen := false, openPass := false, map := [], openKeys := [], inFlight := [], passLeft := [], relocs := [], medium := m } }
        w.hdr w.opcode ansOk)) ∧
    (∀ code, w.kind = .debugState code stOk →
      exec (.longCommandDone i o) s = .next (writeDone u w.hdr w.opcode (ansRes [BitVec.ofNat 8 code]))) ∧
    ((∃ g j v, w.kind = .regionFill g j v) ∨ (∃ a b c, w.kind = .tourLoad a b c) ∨ w.kind = .checkpointTake ∨
        (∃ e l, w.kind = .migrateFence e l) →
      exec (.longCommandDone i o) s = .next s) ∧
    (∀ a, w.kind = .restorationEnable a → (rgnOf s 0 60).valid = true →
      exec (.longCommandDone i o) s = .next (writeDone { u with rst := { s.rst with enabled := true, scratch := a } }
        w.hdr w.opcode ansOk)) ∧
    (∀ k r, w.kind = .atomicOpen k r →
      exec (.longCommandDone i o) s = .next (writeDone u w.hdr w.opcode (ansRes [BitVec.ofNat 8 r, BitVec.ofNat 8 k]))) ∧
    (∀ k r, w.kind = .atomicClose k r → exec (.longCommandDone i o) s = .next (writeDone u w.hdr w.opcode ansOk)) ∧
    (∀ rdy g j n a seed lidx, w.kind = .generatorFill .hbm rdy g j n a seed lidx → s.hbm.dead = [] → s.hbm.weak = [] →
      (∀ k < 8, ∀ x < 16, vget (stkOf s k).ranges x .none = .none) →
      ∃ t, exec (.longCommandDone i o) s = .next (writeDone t w.hdr w.opcode ansOk) ∧
        (∀ x < n, hbmNat t (a + 4 * x) 4 = (mix seed (lidx + BitVec.ofNat 64 x) 0).toNat % 2 ^ 32) ∧
        (∀ b, b < a ∨ a + 4 * n ≤ b → smGet 0 b t.hbm.mem = smGet 0 b s.hbm.mem) ∧ t.gals = s.gals ∧ t.hostMem = s.hostMem ∧
        t.tours = s.tours) ∧
    (∀ first n, w.kind = .extentRelease first n → s.vault.isOpen = true →
      (∀ x < n, ∀ p ∈ staleSlots s (first + x), p.2 = false) →
      ∃ t, exec (.longCommandDone i o) s = .next (writeDone t w.hdr w.opcode ansOk) ∧
        (∀ x < n, (mapOf t (first + x)).state = .free) ∧ (∀ e, e < first ∨ first + n ≤ e → mapOf t e = mapOf s e) ∧
        (∀ a, slotLive t (a / 8388608) = true → smGet 0 a t.vault.medium.data = smGet 0 a s.vault.medium.data) ∧
        t.hbm = s.hbm ∧ t.gals = s.gals ∧ t.hostMem = s.hostMem) ∧
    (w.kind = .vaultSanitize → ∃ t, exec (.longCommandDone i o) s = .next (writeDone t w.hdr w.opcode ansOk) ∧
      (∀ e, (mapOf t e).state = .free) ∧ t.vault.sanitizing = false ∧ t.vault.medium.lost = [] ∧
      t.vault.medium.keys = s.vault.medium.keys ∧ t.hbm = s.hbm ∧ t.gals = s.gals ∧ t.hostMem = s.hostMem) ∧
    (∀ domain root, w.kind = .timeJoin domain root →
      (s.time.aligned = true → exec (.longCommandDone i o) s = .next (writeDone u w.hdr w.opcode ansOk)) ∧
      (s.time.aligned = false → s.time.lastMessage + 1024 ≤ s.time.now →
        exec (.longCommandDone i o) s = .next (writeDone { u with time := { s.time with joined := false } } w.hdr w.opcode
          (ansFail stUnreachable))) ∧
      (s.time.aligned = false → s.time.now < s.time.lastMessage + 1024 → exec (.longCommandDone i o) s = .next s)) ∧
    (∀ partner enable, w.kind = .lockstepSet partner enable → exec (.longCommandDone i o) s = .next (
      if o.heard then writeDone { u with fab := { s.fab with lockstep := { s.fab.lockstep with
          enabled := enable, partner := BitVec.ofNat 14 partner } } } w.hdr w.opcode ansOk
      else writeDone u w.hdr w.opcode (ansFail stUnreachable))) ∧
    (w.kind = .drbgInstantiate → o.failed.getLsbD 0 = true ∨ o.failed.getLsbD 1 = true →
      ∃ d, exec (.longCommandDone i o) s = .next (writeDone { u with drbg := d } w.hdr w.opcode (ansFail stNotReady)) ∧
        d.error = true ∧ d.instantiated = false ∧ d.key = s.drbg.key ∧ d.v = s.drbg.v) ∧
    (∀ b image, w.kind = .firmwareWrite b image → exec (.longCommandDone i o) s = .next (writeDone { u with
        flash := smPut 0 (if b then 0x1000000 else 0) image (smFill 0 (if b then 0x1000000 else 0) 0xFF0000 0 s.flash) }
        w.hdr w.opcode ansOk)) ∧
    (∀ a st res n, w.kind = .pkOperation a st res n →
      (∀ j < i, ∀ x, s.host.longWork[j]? = some x → ∀ a' st' res' n', x.kind ≠ .pkOperation a' st' res' n') →
      ∃ t, exec (.longCommandDone i o) s = .next (writeDone t w.hdr w.opcode (if st = stOk then ansOk else ansFail st)) ∧
        hostGet t (a + 0x840) res.length = res ∧
        (∀ b, b < a + 0x840 ∨ a + 0x840 + res.length ≤ b → smGet 0 b t.hostMem = smGet 0 b s.hostMem) ∧
        t.sec.pkCycles = BitVec.ofNat 64 n ∧
        t.sec.pkFails = (if st = stOk then s.sec.pkFails else bump8 s.sec.pkFails) ∧
        ((∀ x ∈ u.host.longWork, ∀ a' st' res' n', x.kind ≠ .pkOperation a' st' res' n') → t.sec.pkBusy = false) ∧
        t.gals = s.gals ∧ t.hbm = s.hbm) ∧
    (∀ a image, w.kind = .monitorSnapshot false a image →
      (image = [] → exec (.longCommandDone i o) s = .next s) ∧
      (image ≠ [] → exec (.longCommandDone i o) s = .next (writeDone (hostPut u a image) w.hdr w.opcode ansOk)))

/-- What every reset of the whole module leaves: no tour, galleries at reset, the Catalogue, Restoration, DMA engine, HBM, fabric,
Conservator, DRBG and monitors at their reset values, the Vault locked over its medium, of which only the writes in progress are
gone (15 R318), debug mode left. The medium and host memory survive, and so do the fuses (20 Table 20-3, 01 R16): a reset that cuts BOOT
short may leave SVN fuses blown that the image asks for (19 R407). -/
def Sys2Proof.Claims.resetLeaves (s t : State) (m : Medium) : Prop :=
  t.tours = [] ∧ (∀ g < 32, galOf t g = Gallery.reset) ∧ t.cat = Catalogue.reset ∧ t.rst = Restoration.reset ∧
    t.dma = Engine.reset ∧ t.hbm = Hbm.reset ∧ t.fab = Fabric.reset ∧ t.health = Health.reset ∧ t.drbg = Drbg.reset ∧
    t.mon = Monitors.reset ∧ t.vault = { Vault.resetOn m with wearRead := t.vault.wearRead } ∧ t.held = [] ∧ t.sec.debug = false ∧
      t.sec.recovery = false ∧
    (s.power.state ≠ .boot ∨ s.power.perst = true → t.fuses = s.fuses) ∧ t.fuses.galleryMap = s.fuses.galleryMap ∧
    t.fuses.debugDisabled = s.fuses.debugDisabled ∧ s.fuses.svnBlown ≤ t.fuses.svnBlown ∧
    t.hostMem = s.hostMem ∧ t.pending = s.pending

/-- What a loss of power leaves besides: module time 0, VLT_WEAR reads 0 until the Vault opens, and the boot flash is kept, but for a slot
that was being written, whose image is gone (19, after R409; log entry 126). -/
def Sys2Proof.Claims.powerGone (s t : State) : Prop :=
  t.time = TimeSt.reset ∧ t.vault.wearRead = false ∧ (firmwareRunning s = false → t.flash = s.flash) ∧
    (∀ w ∈ s.host.longWork, ∀ b image, w.kind = .firmwareWrite b image → bytesAt (flashGet t (slotBase b) 512) 0 4 = 0)

/-- What a reset without a loss of power leaves of the Vault's medium: all but what writes in progress programmed. -/
def Sys2Proof.Claims.restMedium (s : State) : Medium :=
  { s.vault.medium with data := s.vault.medium.data.filter (fun p => !s.vault.inFlight.any (fun w => w.slot == p.1 / 8388608)) }

/-- The resets of the whole module: MODULE_RESET with KIND 0x02, whose REPLY goes before it, a Function Level Reset, and the
assertion of PERST# lead to BOOT with their causes; losing the input and SHUTDOWN lose all volatile state and lead to OFF and
LATCHED_OFF (20 R428 to R432, R440; Tables 20-2, 20-3). The model's choice: the assertion of PERST# itself resets and holds (log entry
112), a DEVICE reset follows its REPLY (log entry 84), and in LATCHED_OFF whether a loss of the input ends that state is a free bit (log
entry 150). -/
def Obligations.WholeModuleResets : Prop :=
  ∀ s : State,
    (∀ h, docentUp s = true → ∃ t, exec (.moduleResetDevice h) s = .next t ∧
      Claims.resetLeaves (writeReply s h 0x0104 ansOk) t (Claims.restMedium s) ∧ t.power.state = .boot ∧ t.power.resetCause = 2 ∧
      t.flash = (writeReply s h 0x0104 ansOk).flash ∧ t.vault.wearRead = (writeReply s h 0x0104 ansOk).vault.wearRead) ∧
    (hubRuns s = true → ∃ t, exec .functionLevelReset s = .next t ∧ Claims.resetLeaves s t (Claims.restMedium s) ∧ t.power.state = .boot ∧
      t.power.resetCause = 4 ∧ t.flash = s.flash ∧ t.vault.wearRead = s.vault.wearRead) ∧
    (hubRuns s = true → ∃ t, exec (.perst true) s = .next t ∧ Claims.resetLeaves s t (Claims.restMedium s) ∧ t.power.state = .boot ∧
      t.power.resetCause = 1 ∧ t.power.perst = true ∧ t.flash = s.flash ∧ t.vault.wearRead = s.vault.wearRead) ∧
    (s.power.state ≠ .latchedOff → ∃ t, exec .powerInputLoss s = .next t ∧ Claims.resetLeaves s t t.vault.medium ∧
      t.power.state = .off ∧ (s.vault.inFlight = [] → t.vault.medium = s.vault.medium) ∧ Claims.powerGone s t) ∧
    (s.power.state = .latchedOff → ∃ t, exec .powerInputLoss s = .next t ∧ (t.power.state = .off ∨ t.power.state = .latchedOff) ∧
      (t.power.state = .off → Claims.resetLeaves s t t.vault.medium ∧ Claims.powerGone s t) ∧
      (t.power.state = .latchedOff → t = { s with freeCount := t.freeCount })) ∧
    (hubRuns s = true → ∃ t, exec .shutdown s = .next t ∧ Claims.resetLeaves s t t.vault.medium ∧ t.power.state = .latchedOff ∧
      (s.vault.inFlight = [] → t.vault.medium = s.vault.medium) ∧ Claims.powerGone s t)

/-! ### Regions (04) and Restoration (07) -/

/-- REGION_DECLARE with operands in range, no declared, pending or named region in the way and no SEALED in debug mode declares the
region with POISONED, LOCKED and READY 0, and REGION_RELEASE takes a declared region away: at once when it is not sealed, and when it is
sealed by a fill with zeros that the cabinet engine begins, with VALID 0 and ZEROIZING 1 until it has landed (04 R72, R73, R92, R469, R470;
19 R420). REGION_FILL is accepted while the clock runs, and its fill begins (04 R470). No word of a cabinet and nothing else changes yet.
The model's choice: SEALED in debug mode is looked at after the other checks (log entry 75), and a sealed region of a gallery whose clock
is gated is released at once with VALID 0 and ZEROIZING 1, its fill waiting for the clock (log entry 79). -/
def Obligations.RegionCommandsRun : Prop :=
  ∀ (h : Hdr) (g j : BitVec 8) (s : State), docentUp s = true → g.toNat < numGal s → j.toNat < 64 →
    reservedRegion s j.toNat = false → regionNamed s g.toNat j.toNat = false →
    (∀ (mode feed isSealed : BitVec 8) (base rows wblk : BitVec 16), mode.toNat ≤ 1 → feed.toNat ≤ 4 → isSealed.toNat ≤ 1 →
      0 < rows.toNat → base.toNat + rows.toNat ≤ 12288 → (mode = 0 → wblk = 0) →
      (mode = 1 → 0 < wblk.toNat ∧ wblk.toNat ≤ 512 ∧ rows.toNat % wblk.toNat = 0) →
      (isSealed = 1 → s.sec.debug = false) → holdsRows (rgnOf s g.toNat j.toNat) = false →
      rowsTaken s g.toNat base.toNat rows.toNat = false →
      exec (.regionDeclare h g j mode feed isSealed base rows wblk) s = .next (writeReply
        (setRgn s g.toNat j.toNat { Region.none with
          baseRow := BitVec.ofNat 14 base.toNat, rows := BitVec.ofNat 14 rows.toNat, mode2D := mode == 1,
          wblk := BitVec.ofNat 10 wblk.toNat, feed := BitVec.ofNat 3 feed.toNat, isSealed := isSealed == 1, valid := true })
        h 0x0201 ansOk)) ∧
    ((rgnOf s g.toNat j.toNat).valid = true →
      let r := rgnOf s g.toNat j.toNat
      let G := galOf s g.toNat
      let rest := G.fills.filter (fun f => f.region != j.toNat)
      (∃ u, exec (.regionRelease h g j) s = .next (writeReply u h 0x0202 ansOk) ∧
        (∀ k m, (k, m) ≠ (g.toNat, j.toNat) → rgnOf u k m = rgnOf s k m) ∧ (∀ k pa, cabWord u k pa = cabWord s k pa) ∧
        (∀ k, k ≠ g.toNat → galOf u k = galOf s k) ∧
        (∀ k < 4, (groupOf u k).regions = (groupOf s k).regions.filter (· ≠ (g.toNat, j.toNat))) ∧
        (r.isSealed = false → rgnOf u g.toNat j.toNat = Region.none ∧ (galOf u g.toNat).fills = rest) ∧
        (r.isSealed = true → rgnOf u g.toNat j.toNat = { r with valid := false, zeroizing := true, ready := false } ∧
          (galOf u g.toNat).fills =
            rest ++ [{ region := j.toNat, value := 0, rows := r.rows.toNat, chunk := 0, release := true }]) ∧
        u = { s with gals := u.gals, fab := { s.fab with groups := u.fab.groups } }) ∧
      (∀ v, G.regs.clockOn = true → ∃ u, exec (.regionFill h g j v) s = .next (writeReply u
          h 0x0203 (ansLong (.regionFill g.toNat j.toNat v))) ∧
        (galOf u g.toNat).fills =
          G.fills ++ [{ region := j.toNat, value := v, rows := r.rows.toNat, chunk := 0, release := false }] ∧
        (galOf u g.toNat).cab = G.cab ∧ (galOf u g.toNat).regions = G.regions ∧ (galOf u g.toNat).regs = G.regs ∧
        (∀ k, k ≠ g.toNat → galOf u k = galOf s k) ∧ u = { s with gals := u.gals }))

/-- The fills of the cabinet engine, in a tick in which no step and no tour runs and no access is held: the fill under way in a gallery
lands one bank row in each of the 100 cycles, so that `d` rows more read its value, and no other word of any cabinet changes. With its
last row the region of a REGION_FILL is no longer poisoned, and an internal one is ready; that of a release is free, and its rows with it.
REGION_FILL_DONE, once the last row has landed, ends the fill with the DONE entry, and leaves it while rows are to land (04 R92, R96, R470;
10 R227). The model's choice: the tick is what a step does on an empty queue (log entry 5); a fill whose region is gone ends with NOT_READY
(log entry 21). -/
def Obligations.RegionFillsLand : Prop :=
  (∀ (g : Nat) (f : CabFill) (s : State), s.pending = [] → hubRuns s = true → s.time.islandLock.getLsbD 42 = true → s.held = [] →
    s.time.cycle = 0 → s.useLog = [] → watching s = false → (∀ k < 32, (galOf s k).run = .none) →
    (∀ x ∈ s.tours, x.state ≠ .running) → (∀ x ∈ s.tours, tourAccepted x = true → x.status = .none) →
    g < numGal s → f.region < 64 → (galOf s g).fills = [f] → (∀ k < 32, k ≠ g → (galOf s k).fills = []) →
    (galOf s g).regs.clockOn = true → f.chunk < f.rows →
    let r := rgnOf s g f.region
    let d := min 100 (f.rows - f.chunk)
    let a := 256 * r.baseRow.toNat + 256 * f.chunk
    ∃ t, step s = .next t ∧
      (∀ pa, cabWord t g pa = if a ≤ pa ∧ pa < a + 256 * d then f.value else cabWord s g pa) ∧
      (∀ k pa, k ≠ g → cabWord t k pa = cabWord s k pa) ∧ (∀ k m, (k, m) ≠ (g, f.region) → rgnOf t k m = rgnOf s k m) ∧
      (f.chunk + d < f.rows → (galOf t g).fills = [{ f with chunk := f.chunk + d }] ∧ rgnOf t g f.region = r ∧
        (galOf t g).cabRegs.engineBusy = true) ∧
      (f.chunk + d = f.rows → (galOf t g).cabRegs.engineBusy = false ∧
        (f.release = false → (galOf t g).fills = [{ f with chunk := f.rows }] ∧ (rgnOf t g f.region).poisoned = false ∧
          (r.feed = 0 → (rgnOf t g f.region).ready = true) ∧ (r.feed ≠ 0 → (rgnOf t g f.region).ready = r.ready) ∧
          (rgnOf t g f.region).valid = r.valid) ∧
        (f.release = true → (galOf t g).fills = [] ∧ rgnOf t g f.region = Region.none)) ∧
      t.hbm = s.hbm ∧ t.hostMem = s.hostMem ∧ t.tours = s.tours ∧ t.vault = s.vault) ∧
  (∀ (i g j : Nat) (v : Word) (w : LongWork) (s : State), s.host.longWork[i]? = some w → w.kind = .regionFill g j v → g < 32 →
    let hit := fun (f : CabFill) => f.region == j && f.value == v && !f.release
    let u : State := { s with host := { s.host with longWork := s.host.longWork.eraseIdx i } }
    (∀ f, (galOf s g).fills.find? hit = some f →
      (f.chunk < f.rows → exec (.regionFillDone i) s = .next s) ∧
      (f.rows ≤ f.chunk → exec (.regionFillDone i) s = .next (writeDone
        (modGal u g (fun x => { x with fills := x.fills.erase f })) w.hdr w.opcode ansOk))) ∧
    ((galOf s g).fills.find? hit = .none →
      exec (.regionFillDone i) s = .next (writeDone u w.hdr w.opcode (ansFail stNotReady))))

/-- RESTORATION_ENABLE declares B60 to B63 of every gallery for its 4 GiB-aligned scratch, RESTORATION_DISABLE without a live
Restoration is accepted (07 R145 to R147). The model's choice: B60 and B61 are the two 2D regions and B62 and B63 the two word regions,
each of 1,024 rows, from row 8,192 on in that order (log entry 88), and they are declared from the REPLY on (log entry 30). -/
def Obligations.RestorationCommandsRun : Prop :=
  ∀ (h : Hdr) (s : State), docentUp s = true →
    (∀ addr : Quad, addr.toNat % 2 ^ 32 = 0 → addr.toNat + 2 ^ 32 ≤ 618475290624 →
      (catExists s = true → s.cat.base + 2 ^ 24 ≤ addr.toNat ∨ addr.toNat + 2 ^ 32 ≤ s.cat.base) →
      restorationHolds s = false → anyLive s = false → hbmUsable s addr.toNat (2 ^ 32) = true →
      (∀ g < numGal s, rowsTaken s g 8192 4096 = false ∧ ∀ i < 4, holdsRows (rgnOf s g (60 + i)) = false) →
      ∃ t, exec (.restorationEnable h addr) s = .next (writeReply t h 0x0208 (ansLong (.restorationEnable addr.toNat))) ∧
        (∀ g < numGal s,
          rgnOf t g 60 = { Region.none with baseRow := 8192, rows := 1024, mode2D := true, wblk := 1, valid := true } ∧
          rgnOf t g 61 = { Region.none with baseRow := 9216, rows := 1024, mode2D := true, wblk := 1, valid := true } ∧
          rgnOf t g 62 = { Region.none with baseRow := 10240, rows := 1024, valid := true } ∧
          rgnOf t g 63 = { Region.none with baseRow := 11264, rows := 1024, valid := true } ∧
          (∀ j < 60, rgnOf t g j = rgnOf s g j) ∧ (galOf t g).cab = (galOf s g).cab) ∧
        t.hbm = s.hbm ∧ t.rst = s.rst ∧ t.hostMem = s.hostMem ∧ t.tours = s.tours) ∧
    (restorationLive s = false →
      exec (.restorationDisable h) s = .next (writeReply s h 0x0209 (ansLong .restorationDisable)))

/-! ### The Catalogue (06) -/

/-- No atomic range is open in any stack. -/
def Sys2Proof.Claims.noRanges (s : State) : Prop := ∀ k < 8, ∀ i < 16, vget (stkOf s k).ranges i .none = .none

/-- CATALOGUE_CREATE writes each of the 262,144 entries as a free entry (every byte as the spec gives a free entry, with its CRC), leaves
every other byte of device memory, and notes the base; whole lines are written, so that no line of the Catalogue stays uncorrectable
(14 R306); ENABLED follows at its DONE (06 R472). The model's choice (log entry 30): the entries stand from the REPLY on. -/
def Obligations.CatalogueCreateWritesFreeEntries : Prop :=
  ∀ (h : Hdr) (addr : Quad) (s : State), docentUp s = true → addr.toNat % 2 ^ 24 = 0 → addr.toNat + 2 ^ 24 ≤ 618475290624 →
    catExists s = false → hbmUsable s addr.toNat (2 ^ 24) = true → Claims.noRanges s →
    ∃ t, exec (.catalogueCreate h addr) s = .next (writeReply t h 0x0200 (ansLong (.catalogueCreate addr.toNat))) ∧
      (∀ i < 262144, ∀ k < 64, smGet 0 (addr.toNat + 64 * i + k) t.hbm.mem =
        (if k < 60 then 0 else (leBytes 4 (crc32c (List.replicate 60 0))).getD (k - 60) 0)) ∧
      (∀ a, a < addr.toNat ∨ addr.toNat + 2 ^ 24 ≤ a → smGet 0 a t.hbm.mem = smGet 0 a s.hbm.mem) ∧
      (∀ l, l ∈ t.hbm.dead ↔ l ∈ s.hbm.dead ∧ (64 * l < addr.toNat ∨ addr.toNat + 2 ^ 24 ≤ 64 * l)) ∧
      t.cat = { s.cat with base := addr.toNat } ∧ t.hostMem = s.hostMem ∧ t.gals = s.gals ∧ t.tours = s.tours ∧
      t.vault = s.vault

/-- Every write of an entry by the Docent sets its CRC and leaves the rest of device memory alone (06 R117): the entry's bytes 0x00 to
0x3B have the CRC that its bytes 0x3C to 0x3F hold, and no byte outside the entry changes. -/
def Obligations.EntryWritesKeepTheirCrc : Prop :=
  ∀ (i : Nat) (x : CatEnt) (s : State), Claims.noRanges s →
    entCrcOk (putEnt i x s) i = true ∧
      (∀ a, a < s.cat.base + 64 * i ∨ s.cat.base + 64 * i + 64 ≤ a →
        smGet 0 a (putEnt i x s).hbm.mem = smGet 0 a s.hbm.mem) ∧
      (putEnt i x s).hostMem = s.hostMem ∧ (putEnt i x s).gals = s.gals ∧ (putEnt i x s).tours = s.tours

/-- OBJECT_REGISTER over a free entry, without a parameter block for a tensor or an LWE sample set, and with one that agrees;
OBJECT_UPDATE of an unlocked entry of the same kind, whose fields agree with the block kept under its tag, and for a key object leave
the key's own fields; one that disagrees is refused; OBJECT_RELEASE of unlocked entries; COST_TABLE_LOAD while no tour is loaded
(06 R119, R120, R131, R474). The entry takes the template's fields with POISONED, LOCKED and LOADING 0 and the tag; an update keeps
tag and epoch; a release drops the parameter blocks whose tag no entry carries any more (R473). The model's choice: EPOCH, BUDGET and
EXHAUSTED of a new entry are the template's and POISONED is 0 (log entry 141); an update clears no EXHAUSTED (log entry 129); which
template fields are checked (log entry 20). -/
def Obligations.CatalogueCommandsRun : Prop :=
  ∀ (h : Hdr) (idx : Word) (a pa : Quad) (pn : BitVec 16) (count : Word) (s : State), docentUp s = true →
    let e := leNat (hostGet s a.toNat 64)
    let x := readEnt e
    let b := hostGet s pa.toNat pn.toNat
    let c := catEnt s idx.toNat
    (catExists s = true → s.host.busMaster = true → idx.toNat < 262144 → c.kind = 0 → c.locked = false →
      templateOk (numGal s) e = true → objectOk x = true →
      (pn.toNat = 0 → x.kind = 4 ∨ x.kind = 5 →
        exec (.objectRegister h idx a pa pn) s = .next (writeReply
          (putEnt idx.toNat { x with tag := 0, poisoned := false, locked := false, loading := false } s)
          h 0x0204 (ansRes (leBytes 8 0)))) ∧
      (pn.toNat ≠ 0 → x.kind = 1 ∨ x.kind = 2 ∨ x.kind = 4 ∨ x.kind = 5 → pbOk b = true → agrees x b = true →
        exec (.objectRegister h idx a pa pn) s = .next (writeReply (keepBlock (provTag b) b
          (putEnt idx.toNat { x with tag := provTag b, poisoned := false, locked := false, loading := false } s))
          h 0x0204 (ansRes (leBytes 8 (provTag b).toNat))))) ∧
    (catExists s = true → s.host.busMaster = true → idx.toNat < 262144 → c.locked = false → c.kind ≠ 0 →
      x.kind = c.kind → templateOk (numGal s) e = true →
      (c.kind = 3 → x.keyKind = c.keyKind ∧ x.dnum = c.dnum ∧ x.autoA = c.autoA ∧ x.levelMin = c.levelMin ∧ x.levelMax = c.levelMax) →
      (c.kind ≠ 3 → objectOk x = true) → (c.tag = 0 ∨ ∀ p, blockOf s c.tag = some p → agrees x p = true) →
      let y : CatEnt :=
        { x with tag := c.tag, epoch := c.epoch, locked := c.locked, loading := c.loading, exhausted := c.exhausted || x.exhausted }
      let t := putEnt idx.toNat y s
      exec (.objectUpdate h idx a) s = .next (writeReply t h 0x0205 (ansRes (leBytes 4 (catEnt t idx.toNat).gen)))) ∧
    (catExists s = true → s.host.busMaster = true → idx.toNat < 262144 → c.tag ≠ 0 →
      (∀ p, blockOf s c.tag = some p → agrees x p = false) → blockOf s c.tag ≠ .none →
      exec (.objectUpdate h idx a) s = .next (writeReply s h 0x0205 (ansFail stBadParam))) ∧
    (catExists s = true → 0 < count.toNat → idx.toNat + count.toNat ≤ 262144 →
      (∀ i < count.toNat, (catEnt s (idx.toNat + i)).locked = false) →
      exec (.objectRelease h idx count) s = .next (writeReply
        (let t := (List.range count.toNat).foldl (fun u i => putEnt (idx.toNat + i) freeEnt u) s
         { t with cat := { t.cat with blocks := t.cat.blocks.filter (fun b => tagCarried t b.1) } }) h 0x0206 ansOk)) ∧
    (s.host.busMaster = true → anyLive s = false →
      exec (.costTableLoad h a) s = .next (writeReply { s with cat := { s.cat with
        cost := smCells 0 0 ((List.range 1024).map (fun i => BitVec.ofNat 16 (bytesAt (hostGet s a.toNat 2048) (2 * i) 2))),
        costLoaded := true } } h 0x0207 ansOk))

/-- KEY_REGISTER from HBM or from the Vault, over a free entry with a sound parameter block and a header that reads without poison: a
key whose refresh descriptor (kinds 0x10 to 0x12) cannot be read is refused, one that the checks of R123 or R142 refuse is refused and
counted, one whose body leaves device memory is refused, and every other registers the key object and keeps the block (06 R122, R123,
R474; 07 R142). `r` is the read of the header, `d` that of the descriptor. The model's choice: EPOCH is 0 (log entry 141), COMPONENTS 2
(log entry 151). -/
def Obligations.KeyRegisterAnswers : Prop :=
  ∀ (h : Hdr) (idx : Word) (space : BitVec 8) (addr pa : Quad) (pn : BitVec 16) (s : State), docentUp s = true → catExists s = true →
    s.host.busMaster = true → idx.toNat < 262144 → (catEnt s idx.toNat).kind = 0 → (catEnt s idx.toNat).locked = false →
    space = 0 ∨ space = 2 →
    let pb := hostGet s pa.toNat pn.toNat
    let r := keyBytes space.toNat addr.toNat 0 s
    let b := r.1.2
    let refresh := khKind b = 0x10 ∨ khKind b = 0x11 ∨ khKind b = 0x12
    let d := if refresh then keyBytes space.toNat addr.toNat 1024 r.2 else ((stOk, []), r.2)
    let check := if refresh then refreshCheck b d.1.2 pb (provTag pb) else keyCheck b pb (provTag pb)
    pbOk pb = true → r.1.1 = stOk →
    exec (.keyRegister h idx space addr pa pn) s = .next (
      if d.1.1 ≠ stOk then writeReply d.2 h 0x0400 (ansFail d.1.1)
      else if check ≠ stOk then writeReply (countRefusal check d.2) h 0x0400 (ansFail check)
      else if space = 0 ∧ 618475290624 < addr.toNat + 1024 + khBody b then writeReply d.2 h 0x0400 (ansFail stAddressRange)
      else writeReply (keepBlock (provTag pb) pb (putEnt idx.toNat
        { freeEnt with
          kind := 3, space := space.toNat, addr := addr.toNat, bytes := 1024 + khBody b, components := 2, dnum := khDnum b,
          mode := pbMode pb, form := 1, special := khSpecial b, limbs := khData b, logN := khLogN b, ptMod := pbT pb,
          tag := provTag pb, keyKind := khKind b, levelMax := khLevelMax b, levelMin := khLevelMin b, autoA := khAutoA b } d.2))
        h 0x0400 (ansRes (leBytes 8 (provTag pb).toNat)))

/-! ### Monitors (21) -/

/-- MONITOR_CONFIG of a unit and a source that exist is noted for the next tick edge; MONITOR_SNAPSHOT to host memory or to trained HBM
is accepted; a sample of a source counts once in every unit that it feeds, and in no other (21 R441 to R444, R450). Sources 0x40, 0x70 and
0x71 are fed by the module's own tours, and 0 is none: a sample of these does nothing (the model's choice, log entry 6). -/
def Obligations.MonitorCommandsRun : Prop :=
  ∀ (h : Hdr) (s : State),
    (∀ (unit source shift : BitVec 8) (offset : Word), docentUp s = true → unit.toNat < 16 → sourceOk source.toNat = true →
      shift.toNat < 32 →
      exec (.monitorConfig h unit source shift offset) s = .next (writeReply (modUnit s unit.toNat (fun u =>
        { u with pending := some (source, BitVec.ofNat 5 shift.toNat, offset) })) h 0x0800 ansOk)) ∧
    (∀ addr : Quad, docentUp s = true → s.host.busMaster = true →
      exec (.monitorSnapshot h 0 addr) s = .next (writeReply s h 0x0801 (ansLong (.monitorSnapshot false addr.toNat [])))) ∧
    (∀ addr : Quad, docentUp s = true → addr.toNat + 5232 ≤ 618475290624 → hbmUsable s addr.toNat 5232 = true →
      exec (.monitorSnapshot h 1 addr) s = .next (writeReply s h 0x0801 (ansLong (.monitorSnapshot true addr.toNat [])))) ∧
    (∀ (source : BitVec 8) (v : Int), hubRuns s = true → source ≠ 0 → source ≠ 0x40 → source ≠ 0x70 → source ≠ 0x71 →
      ∃ t, exec (.captureSample source v) s = .next t ∧
        (∀ k < 16, (unitOf s k).source = source →
          (unitOf t k).count = bumpBy64 (unitOf s k).count 1 ∧
          (unitOf t k).min.toInt = min (unitOf s k).min.toInt (clampSample v) ∧
          (unitOf t k).max.toInt = max (unitOf s k).max.toInt (clampSample v)) ∧
        (∀ k < 16, (unitOf s k).source ≠ source → unitOf t k = unitOf s k) ∧
        t = { s with mon := { s.mon with units := t.mon.units } }) ∧
    (∀ (source : BitVec 8) (v : Int), source = 0 ∨ source = 0x40 ∨ source = 0x70 ∨ source = 0x71 →
      exec (.captureSample source v) s = .next s)

/-! ### HBM (14) -/

/-- ATOMIC_OPEN of a range within the limits, in trained stacks and unclaimed halves, none of whose lines has an error, opens the first
free range with the memory's content in its SRAM; ATOMIC_CLOSE of an open range writes it back (14 R307, R308, R311). Which ranges break the
limits is log entry 40; that both stand from the REPLY on is log entry 30. -/
def Obligations.AtomicRangesOpenAndClose : Prop :=
  ∀ (h : Hdr) (s : State), docentUp s = true →
    (∀ (a : Quad) (n q : Word) (i : Nat), lockstepOn s = false → rangeBad s a.toNat n.toNat q.toNat = false → hbmUsable s a.toNat n.toNat = true →
      halfClaimed s (stackOf a.toNat) (halfOf a.toNat) = false →
      halfClaimed s (stackOf a.toNat) (halfOf (a.toNat + n.toNat - 1)) = false →
      s.hbm.dead = [] → s.hbm.weak = [] → i < 16 → vget (stkOf s (stackOf a.toNat)).ranges i .none = .none →
      (∀ j < i, vget (stkOf s (stackOf a.toNat)).ranges j .none ≠ .none) →
      exec (.atomicOpen h a n q) s = .next (writeReply (modStk { s with host := { s.host with
          hostLines := s.host.hostLines.filter (fun l => !(decide (a.toNat < l * 64 + 64) && decide (l * 64 < a.toNat + n.toNat))) } }
          (stackOf a.toNat) (fun st => { st with ranges := vset st.ranges i (some
            { base := a.toNat, length := n.toNat, q := q, poisoned := [],
              sram := s.hbm.mem.filter (fun p => decide (a.toNat ≤ p.1 ∧ p.1 < a.toNat + n.toNat)) }) }))
        h 0x020A (ansLong (.atomicOpen (stackOf a.toNat) i)))) ∧
    (∀ (i k : BitVec 8) (r : AtomRange), k.toNat < 8 → i.toNat < 16 → vget (stkOf s k.toNat).ranges i.toNat .none = some r →
      ∃ t, exec (.atomicClose h i k) s = .next (writeReply t h 0x020B (ansLong (.atomicClose k.toNat i.toNat))) ∧
        vget (stkOf t k.toNat).ranges i.toNat .none = .none ∧
        (∀ a, r.base ≤ a → a < r.base + r.length → smGet 0 a t.hbm.mem = smGet 0 a r.sram) ∧
        (∀ a, a < r.base ∨ r.base + r.length ≤ a → smGet 0 a t.hbm.mem = smGet 0 a s.hbm.mem) ∧
        (∀ l, l ∈ t.hbm.dead ↔ l ∈ r.poisoned ∨
          (l ∈ s.hbm.dead ∧ ¬(r.base < 64 * l + 64 ∧ 64 * l < r.base + r.length))) ∧
        t.hostMem = s.hostMem ∧ t.gals = s.gals ∧ t.tours = s.tours ∧ t.vault = s.vault)

/-- ATOMIC_UPDATE of an aligned element of an open range whose line was not loaded poisoned replaces the element by the result of
its RED_OP, and changes nothing else of the module but that the host caches the line no longer (14 R302, R309, Table 14-6). FADD's
result is that of binary32 addition (09 R195), its saturations and NaN results are counted (R311). -/
def Obligations.AtomicUpdatesApply : Prop :=
  ∀ (a : Nat) (op : BitVec 8) (y cmp : Quad) (i : Nat) (r : AtomRange) (s : State), hubRuns s = true →
    findRange s a = some (i, r) → 1 ≤ op.toNat → op.toNat ≤ 10 →
    let n := if op = 2 ∨ op = 8 ∨ op = 10 then 8 else 4
    a % n = 0 → r.poisoned.contains (a / 64) = false →
    let x := leNat (smRead 0 a n r.sram)
    let w := y.toNat % 2 ^ (8 * n)
    let f := fAdd (BitVec.ofNat 32 x) (BitVec.ofNat 32 w)
    let v := if op = 1 then (x + w) % 2 ^ 32 else if op = 2 then (x + w) % 2 ^ 64
      else if op = 3 then (if r.q.toNat ≤ x + w then x + w - r.q.toNat else x + w) % 2 ^ 32
      else if op = 4 then f.w.toNat
      else if op = 5 then (if (BitVec.ofNat 32 x).toInt ≤ (BitVec.ofNat 32 w).toInt then x else w)
      else if op = 6 then (if (BitVec.ofNat 32 w).toInt ≤ (BitVec.ofNat 32 x).toInt then x else w)
      else if op = 7 ∨ op = 8 then w
      else if x = cmp.toNat % 2 ^ (8 * n) then w else x
    exec (.atomicUpdate a op y cmp) s = .next (modStk
      { s with host := { s.host with hostLines := s.host.hostLines.filter (· ≠ a / 64) } } (stackOf a) (fun st =>
      { st with ranges := vset st.ranges i (some { r with sram := smPut 0 a (leBytes n v) r.sram }),
                atomSat := if op = 4 ∧ f.sat = true then bump8 st.atomSat else st.atomSat,
                atomNan := if op = 4 ∧ f.nan = true then bump8 st.atomNan else st.atomNan }))

/-- What CXL.mem writes to a whole line is what CXL.mem reads from it, without poison, whatever the line held; every other byte of
device memory keeps its content (14 R302, R306). Each access takes a hub slot (`cxlSlot`); one that finds none is held (R301). The
model's choice: the slots of the present tick and of the next are tried (log entry 42), and an access that comes after a held one to its
line is held as well (log entry 137). -/
def Obligations.CxlReadsWhatItWrote : Prop :=
  ∀ (l : Nat) (bs : List Byte) (cached : Bool) (s : State), hubRuns s = true →
    s.host.hdmEnabled = true ∨ s.host.hdmEnabled1 = true → 64 * l + 64 ≤ 618475290624 → s.hbm.trained = 0xFF → bs.length = 64 →
    (∀ acc, lineHeld s l = true ∨ cxlSlot s (64 * l) acc = .none →
      exec (.cxlMemAccess (64 * l) cached acc) s = .next { s with held := s.held ++ [.cxl (64 * l) cached acc] }) ∧
    (Claims.noRanges s → lineHeld s l = false → (cxlSlot s (64 * l) (.write bs)).isSome = true →
    ∃ t, exec (.cxlMemAccess (64 * l) false (.write bs)) s = .next t ∧ t.host.readPoison = false ∧
      (∃ at_, t.hbm.bursts.head? = some (at_, l, true)) ∧
      (∀ a, a < 64 * l ∨ 64 * l + 64 ≤ a → smGet 0 a t.hbm.mem = smGet 0 a s.hbm.mem) ∧ t.gals = s.gals ∧ t.tours = s.tours ∧
      ((cxlSlot t (64 * l) .read).isSome = true →
        ∃ u, exec (.cxlMemAccess (64 * l) cached .read) t = .next u ∧ u.host.readData = bs ∧ u.host.readPoison = false ∧
          u.hbm.mem = t.hbm.mem))

/-- The controls of HBM: HUB_EIGHTH changes while no tour is loaded, and the refusal is counted otherwise (14 R296); TG_START
starts a run, but START in WRITE_CHECK mode is discarded unless every HDM decoder is disabled and no Catalogue exists, and any START
while BUSY is 1 (R312, R313); TG_DONE of a scan over lines without errors sets DONE; a line that was corrected twice within 64 periods
in an unclaimed half is rewritten in a hub slot that fits, and stays owed while none does (R301; 18 R388); DOUBLE_RATE follows the
stack's temperature (R295); a hub burst that fits its slot reads its line, and one that does not is held to a later slot (R301). The
model's choice: a burst's data stand where the host's last read does (log entry 42). -/
def Obligations.HbmControlsRun : Prop :=
  ∀ s : State, hubRuns s = true →
    (∀ v : Word, v.getLsbD 0 ≠ s.hbm.hubEighth →
      exec (.hubShareWrite v) s = .next (if anyLive s then { s with hbm := { s.hbm with shareRefusals := bump8 s.hbm.shareRefusals } }
        else { s with hbm := { s.hbm with hubEighth := v.getLsbD 0 } })) ∧
    (∀ k : BitVec 3, (stkOf s k.toNat).tgBusy = false →
      exec (.tgStart k 0x11) s = .next (modStk s k.toNat (fun st => { st with
        tgMode := 1, tgPattern := 0, tgBusy := true, tgDone := false, runMode := 1, runPattern := 0 }))) ∧
    (∀ (k : BitVec 3) (v : Word), v.getLsbD 0 = true → ∃ u, exec (.tgStart k v) s = .next u ∧
      (fieldAt v.toNat 4 2 = 0 → s.host.hdmEnabled = true ∨ s.host.hdmEnabled1 = true ∨ catExists s = true →
        (stkOf u k.toNat).tgBusy = (stkOf s k.toNat).tgBusy ∧ (stkOf u k.toNat).tgDone = (stkOf s k.toNat).tgDone) ∧
      (fieldAt v.toNat 4 2 = 0 → fieldAt v.toNat 2 2 ≤ 2 → s.host.hdmEnabled = false → s.host.hdmEnabled1 = false → catExists s = false →
        (stkOf s k.toNat).tgBusy = false → (stkOf u k.toNat).tgBusy = true ∧ (stkOf u k.toNat).tgDone = false ∧
          (stkOf u k.toNat).runMode = 0 ∧ (stkOf u k.toNat).runPattern = BitVec.ofNat 2 (fieldAt v.toNat 2 2)) ∧
      ((stkOf s k.toNat).tgBusy = true → u.hbm = s.hbm) ∧ u.hbm.mem = s.hbm.mem ∧ u.gals = s.gals) ∧
    (∀ k : BitVec 3, (stkOf s k.toNat).tgBusy = true → (stkOf s k.toNat).runMode = 1 → s.hbm.dead = [] → s.hbm.weak = [] →
      exec (.tgDone k []) s = .next (modStk { s with host := { s.host with hostLines := s.host.hostLines.filter (fun l =>
        !(maskedPcs k.toNat (stkOf s k.toNat).tgMask l != 0)) } } k.toNat (fun st => { st with tgBusy := false, tgDone := true }))) ∧
    (∀ line, correctedTwice s line = true → halfClaimed s (stackOf (line * 64)) (halfOf (line * 64)) = false →
      s.hbm.dead.contains line = false →
      (slotFor s (nearLine s line) line true = .none → exec (.lineRewrite line) s = .next s) ∧
      (∀ at_, slotFor s (nearLine s line) line true = some at_ →
        exec (.lineRewrite line) s = .next { s with
          host := { s.host with hostLines := s.host.hostLines.filter (· ≠ line) },
          hbm := { s.hbm with
            fixes := s.hbm.fixes.filter (fun f => f.1 != line), weak := s.hbm.weak.filter (· ≠ line),
            bursts := (at_, line, true) :: s.hbm.bursts.filter (fun b => decide (at_ < b.1 + 128)) } })) ∧
    (∀ k : BitVec 3,
      exec (.refreshRateChange k true) s = .next { s with hbm := { s.hbm with
        doubleRate := s.hbm.doubleRate ||| BitVec.ofNat 8 (2 ^ k.toNat) } } ∧
      exec (.refreshRateChange k false) s = .next { s with hbm := { s.hbm with
        doubleRate := s.hbm.doubleRate &&& ~~~(BitVec.ofNat 8 (2 ^ k.toNat)) } }) ∧
    (∀ (l : Nat) (slot : BitVec 6), 64 * l + 64 ≤ 618475290624 → hbmTrained s (64 * l) 64 = true →
      let at_ := 64 * s.time.now + slot.toNat
      (burstFits s (nearLine s l) l at_ false = false →
        exec (.hubBurst (64 * l) slot .read) s = .next { s with held := s.held ++ [.burst (64 * l) .read] }) ∧
      (burstFits s (nearLine s l) l at_ false = true → s.hbm.dead = [] → s.hbm.weak = [] → Claims.noRanges s →
      ∃ t, exec (.hubBurst (64 * l) slot .read) s = .next t ∧ t.host.readData = smRead 0 (64 * l) 64 s.hbm.mem ∧
        t.host.readPoison = false ∧ t.hbm.mem = s.hbm.mem ∧ t.hbm.bursts.head? = some (at_, l, false)))

/-! ### Randomness (12) -/

/-- DRBG_INSTANTIATE overwrites the working state with zeros and is accepted; DRBG_FILL into a declared, sealed, outside-fed region
outside debug mode, and GENERATOR_FILL into HBM or into an outside-fed region that is not sealed, are accepted; a failed health test
of the entropy source leaves the error state and, with no fill in progress, nothing else (12 R251, R254 to R256). The model's choice:
what the work delivers stands from the DONE on (log entry 30); the error state blocks fills (log entry 24). -/
def Obligations.RandomnessCommandsRun : Prop :=
  ∀ (h : Hdr) (s : State),
    (docentUp s = true →
      exec (.drbgInstantiate h) s = .next (writeReply { s with drbg := { s.drbg with key := 0, v := 0 } }
        h 0x0700 (ansLong .drbgInstantiate))) ∧
    (∀ (g j flags noise : BitVec 8) (count q : Word), docentUp s = true → g.toNat < numGal s → j.toNat < 64 → flags.toNat < 4 →
      reservedRegion s j.toNat = false → noiseOk noise.toNat q.toNat = true → s.sec.debug = false → (rgnOf s g.toNat j.toNat).valid = true →
      (rgnOf s g.toNat j.toNat).isSealed = true → (rgnOf s g.toNat j.toNat).feed ≠ 0 → s.drbg.error = false →
      drbgDue s = true → count.toNat ≤ rgnWords (rgnOf s g.toNat j.toNat) →
      exec (.drbgFill h g j flags noise count q) s = .next (writeReply s h 0x0701
        (ansLong (.drbgFill g.toNat j.toNat (flags.getLsbD 1) (flags.getLsbD 0) noise.toNat q count.toNat)))) ∧
    (∀ (g j : BitVec 8) (flags : BitVec 8) (count : Word) (addr seed lidx : Quad), docentUp s = true → flags.toNat < 2 →
      (addr.toNat + 4 * count.toNat ≤ 618475290624 → count ≠ 0 → hbmUsable s addr.toNat (4 * count.toNat) = true →
        exec (.generatorFill h 1 flags g j count addr seed lidx) s = .next (writeReply s h 0x020C
          (ansLong (.generatorFill .hbm (flags.getLsbD 0) g.toNat j.toNat count.toNat addr.toNat seed lidx)))) ∧
      (declared s g.toNat j.toNat = true → reservedRegion s j.toNat = false → (rgnOf s g.toNat j.toNat).isSealed = false → (rgnOf s g.toNat j.toNat).feed ≠ 0 →
        count.toNat ≤ rgnWords (rgnOf s g.toNat j.toNat) →
        exec (.generatorFill h 2 flags g j count addr seed lidx) s = .next (writeReply s h 0x020C
          (ansLong (.generatorFill .cabinet (flags.getLsbD 0) g.toNat j.toNat count.toNat addr.toNat seed lidx))))) ∧
    (∀ rep, hubRuns s = true → (∀ w ∈ s.host.longWork, ∀ g j a b n q c, w.kind ≠ .drbgFill g j a b n q c) →
      exec (.esHealthFail rep) s = .next { s with drbg := { s.drbg with
        key := 0, v := 0, error := true, rctFails := if rep then bump8 s.drbg.rctFails else s.drbg.rctFails,
        aptFails := if rep then s.drbg.aptFails else bump8 s.drbg.aptFails } })

/-! ### Tours: loading and admission (02, 06, 10, 16) -/

/-- TOUR_UNLOAD of a loaded tour whose load is done takes it away; TOUR_QUERY answers its state, galleries and start tick, or zeros;
TOUR_LOAD_DONE of a load that passed its checks lets the tour count as loaded and answers its TOUR_ID, and one of a load that failed
takes the tour away (10 R213, 16 Table 16-6, R350, R351). The model's choice: the statuses and the fields of an answer (log entry 117), that
a completed tour is known until its banks are loaded again (log entry 62), and when a load fails (log entry 61). -/
def Obligations.TourCommandsRun : Prop :=
  ∀ (h : Hdr) (id : Quad) (s : State),
    (∀ t, docentUp s = true → tourOf s id = some t → t.state = .loaded → t.loading = false →
      exec (.tourUnload h id) s = .next (writeReply (dropTour t s) h 0x0301 ansOk) ∧
        tourOf (dropTour t s) id = .none ∧ ∀ k, k ≠ id → tourOf (dropTour t s) k = tourOf s k) ∧
    (∀ t code, docentUp s = true → tourOf s id = some t →
      code = (match t.state with | .loaded => 1 | .accepted => 2 | .running => 3 | .completed => 4) →
      exec (.tourQuery h id) s = .next (writeReply s h 0x0304
        (ansRes (leBytes 4 code ++ leBytes 4 t.mask.toNat ++ leBytes 8 t.start)))) ∧
    (docentUp s = true → tourOf s id = .none →
      exec (.tourQuery h id) s = .next (writeReply s h 0x0304 (ansRes (List.replicate 16 0)))) ∧
    (∀ (i : Nat) (w : LongWork) (t : Tour) (st : BitVec 16) (d : Word), s.host.longWork[i]? = some w →
      w.kind = .tourLoad id st d → s.tours.find? (fun x => x.tourId == id && x.loading) = some t →
      let u : State := { s with host := { s.host with longWork := s.host.longWork.eraseIdx i } }
      exec (.tourLoadDone i) s = .next (if st = stOk then
          writeDone (modTour u id (fun x => { x with loading := false })) w.hdr w.opcode (ansRes (leBytes 8 id.toNat))
        else writeDone (dropTour t u) w.hdr w.opcode { status := st, detail := d.toNat, result := [], work := .none }))

/-- TOUR_LOAD from host memory of a package that passes the manifest checks and has no binding, whose banks are free and whose TOUR_ID
no live tour bears, is accepted: the tour is loaded from its REPLY on, with its banks taken, and its DONE reports what the checks of the
package found (10 R211 to R213, 16 R351; log entry 61). Which entries the load locks is log entry 99. -/
def Obligations.TourLoadIsAccepted : Prop :=
  ∀ (h : Hdr) (addr : Quad) (n : Word) (s : State), docentUp s = true → s.host.busMaster = true → 64 ≤ n.toNat →
    let bs := hostGet s addr.toNat n.toNat
    let p := pkgOf bs
    let id : Quad := BitVec.ofNat 64 (pkTourId p.rd)
    checkManifest s p = .none → (pkBindings p.rd = 0 ∨ catExists s = true) → (∀ g ∈ p.gals, bankBusy s g = false) →
    (∀ t ∈ s.tours, tourLive t = true → t.tourId ≠ id) →
    ∃ t b, exec (.tourLoad h 0 addr n) s = .next (writeReply t h 0x0300 (ansLong b)) ∧
      (checkPackage s p = .none → b = .tourLoad id stOk 0) ∧
      (∀ c, checkPackage s p = some c → b = .tourLoad id c.st (BitVec.ofNat 32 c.detail)) ∧
      (∃ x, tourOf t id = some x ∧ x.state = .loaded ∧ x.loading = true) ∧ t.hostMem = s.hostMem ∧ t.vault = s.vault ∧
      t.time = s.time

/-- TOUR_SUBMIT of a loaded tour, also of one whose load is under way and will succeed, from a queue pair, without emergency, whose
walk gives outputs without a Restoration and for which Table 02-8 finds a start tick: the tour becomes accepted with its start and
deadline, its banks count as accepted, TOUR_LOG takes it up, and the REPLY carries OK, or DEFERRED when the start is later than
asked, with both ticks (02 R36 to R39, 06 R128, 19 R413). `r` is the state after the Registrar has read the bound entries, whose ECC
events count (14 R304; log entry 76). The model's choice: a load under way counts as loaded where it will succeed (log entry 61), the least
start that a checkpoint leaves (log entry 63), and which completed tours still hold galleries and power (log entry 127). -/
def Obligations.TourSubmitAccepts : Prop :=
  ∀ (h : Hdr) (q : BitVec 6) (id nb limit : Quad) (t : Tour) (ws : List WalkOut) (k : Nat) (v s : State), docentUp s = true →
    h.src = .qp q → tourOf s id = some t → s.power.emergency = false → t.state = .loaded →
    (t.loading = true → loadFails s id = false) →
    let r := readBound ((t.bindings.map (·.cat)).eraseDups) s
    walkWithRestores r t (t.bindings.length + 1) [] = .inr (ws, []) → poisonedUnused r t = false →
    findStart { t with walk := ws, waitFor := [] } nb.toNat limit.toNat r = (some k, v) →
    ∃ u, exec (.tourSubmit h id nb limit) s = .next (writeReply u h 0x0302
        { status := if k = max nb.toNat (s.time.now + 256) then stOk else stDeferred, detail := 0, work := .none,
          result := leBytes 8 k ++ leBytes 8 (k + t.budget + t.slack) }) ∧
      tourOf u id = some { t with walk := ws, waitFor := [], state := .accepted, hdr := h, opcode := 0x0302, start := k,
                                  deadline := k + t.budget + t.slack, endTick := k } ∧
      (∀ j, j ≠ id → tourOf u j = tourOf s j) ∧
      u.sec.tourLog = BitVec.ofNat 512 (leNat (sha512 (leBytes 64 s.sec.tourLog.toNat ++ sha512 t.package ++ leBytes 8 k))) ∧
      u.sec.tourCount = s.sec.tourCount + 1 ∧ (qpOf u q.toNat).tours = (qpOf s q.toNat).tours + 1 ∧
      (∀ g < 32, galOf u g = if t.mask.getLsbD g then modInactive (fun b => { b with status := .accepted }) (galOf s g) else galOf s g) ∧
      u.hostMem = s.hostMem ∧ u.hbm = r.hbm ∧ u.hbm.mem = s.hbm.mem ∧ u.vault = s.vault ∧ u.time = s.time

/-- RESTORE_SUBMIT from a queue pair, without emergency, with a Catalogue and every index and the policy in range: the Docent reads the
lookup table, and when no condition of Table 07-5 fails and the entries may be bound, it builds the tour; Table 02-8 gives its start tick
or NOT_READY, which leaves everything but free values and what the reads of the entries counted. An accepted one binds every gallery,
with the budget of Table 07-6 (07 R148, R149, R152). `a` is the state after those reads (log entry 76). The model's choice: the TOUR_ID of
the tour that the module builds (log entry 64), its power profile (log entry 65), what its stages cost and leave (log entry 55), and the
order of the refusals (log entry 146). -/
def Obligations.RestoreSubmitAnswers : Prop :=
  ∀ (h : Hdr) (p : BitVec 6) (input output lut kr kx kp : Word) (nb limit : Quad) (slotsLog outLimbs policy : BitVec 8) (s : State),
    docentUp s = true → h.src = .qp p → s.power.emergency = false → catExists s = true → policy.toNat ≤ 2 →
    (∀ i ∈ [input, output, lut, kr, kx, kp], i.toNat < 2 ^ 18) →
    let a := readBound ([input.toNat, output.toNat, lut.toNat, kr.toNat, kx.toNat, kp.toNat].eraseDups) s
    let r := if (catEnt a lut.toNat).space = 0 then docentRead (catEnt a lut.toNat).addr 128 a else ([], a)
    let v := r.2
    let l := (readLut r.1).getD (0, 0, [])
    let q : RestoreReq :=
      { input := input.toNat, output := output.toNat, keyR := kr.toNat, keyX := kx.toNat, keyP := kp.toNat,
        slotsLog := slotsLog.toNat, outLimbs := outLimbs.toNat, policy := policy.toNat, inBits := l.1, outBits := l.2.1, lut := l.2.2,
        lutIndex := some lut.toNat, autoIns := .none }
    restoreCheck v q = stOk → restoreBound v q = true →
    let b := buildRestore q v
    match (findStart b.1 nb.toNat limit.toNat b.2).1 with
    | .none => ∃ n, exec (.restoreSubmit h input output lut kr kx kp nb limit slotsLog outLimbs policy) s =
          .next (writeReply { v with freeCount := n } h 0x0303 (ansFail stNotReady)) ∧
        v.tours = s.tours ∧ v.gals = s.gals ∧ v.hbm.mem = s.hbm.mem ∧ v.hostMem = s.hostMem ∧ v.sec = s.sec
    | some k => ∃ u x, exec (.restoreSubmit h input output lut kr kx kp nb limit slotsLog outLimbs policy) s =
          .next (writeReply u h 0x0303
            { status := if k = max nb.toNat (s.time.now + 256) then stOk else stDeferred, detail := 0, work := .none,
              result := leBytes 8 k ++ leBytes 8 (k + restoreBudget v q) }) ∧
        tourOf u (builtId s) = some x ∧ x.state = .accepted ∧ x.start = k ∧ x.deadline = k + restoreBudget v q ∧
        x.mask = BitVec.ofNat 32 (2 ^ numGal s - 1) ∧ (∀ id, id ≠ builtId s → tourOf u id = tourOf s id) ∧
        u.sec.tourCount = s.sec.tourCount + 1 ∧ (qpOf u p.toNat).tours = (qpOf s p.toNat).tours + 1

/-! ### The running of tours (02, 10, 03) -/

/-- TOUR_START of an accepted tour at its start tick, once what it writes is staged for a checkpoint and the Restorations it waits
for have ended (`v`): every gallery of the tour exchanges its banks, the loaded image stands in the active one, the stations'
working state is cleared and BANK_SWAPS counts; under an emergency, with an island it uses not locked, or after a Restoration that
faulted, the tour ends instead, and one that has ended does not start (10 R214, R215; 02 R24; 07 R156; 08 R164; 20 R438; 18 R391).
The model's choice: the moment of that staging (log entry 63), the FAULT record of a tour that an emergency ends (log entry 111),
that of an island (log entry 97), that a stack's stream interface and the die bridge are islands a tour uses (log entry 100), and
that a Restoration starts with its counters at 0 (log entry 55). -/
def Obligations.ToursStart : Prop :=
  ∀ (id : Quad) (t : Tour) (s : State),
    let v := endAwaited id (stageFor id s)
    hubRuns v = true → tourOf v id = some t → t.state = .accepted → t.start = v.time.now →
    (t.status ≠ .none → exec (.tourStart id) s = .next v) ∧
    (t.status = .none → ∃ u, exec (.tourStart id) s = .next u ∧
      (v.power.emergency = false → awaitedFault v t = .none → lostIsland v t = .none →
        (∃ x, tourOf u id = some x ∧ x.state = .running ∧ x.status = .none ∧ x.start = t.start ∧ x.mask = t.mask) ∧
        ∀ g < 32, t.mask.getLsbD g = true →
          (galOf u g).active1 = !(galOf v g).active1 ∧ (galOf u g).work = Work.zero ∧ (galOf u g).run = .none ∧
          (galOf u g).relay = [] ∧ (galOf u g).inbox = [] ∧
          (galOf u g).regs.inStep = false ∧ (galOf u g).regs.stateClear = true ∧
          (galOf u g).regs.swaps = bump8 (galOf v g).regs.swaps ∧
          (insertedRestore t = false → activeBank (galOf u g) = { inactiveBank (galOf v g) with
            status := .active,
            counters := if t.restore.isSome then CounterSet.zero else (inactiveBank (galOf v g)).counters })) ∧
      (v.power.emergency = true →
        tourOf u id = some { t with status := some v.power.emergencyCode, faultAt := causeOnly 0, endTick := v.time.now,
                                    stopAt := v.time.now } ∧ u.gals = v.gals) ∧
      (v.power.emergency = false → ∀ st f tick, awaitedFault v t = some (st, f, tick) →
        tourOf u id = some { t with status := some st, faultAt := f, endTick := tick, stopAt := v.time.now } ∧ u.gals = v.gals) ∧
      (v.power.emergency = false → awaitedFault v t = .none → ∀ g, lostIsland v t = some g →
        (∃ x, tourOf u id = some x ∧ x.status = some stLateRelease ∧ x.faultAt.gallery = g ∧ x.faultAt.cause = 7 ∧
          x.stopAt = v.time.now) ∧ u.gals = v.gals))

/-- READINESS_SAMPLE: when one of the outside-fed places that the steps due in two ticks need is not ready, the tour slips by one tick,
charged to the need of the lowest owner and region, and the module's stall counter of that cause counts; when all are ready
nothing slips (02 R41, 13 R289, 21 R446). Galleries and memories stay. That a region which two steps need is charged once, to the lowest
gallery and region, is log entry 123. -/
def Obligations.ToursSlip : Prop :=
  ∀ (id : Quad) (t : Tour) (s : State), hubRuns s = true → tourOf s id = some t → tourAccepted t = true → tourAlive s t = true →
    let needs := (dueSteps s t (s.time.now + 2)).flatMap (fun d => stepNeeds s t d.1 d.2.1 d.2.2)
    let late := chargedNeed (needs.filter (fun n => !n.isReady))
    ∃ u x, exec (.readinessSample id) s = .next u ∧ tourOf u id = some x ∧ x.state = t.state ∧ x.start = t.start ∧
      (late = .none → x.slips = t.slips ∧ u.mon.stall = s.mon.stall) ∧
      (∀ n, late = some n → x.slips = vmod t.slips n.cause 0 (· + 1) ∧ u.mon.stall = vmod s.mon.stall n.cause 0 (bumpBy64 · 100)) ∧
      u.gals = s.gals ∧ u.hbm = s.hbm ∧ u.hostMem = s.hostMem ∧ u.dma = s.dma ∧ u.host = s.host

/-- STEP_LAUNCH of the step that is due: the gallery is in the step, the next index counts, the slack of each place it needed goes
to the capture units, and the step begins with nothing under way; launched inside a tick it runs up to the present cycle, at the
tick edge it has done nothing yet (the model's choice, log entry 13). A step that reads a poisoned region issues no word, ends its
tour with REGION_POISONED at step cycle 0 and counts (02 R29, 10 R226, 04 R95). What the sample of a slipped tour counts for is log
entry 123. -/
def Obligations.StepsLaunch : Prop :=
  ∀ (g : BitVec 5) (t : Tour) (i : Nat) (st : StepV) (s : State), runningOn s g.toNat = some t →
    nextStep s t g.toNat = some (i, st) → mayLaunch s t g.toNat = true →
    let rd := galImage s t g.toNat
    let x := mkCtx s g.toNat rd st
    let c := ((t.samples.filter (fun r => r.gallery == g.toNat && r.step == i && decide (r.region < 64))).filterMap (·.slack)).foldl
      (fun x v => captureFrom 0x40 v x) s
    let r : RunStep :=
      { tourId := t.tourId, index := i, launched := s.time.now, duration := st.dur, base := t.start + slipOf t, stopped := .none,
        engine := st.engine.map (engTicks s.time.now), secret := imageSealed s g.toNat rd, sign := s.fab.lockstep.enabled,
        pipe := Pipe.empty }
    let u := modTour (modGal c g.toNat (fun y => { y with
        regs := { y.regs with inStep := true, step := BitVec.ofNat 16 i }, winDue := y.winDue + windowSets x, run := some r }))
      t.tourId (fun y => { y with
        next := vset y.next g.toNat (i + 1), samples := y.samples.filter (fun w => !(w.gallery == g.toNat && w.step == i)),
        endTick := if y.status.isNone then max y.endTick (s.time.now + ceilDiv st.dur 100) else y.endTick })
    (readsPoisoned s x = false →
      exec (.stepLaunch g) s = .next (catchUp g.toNat u) ∧ (s.time.cycle = 0 → exec (.stepLaunch g) s = .next u)) ∧
    (readsPoisoned s x = true → t.status = .none → tourOf s t.tourId = some t → ∃ v y, exec (.stepLaunch g) s = .next v ∧
      tourOf v t.tourId = some y ∧ y.status = some stRegionPoisoned ∧ y.stopAt = s.time.now + 1 ∧ y.faultAt.stepCycle = 0 ∧
      (galOf v g.toNat).run = some { r with stopped := some stRegionPoisoned } ∧
      (galOf v g.toNat).cabRegs.poisonFaults = bump8 (galOf s g.toNat).cabRegs.poisonFaults ∧
      (galOf v g.toNat).cab = (galOf s g.toNat).cab)

/-- A tick with running steps: the module runs the tick's cycles of every gallery's step, and then its edge (02 R25, R47). In them a word
set under way goes on by itself to the station that it reaches, and the stations do what 05, 08 and 09 say. Transform keeps residues of
operands and twiddles below Q and faults on none. Multiply in RED form gives the products modulo Q and faults on none; of an integer pair
it gives the sums of products over the depth (05 R103; 08 R166). Accumulate keeps a modular row below 2^63 and congruent to the sum; a
narrow row is clamped under SAT and taken modulo 2^32 under WRAP; with the flag clear the word set stands in the row (05 R105, R106; 08
R169; 03 R59). Vector takes the residue, adds modulo Q, leaves invalid lanes 0, and its write-back stands in the tile register that its
generator names (09 R188). Outlet sends each valid word of a plain store to its address, and what lands where no other use is near stands
there, with every other word as it was (03 R60; 04 R80). The model's choice: the order of the work within a module cycle (log entry 13). -/
def Obligations.RunningStepsCompute : Prop :=
  (∀ s : State, s.pending = [] → s.held = [] → timeRuns s = true → s.time.cycle < 100 →
    let v := countWaits s
    let n := s.time.cycle
    lanesOfTick v ≠ [] →
    let r := moduleCycles (tickBursts v) (100 - n) (100 * s.time.now + n) (lanesOfTick v, v)
    let w := modTime (r.1.foldl (fun x l => putLane l x) r.2) (fun t => { t with cycle := 100 })
    step s = .next (timeExchange (monitorEdge (haltTours (modTime (w.tours.foldl (fun x t => restoreChecks t.tourId x) w) advanceTime))))) ∧
  (∀ (e : Exe) (cyc : Nat) (f : Flight) (m : Sim), m.fly = [f] → m.dels = [] → m.wbacks = [] → cxK e.c ≤ m.nA → cxK e.c ≤ m.nB →
    let r := advance e cyc f { m with fly := [] }
    stationCycle e cyc m = { r.2 with fly := r.1.toList }) ∧
  (∀ (e : Exe) (f : Flight) (m : Sim), e.c.g < 32 → f.ws.length = 256 → f.b.length = 256 → injectHit e m 0 = .none → injectHit e m 1 = .none →
      injectHit e m 2 = .none → injectHit e m 3 = .none →
    let x := cxEntry e.c f.k
    let tm := f.enter + cxLX e.c
    let tc := tm + cxLM e.c
    let tv := tc + cxLA e.c
    let entryOk := 2 ^ 29 < x.q ∧ x.q < 2 ^ 31 ∧ 2 ^ (x.k - 1) ≤ x.q ∧ x.q < 2 ^ x.k ∧ x.mu = 2 ^ (2 * x.k) / x.q
    (∀ b, cxBlk e.c f.k slX = some b → entryOk → (∀ j, e.tw j < x.q) → (∀ w ∈ f.ws, w < x.q) →
      ∃ f' m', advance e f.enter f m = (some f', m') ∧ (∀ w ∈ f'.ws, w < x.q) ∧ f'.b = f.b ∧ m'.faults = m.faults ∧ m'.s.gals = m.s.gals) ∧
    (∀ b, cxBlk e.c f.k slM = some b → cxModular e.c = true → mulWide b = false → entryOk → (∀ w ∈ f.ws, w < x.q) → (∀ w ∈ f.b, w < x.q) →
      ∃ f' m', advance e tm f m = (some f', m') ∧ (∀ l < 256, f'.ws.getD l 0 = f.ws.getD l 0 * f.b.getD l 0 % x.q) ∧
        m'.faults = m.faults ∧ m'.s.gals = m.s.gals) ∧
    (∀ b, cxBlk e.c f.k slM = some b → cxModular e.c = false → pairScaled (mulFmtA b) (mulFmtB b) = false →
      let plane := if cxVal e.c f.k slM false (mulCpGen b) % 2 = 0 then (galX e m).work.plane0 else (galX e m).work.plane1
      ∃ f' m', advance e tm f m = (some f', m') ∧ f'.fp = false ∧ ∀ l < 256, BitVec.ofNat 32 (f'.ws.getD l 0) = BitVec.ofInt 32
        (((List.range (narrowDepth (mulFmtA b))).map (fun i => depthElem (mulFmtA b) f.ws i *
          depthElem (mulFmtB b) (planeColumn (planeArray plane) l) i)).foldl (· + ·) 0)) ∧
    (∀ b, cxBlk e.c f.k slC = some b → otherView (galX e m).work (cxModular e.c) (cxVal e.c f.k slC true (accRowGen b)).toNat = false →
      SmWf 0 (galX e m).work.accM → SmWf 0 (galX e m).work.accN →
      let row := (cxVal e.c f.k slC true (accRowGen b)).toNat
      let old := fun (l : Nat) => (accRow (galX e m).work (cxModular e.c) row).getD l 0
      ∃ f' m', advance e tc f m = (some f', m') ∧
        (∀ l < 256, f'.ws.getD l 0 = (accRow (galX e m').work (cxModular e.c) row).getD l 0) ∧
        (accFlag b = false → ∀ l < 256, f'.ws.getD l 0 = f.ws.getD l 0 % (if cxModular e.c then 2 ^ 64 else 2 ^ 32)) ∧
        (accFlag b = true → cxModular e.c = true → (imgModEnt e.c.rd (cxModTab e.c) (cxLimb e.c f.k)).isSome = true →
          2 ^ 29 < x.q → x.q < 2 ^ 31 → x.fold = 2 ^ 63 % x.q → ∀ l < 256, old l < 2 ^ 63 → f.ws.getD l 0 < 2 ^ 62 →
          f'.ws.getD l 0 < 2 ^ 63 ∧ f'.ws.getD l 0 % x.q = (old l + f.ws.getD l 0) % x.q) ∧
        (accFlag b = true → cxModular e.c = false → f.fp = false → ∀ l < 256,
          let sum := (BitVec.ofNat 32 (old l)).toInt + (BitVec.ofNat 32 (f.ws.getD l 0)).toInt
          BitVec.ofNat 32 (f'.ws.getD l 0) = BitVec.ofInt 32 (if accWrap b then sum else max (-2 ^ 31) (min (2 ^ 31 - 1) sum)))) ∧
    (∀ b, cxBlk e.c f.k slV = some b → vecTranspose b = false → vecX b = 0 → (vecOp b = 1 ∨ (vecOp b = 2 ∧ vecY b = 1)) →
      ∃ f' m', advance e tv f m = (some f', m') ∧ f'.fp = false ∧ ∀ l < 256,
        (laneValid e.c f.k b l = false → f'.ws.getD l 0 = 0 ∧ f'.valid.getD l true = false) ∧
        (laneValid e.c f.k b l = true → f'.valid.getD l false = true ∧
          (vecOp b = 1 → f'.ws.getD l 0 = f.ws.getD l 0 % x.q) ∧
          (vecOp b = 2 → x.q < 2 ^ 31 → f.ws.getD l 0 < x.q → f.b.getD l 0 < x.q →
            f'.ws.getD l 0 = (f.ws.getD l 0 + f.b.getD l 0) % x.q))) ∧
    (∀ b, cxBlk e.c f.k slO = some b → storesCab b = true → outNarrows b = false → ∃ m', advance e (tv + cxLV e.c) f m = (.none, m') ∧
      ∀ l pa, l ≤ outLanes b → l < 256 → f.valid.getD l false = true → cxStoreAddr e.c f.k b l = some pa →
        ∃ d ∈ m'.lands, d.dest = .cab (outDgal b) false ∧ (pa, f.ws.getD l 0 % 2 ^ 32) ∈ d.words ∧
          tv + cxLV e.c + (if outDest b = 1 then relOf e.c.per e.c.g (outDgal b) else 3) ≤ d.cycle)) ∧
  (∀ (e : Exe) (w : WBack) (m : Sim), e.c.g < 32 → vecRacc w.b = false → vecWb w.b = 1 → w.ws.length = 256 → w.valid.length = 256 →
    SmWf 0 (galX e m).work.tiles →
    let i := (cxVal e.c w.k slV false (vecWbGen w.b)).toNat
    let m' := doWriteBack e w m
    (∀ l < 256, (tileReg (galX e m').work i).getD l 0 = if w.valid.getD l false then w.ws.getD l 0 % 2 ^ 32 else 0) ∧
      (∀ j, j ≠ i → tileReg (galX e m').work j = tileReg (galX e m).work j) ∧
      (galX e m').work.accM = (galX e m).work.accM ∧ (galX e m').work.accN = (galX e m).work.accN) ∧
  (∀ (e : Exe) (d : Land) (owner : Nat) (engine : Bool) (m : Sim), d.dest = .cab owner engine → owner < 32 → m.s.useLog = [] →
    (d.words.map (·.1)).Nodup → SmWf 0 (galOf m.s owner).cab →
    let m' := doLand e d m
    (∀ p ∈ d.words, cabWord m'.s owner p.1 = BitVec.ofNat 32 p.2) ∧
      (∀ g a, g ≠ owner ∨ a ∉ d.words.map (·.1) → cabWord m'.s g a = cabWord m.s g a))

/-- STEP_END of a step that has run to its end: the gallery leaves the step, READY of the regions of its REL_MASK falls, and no
word of a cabinet or of device memory changes (10 R226). -/
def Obligations.StepsEnd : Prop :=
  ∀ (g : BitVec 5) (r : RunStep) (s : State), (galOf s g.toNat).run = some r → stepDone s g.toNat s.time.now = true →
    ∃ u, exec (.stepEnd g) s = .next u ∧ (galOf u g.toNat).run = .none ∧ (galOf u g.toNat).regs.inStep = false ∧
      (galOf u g.toNat).winDue = 0 ∧
      (∀ j < 64, bitAt (imgStep (fetchedImage s g.toNat) r.index).relMask j = true → (rgnOf u g.toNat j).ready = false) ∧
      (∀ k, (galOf u k).cab = (galOf s k).cab) ∧ u.hbm = s.hbm ∧ u.tours = s.tours ∧ u.hostMem = s.hostMem ∧ u.time = s.time

/-- TOUR_OVERRUN and HOLD_LIMIT_EXCEEDED: a tour with a gallery inside a step at its budget's end, and one that slipped more than
its hold limit (2^24 ticks when HOLD_LIMIT is 0), ends at this tick with its status and FAULT; its galleries stop, which changes
gallery state alone, and every region that a step not yet completed writes is poisoned with DEADLINE_MISSED at the hold limit (02
R31, R42, 04 R94). Losses: an island that loses its lock reads unlocked, a gallery's clock is gated with it, and a running tour that
uses it ends with LATE_RELEASE at the next tick edge; with the hub's island, behind which no tick edge follows, the running and the
accepted tours end at once; a lost flit is counted and remembered, and words on their way into the die are lost; after four within 1 ms
the bridge retrains, both directions down, and comes back at the end of the training; a late arrival is counted, and ends the tour that
runs on the gallery, or is missed by its step's next release (02 R24, R33, R34; 03 R67). The model's choice: which crossing a late arrival
was (log entry 96), the place of a FAULT without a stated cycle (log entry 97), what the other endings poison (log entry 98), the islands
counted (log entry 100), which crossings a lost flit takes (log entry 122), and the loss of the hub's island (log entry 134). -/
def Obligations.ToursEndEarly : Prop :=
  (∀ (id : Quad) (t : Tour) (s : State), hubRuns s = true → tourOf s id = some t → t.status = .none →
      (∀ (g : Nat) (r : RunStep), t.state = .running → t.restore = .none → tourBase t + t.budget ≤ s.time.now → g < 32 → t.mask.getLsbD g = true →
        (∀ k < g, t.mask.getLsbD k = true → ∀ e, (galOf s k).run = some e → e.tourId = id → runEnds e ≤ s.time.now) →
        (galOf s g).run = some r → r.tourId = id →
        s.time.now < runEnds r →
        ∃ u, exec (.tourOverrun id) s = .next u ∧
          tourOf u id = some { t with
            status := some stTourOverrun, endTick := s.time.now, stopAt := s.time.now, halted := true,
            faultAt := { step := r.index, gallery := g, station := 7, cause := 0, stepCycle := 100 * (s.time.now - r.launched) } } ∧
          (∀ k, k ≠ id → tourOf u k = tourOf s k) ∧ u = { s with tours := u.tours, gals := u.gals }) ∧
      (tourAccepted t = true → (if t.hold = 0 then 2 ^ 24 else t.hold) < slipOf t →
        ∃ u, exec (.holdLimitExceeded id) s = .next u ∧
          (∃ m, tourOf u id = some { t with status := some stDeadlineMissed, faultAt := causeOnly 5, endTick := s.time.now,
                                            stopAt := s.time.now, halted := true, missed := m }) ∧
          (∀ k, k ≠ id → tourOf u k = tourOf s k) ∧ u = { s with tours := u.tours, gals := u.gals } ∧
          (∀ g, t.halted = false → maskList t.mask = [g] → (galOf s g).run = .none →
            ∀ p ∈ writesFrom s t g (vget t.next g 0), (rgnOf s p.1 p.2).valid = true →
              (rgnOf u p.1 p.2).poisoned = true ∧ (rgnOf u p.1 p.2).poisonCode = stDeadlineMissed))) ∧
  (∀ s : State,
      (∀ i : BitVec 6, hubRuns s = true → i.toNat < 43 → s.time.islandLock.getLsbD i.toNat = true →
        ∃ u, exec (.islandLockLoss i) s = .next u ∧
          u.time = { s.time with islandLock := s.time.islandLock &&& ~~~((1 : Quad) <<< i.toNat) } ∧
          (i.toNat < 32 → (galOf u i.toNat).regs.clockOn = false) ∧
          (i.toNat ≠ 42 → ∀ g, g ≠ i.toNat → (galOf u g).regs = (galOf s g).regs) ∧
          (∀ id t, tourOf s id = some t → t.status = .none → usesIsland s t i.toNat = true →
            (t.state = .running ∧ tourOver s t = false) ∨ (t.state = .accepted ∧ i.toNat = 42) →
            ∃ x, tourOf u id = some x ∧ x.status = some stLateRelease ∧
              x.stopAt = if i.toNat = 42 then s.time.now else s.time.now + 1) ∧
          u.hbm = s.hbm ∧ u.hostMem = s.hostMem) ∧
      (∀ dir10 cs, (if dir10 then s.bridge.dir10Up else s.bridge.dir01Up) = true →
        ∃ u, exec (.bridgeFlitLoss dir10 cs) s = .next u ∧ u.bridge = { s.bridge with
          flitLosses := bump8 s.bridge.flitLosses, lossTicks := s.time.now :: recentLosses s.time.now s.bridge.lossTicks } ∧
          (∀ g < numGal s, dieOf s g = (if dir10 then 0 else 1) → ∀ w ∈ (galOf u g).inbox,
            stackDie (stackOf w.addr) ≠ (if dir10 then 0 else 1) → w.lost = true)) ∧
      (∀ cs, s.bridge.retraining = false → 4 ≤ (recentLosses s.time.now s.bridge.lossTicks).length →
        ∃ u, exec (.bridgeRetrain cs) s = .next u ∧ u.bridge = { s.bridge with
          retrains := bump8 s.bridge.retrains, retraining := true, dir10Up := false, dir01Up := false, lossTicks := [],
          startTick := s.time.now } ∧ u.health.taps.tr = s.health.taps.tr + 1) ∧
      (s.bridge.retraining = true → exec .bridgeRetrainDone s = .next { s with bridge := { s.bridge with
        retraining := false, dir10Up := true, dir01Up := true } }) ∧
      (∀ g : BitVec 5, g.toNat < numGal s → (galOf s g.toNat).regs.clockOn = true →
        ∃ u, exec (.lateArrivalDiscard g) s = .next u ∧
          (galOf u g.toNat).regs.lateArrivals = bump8 (galOf s g.toNat).regs.lateArrivals ∧
          (runningOn s g.toNat = .none → u.tours = s.tours ∧ (galOf u g.toNat).late = (galOf s g.toNat).late) ∧
          (∀ t, runningOn s g.toNat = some t → tourOf s t.tourId = some t → t.status = .none → tourOver s t = false →
            s.time.cycle < 100 →
            ((galOf u g.toNat).late = true ∧ (galOf s g.toNat).run.isSome = true ∧ u.tours = s.tours) ∨
            (∃ x, tourOf u t.tourId = some x ∧ x.status = some stLateRelease ∧ x.stopAt = s.time.now + 1 ∧
              x.faultAt.gallery = g.toNat ∧ 1 ≤ x.faultAt.cause ∧ x.faultAt.cause ≤ 5)) ∧
          (∀ k, k ≠ g.toNat → (galOf u k).regs = (galOf s k).regs) ∧ u.hbm = s.hbm ∧ u.hostMem = s.hostMem))

/-- TOUR_END of a tour whose steps have ended, or whose galleries have stopped, outside lock-step: the tour is completed and holds no
claim and no lock, and its queue pair has one accepted tour less (16 R355; 10 R213). `v` is the state after the steps that
end at this tick. The model's choice: how long a completed tour is known (log entry 62), and which outputs an ending poisons (log entry
118); what a Restoration stores is log entry 55. -/
def Obligations.ToursComplete : Prop :=
  ∀ (id : Quad) (t : Tour) (q : BitVec 6) (s : State), hubRuns s = true → tourOf s id = some t → s.fab.lockstep.enabled = false →
    t.hdr.src = .qp q →
    let v := (maskList t.mask).foldl (fun x g => settleStep g x) s
    tourEnded v t = true →
    ∃ u x, exec (.tourEnd id) s = .next u ∧ tourOf u id = some x ∧ x.state = .completed ∧ x.claims = [] ∧ x.locked = [] ∧
      x.start = t.start ∧ x.mask = t.mask ∧ (qpOf u q.toNat).tours = (qpOf s q.toNat).tours - 1 ∧
      u.time = s.time ∧ (t.restore = .none → u.vault.map = s.vault.map) ∧ u.flash = s.flash ∧ u.fuses = s.fuses

/-! ### The DMA engine (13) and the hub port (04) -/

/-- The registers of the driver's channels: TAIL, CTRL without and with ABORT, CREDIT_ADD, the engine's RESUME, and requests on a
line that exists. A write of CTRL takes VECTOR and IRQ_EN, takes RING_LOG and CQ_LOG while ENABLE is 0, and restarts the indices
when ENABLE is set after a ring change; ABORT clears ENABLE and lets a descriptor in progress issue no further burst
(13 R269, R270, R273, R274, R281, R286; Tables 13-8, 13-9). The model's choice: a request of a fabric line also tells of one burst's
link credits (log entry 94), logs beyond the range are held (log entry 90), what the driver wrote comes with the doorbell (log entry 4), and
ENABLE cleared without ABORT lets a descriptor run on (log entry 116). -/
def Obligations.DmaRegistersAct : Prop :=
  ∀ (ch : BitVec 6) (v : Word) (s : State), hubRuns s = true → ch.toNat < 56 →
    let c := chanOf s ch.toNat
    let logs : Bool := BitVec.ofNat 5 (fieldAt v.toNat 16 5) != c.cqLog || BitVec.ofNat 5 (fieldAt v.toNat 8 5) != c.ringLog
    (∀ ws, exec (.dmaDoorbell ch v ws) s =
      .next (modChan (hostPutAll s ws) ch.toNat (fun x => { x with tail := BitVec.ofNat 16 v.toNat }))) ∧
    (v.getLsbD 2 = false → ∃ u, exec (.dmaChEnable ch v) s = .next u ∧
      (∀ k, k ≠ ch.toNat → chanOf u k = chanOf s k) ∧ u = { s with dma := { s.dma with chans := u.dma.chans } } ∧
      (chanOf u ch.toNat).enable = v.getLsbD 0 ∧ (chanOf u ch.toNat).irqEn = v.getLsbD 1 ∧
      (chanOf u ch.toNat).vector = BitVec.ofNat 6 (fieldAt v.toNat 24 6) ∧ (chanOf u ch.toNat).cur = c.cur ∧
      (c.enable = true → (chanOf u ch.toNat).cqLog = c.cqLog ∧ (chanOf u ch.toNat).ringLog = c.ringLog ∧
        (chanOf u ch.toNat).head = c.head ∧ (chanOf u ch.toNat).cqTail = c.cqTail) ∧
      (c.enable = false → (chanOf u ch.toNat).cqLog = BitVec.ofNat 5 (fieldAt v.toNat 16 5) ∧
        (chanOf u ch.toNat).ringLog = BitVec.ofNat 5 (fieldAt v.toNat 8 5) ∧
        (v.getLsbD 0 = true → (c.ringChange || logs) = true → (chanOf u ch.toNat).head = 0 ∧ (chanOf u ch.toNat).tail = 0 ∧
          (chanOf u ch.toNat).cqTail = 0 ∧ (chanOf u ch.toNat).phase = true) ∧
        (v.getLsbD 0 = true → (c.ringChange || logs) = false → (chanOf u ch.toNat).head = c.head ∧
          (chanOf u ch.toNat).tail = c.tail ∧ (chanOf u ch.toNat).cqTail = c.cqTail ∧ (chanOf u ch.toNat).phase = c.phase))) ∧
    (v.getLsbD 2 = true → ∃ u, exec (.dmaAbort ch v) s = .next u ∧ (chanOf u ch.toNat).enable = false ∧
      (chanOf u ch.toNat).cur = c.cur.map (fun p => { p with aborted := true }) ∧
      (chanOf u ch.toNat).completions = c.completions ∧ (∀ k, k ≠ ch.toNat → chanOf u k = chanOf s k) ∧
      u = { s with dma := { s.dma with chans := u.dma.chans } }) ∧
    exec (.creditAdd ch v) s = .next (modChan s ch.toNat (fun x => { x with
      credit := BitVec.ofNat 24 (min 0xFFFFFF (c.credit.toNat + v.toNat % 2 ^ 24)) })) ∧
    (v.getLsbD 0 = true → exec (.engineResume v) s = .next { s with dma := { s.dma with stopped := false } }) ∧
    (∀ (line : BitVec 8) (n : Nat), line ≠ 0 → line.toNat ≤ 0x10 ∨ (0x20 ≤ line.toNat ∧ line.toNat < 0x20 + numGal s) →
      exec (.dmaRequest line n) s = .next { s with dma := { s.dma with
        lines := smSet 0 line.toNat (smGet 0 line.toNat s.dma.lines + n) s.dma.lines } }) ∧
    (∀ (line : BitVec 8) (n : Nat), 0x11 ≤ line.toNat → line.toNat ≤ 0x18 → ∃ u, exec (.dmaRequest line n) s = .next u ∧
      u.dma = { s.dma with lines := smSet 0 line.toNat (smGet 0 line.toNat s.dma.lines + n) s.dma.lines } ∧
      portOf u (line.toNat - 0x11) = { portOf s (line.toNat - 0x11) with credits := (portOf s (line.toNat - 0x11)).credits + n } ∧
      (∀ k, k ≠ line.toNat - 0x11 → portOf u k = portOf s k) ∧ u.gals = s.gals ∧ u.hbm = s.hbm ∧ u.hostMem = s.hostMem)

/-- A channel that may fetch takes the descriptor at HEAD: one that passes Table 13-3 is in progress from then on, with LOADING set by
CAT_LOAD; one that fails has a record with its status and RESIDUE its LENGTH, and HEAD, CQ_TAIL and the counters step on
(13 R271, R272, R275, Table 13-6). DMA_COPY takes copies, DMA_REDUCE reduces. `v` is the state after the read of the descriptor. The
model's choice: when a channel may fetch (log entry 49), AUX fields (log entry 48), and that one refused never started (log entry 50). -/
def Obligations.DescriptorsAreFetched : Prop :=
  ∀ (ch : BitVec 6) (s : State), mayFetch s ch.toNat = true →
    let c := chanOf s ch.toNat
    let bs := (descBytes s ch.toNat).1
    let v := (descBytes s ch.toNat).2
    let d := descOf bs
    let run := if d.reduce then exec (.dmaReduce ch) s else exec (.dmaCopy ch) s
    (descCheck v ch.toNat bs = stOk →
      let p : Progress :=
        { desc := d, index := c.head.toNat, written := 0, waits := 0, lastWait := .none, status := stOk, ended := false,
          vread := .none, serial := s.dma.started, held := false, aborted := false }
      let t := modChan v ch.toNat (fun x => { x with cur := some p })
      let u := { t with dma := { t.dma with started := s.dma.started + 1 } }
      run = .next (if d.catLoad then modEnt d.catIndex (fun e => { e with loading := true }) u else u)) ∧
    (descCheck v ch.toNat bs ≠ stOk → ∃ u, run = .next u ∧
      (chanOf u ch.toNat).cur = .none ∧ (chanOf u ch.toNat).completions = bump8 c.completions ∧
      (chanOf u ch.toNat).errors = bump8 c.errors ∧
      (chanOf u ch.toNat).head = BitVec.ofNat 16 ((c.head.toNat + 1) % ringSize c.ringLog) ∧
      (c.cqLoc = false → u.hbm = v.hbm ∧ hostGet u (64 * c.cqAddr.toNat + 32 * c.cqTail.toNat) 32 =
        leBytes 8 s.time.now ++ leBytes 4 d.tag.toNat ++ leBytes 2 c.head.toNat ++
          [BitVec.ofNat 8 ch.toNat, BitVec.ofNat 8 (bit01 c.phase)] ++ leBytes 2 (descCheck v ch.toNat bs).toNat ++ leBytes 2 0 ++
          leBytes 4 d.length ++ leBytes 4 0 ++ leBytes 4 0) ∧
      (∀ k, k ≠ ch.toNat → chanOf u k = chanOf s k) ∧ u.tours = s.tours ∧ u.vault = s.vault)

/-- DMA_BURST from host memory, when nothing is waited for: to host memory and to a cabinet region the bytes arrive in place, up to
the next multiple of the burst size, and no other byte or word changes; while a request, a credit or READY is waited for, the
tick counts once and nothing moves. At a cabinet region the burst takes the hub's turns at the bank ports, one word a port and cycle (`q`:
the module runs on until they are free), or is held there with nothing of it done; a region that no longer takes it ends the descriptor
(13 R273 to R277; 04 R70, R81, R82). The model's choice: what happens to a region that was released or declared anew meanwhile (log entry
135), how words of a burst follow one another (log entries 14, 92), and that a burst which finds no turn is tried again (log entry 137). -/
def Obligations.BurstsMoveTheirBytes : Prop :=
  ∀ (ch : BitVec 6) (ack : BurstAck) (p : Progress) (s : State), hubRuns s = true → s.dma.stopped = false →
    (chanOf s ch.toNat).cur = some p → p.ended = false → p.aborted = false → p.written < p.desc.length → p.desc.src = .host →
    let d := p.desc
    let n := min (2 ^ d.burstLog - (d.dstAddr + p.written) % 2 ^ d.burstLog) (d.length - p.written)
    let bs := hostGet s (d.srcAddr + p.written) n
    let done : Progress :=
      { p with held := false, written := p.written + n, status := stOk, ended := decide (d.length ≤ p.written + n) }
    (burstWaits s (chanOf s ch.toNat) p = true → exec (.dmaBurst ch ack) s = .next (modChan s ch.toNat (fun c =>
      { c with cur := some (if p.lastWait = some s.time.now then p
          else { p with waits := p.waits + 1, lastWait := some s.time.now }) }))) ∧
    (burstWaits s (chanOf s ch.toNat) p = false → d.dst = .host → d.reqLine = 0 → d.credit = false → ∃ u,
      exec (.dmaBurst ch ack) s = .next u ∧ hostGet u (d.dstAddr + p.written) n = bs ∧
      (∀ a, a < d.dstAddr + p.written ∨ d.dstAddr + p.written + n ≤ a → smGet 0 a u.hostMem = smGet 0 a s.hostMem) ∧
      (chanOf u ch.toNat).cur = some done ∧ u.hbm = s.hbm ∧ u.gals = s.gals ∧ u.vault = s.vault ∧ u.dma.lines = s.dma.lines) ∧
    (burstWaits s (chanOf s ch.toNat) p = false → d.dst = .cabinet → (galOf s (auxGal d.dstAux)).regs.clockOn = true →
      n % 4 = 0 → d.reqLine = 0 → d.credit = false →
      let g := auxGal d.dstAux
      let w := rgnBase (cabRgn s d.dstAux) + (d.dstAddr + p.written) / 4
      let q := hubPut g p.held ((List.range (n / 4)).map (fun i => (w + i, bytesAt bs (4 * i) 4))) s
      (burstRefusal s p ≠ stOk → exec (.dmaBurst ch ack) s = .next (modChan s ch.toNat (fun c =>
        { c with cur := some { p with status := burstRefusal s p, ended := true } }))) ∧
      (burstRefusal s p = stOk → q.1 = false → exec (.dmaBurst ch ack) s = .next (modChan s ch.toNat (fun c =>
        { c with cur := some { p with held := true } }))) ∧
      (burstRefusal s p = stOk → q.1 = true → ∃ u, exec (.dmaBurst ch ack) s = .next u ∧ u.gals = q.2.gals ∧
        (chanOf u ch.toNat).cur = some done ∧ u.hbm = q.2.hbm ∧ u.hostMem = q.2.hostMem ∧ u.time = q.2.time) ∧
      (anyStep s = false → filling s = false → q.1 = true ∧
        (∀ i < n / 4, cabWord q.2 g (w + i) = BitVec.ofNat 32 (bytesAt bs (4 * i) 4)) ∧
        (∀ pa, pa < w ∨ w + n / 4 ≤ pa → cabWord q.2 g pa = cabWord s g pa) ∧ (∀ k, k ≠ g → galOf q.2 k = galOf s k) ∧
        q.2.hbm = s.hbm ∧ q.2.hostMem = s.hostMem ∧ q.2.time = s.time))

/-- DMA_COMPLETION of a descriptor whose every byte has been written, but for a Vault destination: the record leaves the channel
free, HEAD, CQ_TAIL and COMPLETIONS step on, and SET_READY makes the destination region ready; one that was aborted, without an error of
its own, leaves a record with DMA_ABORTED and counts as an error (13 R275, R279, R281, R282; 04 R96). That an aborted descriptor's record
says so also when every byte was written is log entry 91. -/
def Obligations.DescriptorsComplete : Prop :=
  ∀ (ch : BitVec 6) (p : Progress) (s : State), hubRuns s = true → s.dma.stopped = false → (chanOf s ch.toNat).cur = some p →
    let c := chanOf s ch.toNat
    let t := (c.cqTail.toNat + 1) % ringSize c.cqLog
    (p.aborted = false → p.ended = true → p.status = stOk → p.written = p.desc.length → p.desc.dst ≠ .vault → p.desc.reduce = false →
      ∃ u, exec (.dmaCompletion ch) s = .next u ∧
        (chanOf u ch.toNat).cur = .none ∧ (chanOf u ch.toNat).completions = bump8 c.completions ∧
        (chanOf u ch.toNat).errors = c.errors ∧ (chanOf u ch.toNat).cqTail = BitVec.ofNat 16 t ∧
        (chanOf u ch.toNat).phase = (if t = 0 then !c.phase else c.phase) ∧
        (chanOf u ch.toNat).head = BitVec.ofNat 16 ((p.index + 1) % ringSize c.ringLog) ∧
        (∀ k, k ≠ ch.toNat → chanOf u k = chanOf s k) ∧
        (p.desc.dst = .cabinet → p.desc.setReady = true → (cabRgn s p.desc.dstAux).valid = true →
          (cabRgn u p.desc.dstAux).ready = true) ∧
        (p.desc.dst ≠ .cabinet → u.gals = s.gals) ∧ u.tours = s.tours) ∧
    (p.aborted = true → p.ended = false ∨ p.status = stOk → ∃ u, exec (.dmaCompletion ch) s = .next u ∧
      (chanOf u ch.toNat).cur = .none ∧ (chanOf u ch.toNat).completions = bump8 c.completions ∧
      (chanOf u ch.toNat).errors = bump8 c.errors ∧
      (c.cqLoc = false → hostGet u (64 * c.cqAddr.toNat + 32 * c.cqTail.toNat + 16) 2 = leBytes 2 stDmaAborted.toNat) ∧
      (∀ k, k ≠ ch.toNat → chanOf u k = chanOf s k) ∧ u.tours = s.tours)

/-- ENGINE_STOP: the engine records the failing address and interface unless a record is held, and in every case counts the error, sets
STOPPED and raises its vector, which its enable and MSI-X let through or its mask keeps pending; every descriptor in progress has ended (13
R284). -/
def Obligations.TheEngineStops : Prop :=
  ∀ (iface : BusIface) (addr : Quad) (s : State), hubRuns s = true → ∃ u, exec (.engineStop iface addr) s = .next u ∧
    u.dma.stopped = true ∧ u.dma.busErrors = bump8 s.dma.busErrors ∧ u.dma.errValid = true ∧
    (s.dma.errValid = false → u.dma.errIface = (match iface with | .cxl => 1 | .hbm => 2 | .vault => 3 | .fabric => 4) ∧
      u.dma.errAddr = addr) ∧
    (s.dma.errValid = true → u.dma.errIface = s.dma.errIface ∧ u.dma.errAddr = s.dma.errAddr) ∧
    (s.host.irq.engineEn = true → s.host.msixEnable = true →
      if vectorMasked s s.host.irq.engineVec.toNat then u.host.msixPending.getLsbD s.host.irq.engineVec.toNat = true
      else s.host.irq.engineVec ∈ u.host.raised) ∧
    (∀ k < 64, (chanOf u k).cur = .none) ∧ u.tours = s.tours ∧ u.time = s.time

/-- HUB_PORT_ACCESS of a word, in its turn at the bank port (`rd`, `wr`: the module runs on until the port is free): a read answers the
word, or zeros for a word of a sealed region, with a refusal counted; a write lands in an outside-fed region whose READY is 0, answers
ADDRESS_RANGE elsewhere, and waits while READY is 1; no other word changes. What finds no free port in this tick is held. With no step
running and no fill the port is free at once (04 R81, R82, R90; 10 R226). The model's choice: a held access has done nothing (log entry
137), one that READY holds is performed in a tick that runs (log entry 80), and what HUB_DEFERS counts (log entry 92); the cycle that the
row names is log entry 14. -/
def Obligations.HubPortServesWords : Prop :=
  ∀ (g : BitVec 5) (pa cycle : Nat) (w : Word) (s : State), hubRuns s = true → g.toNat < numGal s →
    (galOf s g.toNat).regs.clockOn = true →
    let v := if anyStep s then runTo (min 100 (cycle + 1)) s else s
    let r := (rgnAt v g.toNat pa).map (rgnOf v g.toNat)
    let rd := hubTurn g.toNat false false [pa] v
    let wr := hubTurn g.toNat true false [pa] v
    let still := fun (x u : State) => (∀ k a, cabWord u k a = cabWord x k a) ∧ u.hbm = x.hbm ∧ u.hostMem = x.hostMem
    (anyStep s = false → v = s ∧ (filling s = false → rd = (true, s) ∧ wr = (true, s))) ∧
    ((∃ x, r = some x ∧ x.isSealed = true) → ∃ u, exec (.hubPortAccess g pa cycle .read) s = .next u ∧
      u.host.readData = leBytes 4 0 ∧ still v u ∧
      (galOf u g.toNat).cabRegs.sealedRefusals = bump8 (galOf v g.toNat).cabRegs.sealedRefusals) ∧
    ((∀ x, r = some x → x.isSealed = false) →
      (rd.1 = false → exec (.hubPortAccess g pa cycle .read) s =
        .next { v with held := v.held ++ [.word g.toNat pa .read true] }) ∧
      (rd.1 = true → ∃ u, exec (.hubPortAccess g pa cycle .read) s = .next u ∧ still rd.2 u ∧
        u.host.readData = leBytes 4 ((hubWords rd.2 g.toNat [pa]).headD 0) ∧
        (anyStep s = false → filling s = false → s.time.cycle = 0 → u.host.readData = leBytes 4 (cabWord s g.toNat pa).toNat))) ∧
    ((∀ x, r = some x → x.feed = 0) → ∃ u, exec (.hubPortAccess g pa cycle (.write w)) s = .next u ∧ still v u ∧
      u.host.readData = leBytes 2 stAddressRange.toNat) ∧
    (∀ x, r = some x → x.feed ≠ 0 →
      (x.ready = true → exec (.hubPortAccess g pa cycle (.write w)) s =
        .next { v with held := v.held ++ [.word g.toNat pa (.write w) false] }) ∧
      (x.ready = false → wr.1 = false → exec (.hubPortAccess g pa cycle (.write w)) s =
        .next { v with held := v.held ++ [.word g.toNat pa (.write w) true] }) ∧
      (x.ready = false → wr.1 = true → ∃ u, exec (.hubPortAccess g pa cycle (.write w)) s = .next u ∧
        cabWord u g.toNat pa = w ∧ (∀ k a, (k, a) ≠ (g.toNat, pa) → cabWord u k a = cabWord wr.2 k a) ∧
        u.hbm = wr.2.hbm ∧ u.hostMem = wr.2.hostMem ∧ u.host = wr.2.host))

/-! ### The Vault (15) -/

/-- The commands of the Vault run where Table 15-5 lets them: VAULT_OPEN begins to rebuild the map, VAULT_CLOSE with nothing of the
Vault in progress and EXTENT_RELEASE of extents that exist are accepted, EXTENT_QUERY writes the map entries to HBM and no other
byte, VAULT_SANITIZE overwrites both keys before its reply, after which no data can be read and every slot in use counts as lost
(R327, R328), PATROL_SET takes both parameters. The model's choice: when work stands (log entry 30), what a Vault that is being sanitized
reads as (log entry 52), that a closed one reports no extent (log entry 87), and the wrapped form of the keys (log entry 149). -/
def Obligations.VaultCommandsRun : Prop :=
  ∀ (h : Hdr) (first count : Word) (addr : Quad) (s : State), docentUp s = true →
    exec (.vaultOpen h) s = .next (writeReply
      (if s.vault.isOpen then s else { s with vault := { s.vault with rebuilding := true } }) h 0x0410 (ansLong .vaultOpen)) ∧
    (vaultNamed s = false → exec (.vaultClose h) s = .next (writeReply s h 0x0411 (ansLong .vaultClose))) ∧
    (0 < count.toNat → first.toNat + count.toNat ≤ 1048576 → vaultDue s = true → s.vault.readOnly = false →
      exec (.extentRelease h first count) s = .next (writeReply s h 0x0412 (ansLong (.extentRelease first.toNat count.toNat)))) ∧
    (0 < count.toNat → count.toNat ≤ 64 → first.toNat + count.toNat ≤ 1048576 → addr.toNat + 8 * count.toNat ≤ 618475290624 →
      hbmUsable s addr.toNat (8 * count.toNat) = true → s.hbm.dead = [] → s.hbm.weak = [] → Claims.noRanges s →
      ∃ u, exec (.extentQuery h first count addr) s = .next (writeReply u h 0x0413 ansOk) ∧
        (∀ i < count.toNat, hbmNat u (addr.toNat + 8 * i) 8 = mapWord (mapOf s (first.toNat + i)) % 2 ^ 64) ∧
        (∀ a, a < addr.toNat ∨ addr.toNat + 8 * count.toNat ≤ a → smGet 0 a u.hbm.mem = smGet 0 a s.hbm.mem) ∧
        u.vault = s.vault ∧ u.gals = s.gals ∧ u.hostMem = s.hostMem ∧ u.tours = s.tours) ∧
    (anyLive s = false → (∀ k < 64, (chanOf s k).cur = .none) → s.health.stage = .idle → vaultOpenNow s = true →
      s.vault.readOnly = false → ∃ u, exec (.vaultSanitize h) s = .next (writeReply u h 0x0414 (ansLong .vaultSanitize)) ∧
        u.vault.sanitizing = true ∧ u.vault.openKeys = (drbgDraw 128 s).1 ∧ u.vault.medium.keys = wrapKeys (drbgDraw 128 s).1 ∧
          u.vault.medium.data = [] ∧
        (∀ e, (mapOf s e).state ≠ .free → (mapOf s e).slot.toNat ∈ u.vault.medium.lost) ∧ u.vault.map = s.vault.map ∧
        u.hbm = s.hbm ∧ u.hostMem = s.hostMem ∧ u.gals = s.gals) ∧
    (∀ enable threshold : BitVec 8, enable.toNat ≤ 1 → threshold.toNat ≤ 144 →
      exec (.patrolSet h enable threshold) s = .next (writeReply
        { s with vault := { s.vault with patrolEn := enable == 1, threshold := threshold } } h 0x0415 ansOk))

/-- The events of the medium: the first programmed write of an extent that is the next of its descriptor commits, with a new journal
sequence and 8 MiB counted, and what lives in other slots stays; a failed program retires its stripe; a patrol read clears the extent
from the open pass, marks it DAMAGED or notes its relocation when its corrected bits exceed THRESHOLD; a relocation that the patrol has
noted, or that wear asks for, moves its extent, is dropped when the extent has moved on, and counts when the patrol had noted it; a read
in progress holds the erase of its stripe; the open pass ends once every extent was patrolled or is written no longer (15 R317 to R319,
R321, R329 to R331, R334, R335). The model's choice: which slot is picked and when stale stripes are erased (log entry 81), the order of
commits (log entry 121), what keeps a lost slot (log entry 52), and which stripes extents use (log entry 143). -/
def Obligations.VaultEventsAct : Prop :=
  ∀ (e : BitVec 20) (s : State),
    (readHolds s e.toNat = true → exec (.extentCommit e) s = .next s) ∧
    (∀ w, nextCommit s e.toNat = some w → readHolds s e.toNat = false → ∃ u, exec (.extentCommit e) s = .next u ∧
      (mapOf u e.toNat).state = .written ∧ (mapOf u e.toNat).isSealed = w.isSealed ∧
      u.vault.medium.bytesWritten = s.vault.medium.bytesWritten + 8388608 ∧ u.hbm = s.hbm ∧ u.gals = s.gals ∧
      ((∀ x ∈ staleSlots s e.toNat, x.2 = false) →
        mapOf u e.toNat = { seq := s.vault.medium.seq + 1, isSealed := w.isSealed, state := .written,
                            slot := BitVec.ofNat 21 w.slot } ∧
        (∀ k, k ≠ e.toNat → mapOf u k = mapOf s k) ∧ u.vault.inFlight = s.vault.inFlight.erase w ∧
        (∀ a, slotLive u (a / 8388608) = true → smGet 0 a u.vault.medium.data = smGet 0 a s.vault.medium.data))) ∧
    (∀ w, s.vault.inFlight.find? (fun w => w.extent == e.toNat) = some w → stripeRead s (w.slot / 32) = false →
      ∃ u, exec (.programFail e) s = .next u ∧
      u.vault.progFails = bump8 s.vault.progFails ∧ u.vault.medium.retired = w.slot / 32 :: s.vault.medium.retired ∧
      u.vault.medium.goodStripes = s.vault.medium.goodStripes - 1 ∧
      (u.vault.medium.goodStripes < 32960 → u.vault.readOnly = true) ∧ u.hbm = s.hbm ∧ u.gals = s.gals) ∧
    (∀ bits bad, s.vault.isOpen = true → s.vault.patrolEn = true ∨ s.vault.openPass = true →
      (mapOf s e.toNat).state = .written ∨ (mapOf s e.toNat).state = .damaged →
      ∃ u, exec (.patrolRead e bits bad) s = .next u ∧ u.vault.passLeft = s.vault.passLeft.filter (· ≠ e.toNat) ∧
        (bad = true → (mapOf u e.toNat).state = .damaged ∧ u.vault.uncorrectable = bump8 s.vault.uncorrectable ∧
          u.health.taps.uc = s.health.taps.uc + 1 ∧ ∀ k, k ≠ e.toNat → mapOf u k = mapOf s k) ∧
        (bad = false → u.vault.map = s.vault.map ∧ u.vault.relocs =
          (if s.vault.threshold.toNat < bits then (e.toNat, (mapOf s e.toNat).slot.toNat) :: s.vault.relocs else s.vault.relocs)) ∧
        u.vault.medium.data = s.vault.medium.data ∧ u.hbm = s.hbm ∧ u.gals = s.gals) ∧
    (∀ copied : BitVec 21, s.vault.isOpen = true →
      let x := mapOf s e.toNat
      let rest := { s with vault := { s.vault with relocs := s.vault.relocs.filter (· ≠ (e.toNat, copied.toNat)) } }
      let due := s.vault.relocs.contains (e.toNat, copied.toNat) = true ∨ 200 < wearSpread s.vault.medium
      (¬ due ∨ readHolds s e.toNat = true → exec (.extentRelocate e copied) s = .next s) ∧
      (due → readHolds s e.toNat = false → x.slot ≠ copied ∨ x.state = .free ∨ x.state = .conflict →
        exec (.extentRelocate e copied) s = .next rest) ∧
      (due → readHolds s e.toNat = false → x.slot = copied → x.state = .written ∨ x.state = .damaged →
        ∃ u, exec (.extentRelocate e copied) s = .next u ∧ (mapOf u e.toNat).state = x.state ∧
          (mapOf u e.toNat).isSealed = x.isSealed ∧
          u.vault.relocations = (if s.vault.relocs.contains (e.toNat, copied.toNat) then bump8 s.vault.relocations
            else s.vault.relocations) ∧ u.vault.relocs = rest.vault.relocs ∧ u.hbm = s.hbm ∧ u.gals = s.gals ∧
          (x.isSealed = false → (mapOf u e.toNat).seq = s.vault.medium.seq + 1 ∧ ∀ k, k ≠ e.toNat → mapOf u k = mapOf s k))) ∧
    (s.vault.isOpen = true → (∀ k ∈ s.vault.passLeft, patrolled (mapOf s k) = false) →
      exec .openPassDone s = .next { s with vault := { s.vault with openPass := false } })

/-! ### The fabric (17), time domains (02) and party groups (12) -/

/-- The fabric's commands: PORTS_ENABLE and LOCKSTEP_SET that nothing refuses are accepted; TIME_JOIN and TIME_LEAVE while no tour
is accepted enter and leave a domain; WINDOW_OPEN that no row of Table 17-1 refuses opens the window at the epoch in force and
WINDOW_CLOSE closes one; GROUP_FORM of a free slot outside debug mode is accepted with the identity keys it read, GROUP_DISSOLVE
empties a slot but for its counters, GROUP_REGION registers and removes a region (17 R361, R368, R369, R373, R376, R378; 18 R399; 12
R263, R265, R266). The model's choice: what the work delivers stands from the DONE on (log entry 30), the refusals that no rule names (log
entries 66, 102), PORTS_ENABLE disables none (log entry 103), when a first message disciplines (log entry 68), and the layout of the
identity keys (log entry 136). -/
def Obligations.FabricCommandsRun : Prop :=
  ∀ (h : Hdr) (s : State), docentUp s = true →
    (∀ ports, exec (.portsEnable h ports) s = .next (writeReply s h 0x0500 (ansLong (.portsEnable ports)))) ∧
    (∀ (domain : Word) (root : BitVec 16), root.toNat < 2 ^ 14 → anyAccepted s = false →
      let isRoot := decide (root.toNat = s.fab.module.toNat)
      exec (.timeJoin h domain root) s = .next (writeReply { s with time := { s.time with
        domain := domain, root := BitVec.ofNat 14 root.toNat, isRoot := isRoot, joined := true, disciplined := isRoot,
        aligned := isRoot, holdover := false, offset := 0, lastMessage := s.time.now,
        lastExchange := s.time.now } }
        h 0x0501 (ansLong (.timeJoin domain root.toNat)))) ∧
    (anyAccepted s = false → exec (.timeLeave h) s = .next (writeReply { s with time := { s.time with
        domain := 0, root := 0, isRoot := false, joined := false, disciplined := false, aligned := false, holdover := false,
        offset := 0 } } h 0x0502 ansOk)) ∧
    (∀ (w access : BitVec 8) (remote : BitVec 16) (kind g j : BitVec 8) (addr len : Quad) (peer : Peer),
      windowCheck w.toNat access.toNat remote.toNat kind.toNat g.toNat j.toNat addr.toNat len.toNat peer s = stOk →
      ∃ u, exec (.windowOpen h w access remote kind g j addr len peer) s = .next (writeReply u h 0x0503 ansOk) ∧
        (winOf u w.toNat).isOpen = true ∧ (winOf u w.toNat).remote = BitVec.ofNat 14 remote.toNat ∧
        (winOf u w.toNat).access = BitVec.ofNat 2 access.toNat ∧ (winOf u w.toNat).reduce = access.getLsbD 2 ∧
        (winOf u w.toNat).cabinet = decide (kind = 2) ∧ (winOf u w.toNat).addr = addr.toNat ∧
        (winOf u w.toNat).length = len.toNat ∧ (winOf u w.toNat).epoch = s.health.epoch ∧
        (∀ k, k ≠ w.toNat → winOf u k = winOf s k) ∧ u = { s with fab := { s.fab with windows := u.fab.windows } }) ∧
    (∀ w : BitVec 8, w.toNat < 64 → (winOf s w.toNat).isOpen = true →
      exec (.windowClose h w) s = .next (writeReply (modWin s w.toNat (fun _ => LoanWindow.closed)) h 0x0504 ansOk)) ∧
    (∀ (id : Word) (slot self parties : BitVec 8) (members : BitVec 48) (a : Quad), slot.toNat < 4 →
      parties = 2 ∨ parties = 3 → self.toNat < parties.toNat →
      (∀ i < parties.toNat, fieldAt members.toNat (16 * i) 16 < 2 ^ 14) → s.sec.debug = false →
      (groupOf s slot.toNat).formed = false → s.host.busMaster = true →
      exec (.groupForm h id slot self parties members a) s = .next (writeReply s h 0x0505
        (ansLong (.groupForm slot.toNat id self.toNat parties.toNat members
          ((List.range parties.toNat).map (fun i => hostGet s (a.toNat + 133 * i) 133)))))) ∧
    (∀ slot : BitVec 8, slot.toNat < 4 → (groupOf s slot.toNat).formed = true →
      exec (.groupDissolve h slot) s = .next (writeReply (modGroup s slot.toNat (fun g =>
        { Group.empty with authFails := g.authFails, openings := g.openings })) h 0x0506 ansOk)) ∧
    (∀ slot g j : BitVec 8, slot.toNat < 4 → declared s g.toNat j.toNat = true → (rgnOf s g.toNat j.toNat).isSealed = false →
      (rgnOf s g.toNat j.toNat).feed = 3 → (groupOf s slot.toNat).formed = true → regionNamed s g.toNat j.toNat = false →
      (∀ k < 4, k ≠ slot.toNat → (g.toNat, j.toNat) ∉ (groupOf s k).regions) →
      exec (.groupRegionRegister h slot g j) s = .next (writeReply (modGroup s slot.toNat (fun x =>
        { x with regions := (g.toNat, j.toNat) :: x.regions.filter (· ≠ (g.toNat, j.toNat)) })) h 0x0508 ansOk) ∧
      exec (.groupRegionRemove h slot g j) s = .next (writeReply (modGroup s slot.toNat (fun x =>
        { x with regions := x.regions.filter (· ≠ (g.toNat, j.toNat)) })) h 0x0508 ansOk)) ∧
    (∀ (partner : BitVec 16) (enable : BitVec 8) (peer : Peer), lockstepCheck partner.toNat enable.toNat peer s = stOk →
      exec (.lockstepSet h partner enable peer) s = .next (writeReply
        { s with fab := { s.fab with lockstep := { s.fab.lockstep with partnerLost := false } } }
        h 0x0507 (ansLong (.lockstepSet partner.toNat (enable == 1)))))

/-- What the links bring: a frame counts or, with a bad tag, is a retry, sixteen within 1 ms retrain the link with new keys; new
link keys restart both frame counters; a port that loses its partner is down, one that keeps two or three of its lanes retrains at two; a
key agreement that fails leaves the port down and counts in AUTH_FAILS; an announced window is held (17 R360 to R363, R368). Time messages
of the module's domain, at a port that is up: the first disciplines module time and sets it to the root's tick at the next edge, each one
takes its offset less half the round trip, and ALIGNED says whether that lies within 2 ns; 1,024 ticks without one lead to holdover
(02 R43 to R46; 17 R376). The model's choice: the form of offers and keys (log entries 33, 136), the announcements held (log entry 104),
which first message counts (log entry 68), and the range and rounding of OFFSET (log entry 138). -/
def Obligations.LinksAct : Prop :=
  (∀ s : State,
      (∀ (k : BitVec 3) (o : KeyOffer), hubRuns s = true → (portOf s k.toNat).up = true →
        let agrees := o.chainOk && offeredKeyOk o
        ((portOf s k.toNat).frameRx + 1 < 2 ^ 32 →
          exec (.frameReceive k .verified) s = .next (modPort s k.toNat (fun p => { p with frameRx := p.frameRx + 1 })) ∧
          ∃ u, exec (.frameReceive k (.failed o)) s = .next u ∧ (portOf u k.toNat).retries = bump8 (portOf s k.toNat).retries ∧
            u.health.taps.rt = s.health.taps.rt + 1 ∧
            (15 ≤ (recentTags s.time.now (portOf s k.toNat).tagFails).length →
              (portOf u k.toNat).retrains = bump8 (portOf s k.toNat).retrains ∧ (portOf u k.toNat).frameRx = 0 ∧
                (portOf u k.toNat).tagFails = [] ∧ (portOf u k.toNat).up = agrees) ∧
            ((recentTags s.time.now (portOf s k.toNat).tagFails).length < 15 →
              (portOf u k.toNat).retrains = (portOf s k.toNat).retrains ∧ (portOf u k.toNat).frameRx = (portOf s k.toNat).frameRx) ∧
            (∀ j, j ≠ k.toNat → portOf u j = portOf s j) ∧ u.gals = s.gals ∧ u.hbm = s.hbm) ∧
        (∃ u, exec (.linkRekey k o) s = .next u ∧ (portOf u k.toNat).up = agrees ∧ (portOf u k.toNat).frameRx = 0 ∧
          (portOf u k.toNat).frameTx = 0 ∧ (∀ j, j ≠ k.toNat → portOf u j = portOf s j) ∧
          (agrees = true → (portOf u k.toNat).keyEpoch = (portOf s k.toNat).keyEpoch + 1 ∧
            (portOf u k.toNat).authFails = (portOf s k.toNat).authFails) ∧
          (agrees = false → (portOf u k.toNat).keyed = false ∧ (portOf u k.toNat).sendKey = 0 ∧ (portOf u k.toNat).recvKey = 0 ∧
            (portOf u k.toNat).authFails = bump8 (portOf s k.toNat).authFails)) ∧
        (∀ lanes < 2, exec (.fabricPortDown k ⟨lanes, o⟩) s = .next (modPort s k.toNat portDown)) ∧
        (∀ lanes, 2 ≤ lanes → lanes ≤ 3 → ∃ u, exec (.fabricPortDown k ⟨lanes, o⟩) s = .next u ∧ (portOf u k.toNat).up = agrees ∧
          (portOf u k.toNat).retrains = bump8 (portOf s k.toNat).retrains ∧
          (agrees = true → (portOf u k.toNat).lanes = 1) ∧
          (agrees = false → (portOf u k.toNat).authFails = bump8 (portOf s k.toNat).authFails))) ∧
      (∀ (owner : BitVec 14) (w : BitVec 6) (access : BitVec 2) (len : Nat) (reduce : Bool), docentUp s = true → anyPortUp s = true →
        (s.fab.announced.filter (fun x => !(x.owner == owner && x.window == w))).length < 1024 →
        let others := s.fab.announced.filter (fun x => !(x.owner == owner && x.window == w))
        let new : Announced := { owner := owner, window := w, access := access, length := len, reduce := reduce }
        exec (.windowAnnounce owner w access len reduce) s = .next { s with fab := { s.fab with announced := new :: others } })) ∧
  (∀ s : State, hubRuns s = true →
      (∀ (domain : Word) (root trip : Nat) (measured : BitVec 16), anyPortUp s = true → s.time.joined = true →
        s.time.isRoot = false → s.time.domain = domain → s.time.disciplined = true ∨ anyAccepted s = false →
        let o := BitVec.ofInt 16 (max (-32768) (min 32767 (measured.toInt - (trip / 2 : Nat))))
        ∃ u, exec (.timeMessage domain root ⟨measured, trip⟩) s = .next u ∧
          u.time.offset = o ∧ u.time.aligned = (decide (-8 ≤ o.toInt) && decide (o.toInt ≤ 8)) ∧ u.time.holdover = false ∧
          u.time.disciplined = true ∧ u.time.lastMessage = s.time.now ∧ u.time.now = s.time.now ∧
          -20000 ≤ u.time.steering ∧ u.time.steering ≤ 20000 ∧
          u.time.pendingSet = (if s.time.disciplined then s.time.pendingSet else some (root + trip / 2 / 160)) ∧ u.gals = s.gals ∧
            u.tours = s.tours) ∧
      (s.time.disciplined = true → s.time.isRoot = false → s.time.holdover = false → s.time.lastMessage + 1024 ≤ s.time.now →
        exec .timeHoldover s = .next { s with time := { s.time with holdover := true, aligned := false } }))

/-- PACKET_ARRIVAL: a packet that no open window of this module takes is answered FABRIC_UNREACHABLE and counted, one of another epoch
STALE_EPOCH; one that READY, a gated clock or the stack's slots keep waiting is held; a write into an HBM window without REDUCE that is
none of these lands, when no line has an error, at the window's place and nowhere else; a read answers the bytes there (17 R370, R371,
R375; 18 R399; 10 R226; 14 R301).
PACKET_FORWARD by the route entry's port, which carries packets, as a frame with one hop more; a packet without a valid route, or that
arrives with a hop count of 64, is dropped and HOP_DROPS advances (17 R364 to R366). The model's choice: the hub slots of the present tick
and of the next are tried (log entry 42), a packet behind a held one of its window is held (log entry 137), a region that changed under an
open window is judged as it stands (log entry 135), and the nonce of a frame (log entry 136). -/
def Obligations.PacketsTravel : Prop :=
  (∀ (p : Packet) (s : State), hubRuns s = true → anyPortUp s = true → p.dst = s.fab.module → p.hops ≠ 64 →
      let w := winOf s p.window.toNat
      (packetFits w p = false → exec (.packetArrival p) s = .next { s with fab := { s.fab with
        refused := bump8 s.fab.refused, answered := (p.src, stUnreachable, []) :: s.fab.answered } }) ∧
      (packetFits w p = true → p.epoch ≠ w.epoch → exec (.packetArrival p) s = .next { s with fab := { s.fab with
        stale := bump8 s.fab.stale, answered := (p.src, stStaleEpoch, []) :: s.fab.answered } }) ∧
      (packetFits w p = true → p.epoch = w.epoch → s.held.any (goesBefore (.packet p w false)) = true ∨
          (packetRefusal s w p = stOk ∧ (packetHeld s w p.kind = true ∨ (w.cabinet = false ∧ packetSlots s w p = .none))) →
        exec (.packetArrival p) s = .next { s with held := s.held ++ [.packet p w false] }) ∧
      (packetFits w p = true → p.epoch = w.epoch → w.cabinet = false → w.reduce = false → (packetSlots s w p).isSome = true →
        s.held.any (goesBefore (.packet p w false)) = false → s.hbm.dead = [] → s.hbm.weak = [] → Claims.noRanges s →
        (∀ n, p.kind = .read n → ∃ u, exec (.packetArrival p) s = .next u ∧
          u.fab.answered = (p.src, stOk, smRead 0 (w.addr + p.offset) n s.hbm.mem) :: s.fab.answered ∧ u.hbm.mem = s.hbm.mem ∧
          u.gals = s.gals) ∧
        (∀ bs serial len rdy, p.kind = .write bs serial len rdy → ∃ u, exec (.packetArrival p) s = .next u ∧
          u.fab.answered = (p.src, stOk, []) :: s.fab.answered ∧ smRead 0 (w.addr + p.offset) bs.length u.hbm.mem = bs ∧
          (∀ a, a < w.addr + p.offset ∨ w.addr + p.offset + bs.length ≤ a → smGet 0 a u.hbm.mem = smGet 0 a s.hbm.mem) ∧
          u.gals = s.gals ∧ u.hostMem = s.hostMem))) ∧
  (∀ (p : Packet) (s : State), hubRuns s = true → anyPortUp s = true → p.dst = s.fab.module → p.hops = 64 →
      exec (.packetArrival p) s = .next { s with fab := { s.fab with hopDrops := bump8 s.fab.hopDrops } }) ∧
  (∀ (p : Packet) (s : State), hubRuns s = true → anyPortUp s = true → p.dst ≠ s.fab.module →
      let r := routeOf s p.dst.toNat
      (p.hops = 64 → exec (.packetForward p) s = .next { s with fab := { s.fab with hopDrops := bump8 s.fab.hopDrops } }) ∧
      (p.hops ≠ 64 → r.valid = false →
        exec (.packetForward p) s = .next { s with fab := { s.fab with hopDrops := bump8 s.fab.hopDrops } }) ∧
      (∀ k, p.hops ≠ 64 → r.valid = true → (if adaptiveOn s then bestPort s r.minimal else some r.dport.toNat) = some k →
        portCarries s k = true → ∃ u, exec (.packetForward p) s = .next u ∧
          u.fab.sent = { port := BitVec.ofNat 3 k, nonce := frameNonce k (portOf s k).frameTx,
                         packet := { p with hops := p.hops + 1 } } :: s.fab.sent ∧
          (k < 8 → (portOf u k).frameTx = (portOf s k).frameTx + 1) ∧ (∀ j, j ≠ k → portOf u j = portOf s j) ∧
          u = { s with fab := { s.fab with sent := u.fab.sent, ports := u.fab.ports } }))

/-- OPENING_MESSAGE of a formed group, at a port that is up and with none of its group held: one that passes the checks of R265 and that
its region can take lands at its offset, in its turns at the bank ports (`q`), advances the expected sequence number, counts, and makes
the region ready, or is held; any other fails the group and poisons the region it names (12 R264, R265; 04 R81, R94; 10 R226). The model's
choice: words past the end of the region land nowhere, and the region of a discarded message is poisoned whoever registered it (log entry
67); openings of one group keep their order, and a held one has done nothing (log entry 137); a region declared anew (log entry 135). -/
def Obligations.OpeningsArrive : Prop :=
  ∀ (m : Opening) (k : Nat) (s : State), hubRuns s = true → anyPortUp s = true →
    s.held.any (goesBefore (.opening m false)) = false →
    (List.range 4).find? (fun i => (groupOf s i).formed && (groupOf s i).groupId == m.groupId) = some k →
    let g := m.gallery.toNat
    let r := rgnOf s g m.region.toNat
    let q := hubPut g false (openingWords s m) s
    (openingPasses s k m = true → hubCanWrite s g m.region.toNat = true → q.1 = true → ∃ u, exec (.openingMessage m) s = .next u ∧
      (rgnOf u g m.region.toNat).ready = true ∧ (groupOf u k).openings = bump8 (groupOf q.2 k).openings ∧
      (groupOf u k).expectSeq = (groupOf q.2 k).expectSeq.set m.sender.toNat (m.seq + 1) ∧
      (∀ x, (galOf u x).cab = (galOf q.2 x).cab) ∧ u.hbm = q.2.hbm ∧ u.hostMem = q.2.hostMem ∧ u.tours = q.2.tours) ∧
    (anyStep s = false → filling s = false → q.1 = true ∧ q.2.fab = s.fab ∧ q.2.hbm = s.hbm ∧ q.2.tours = s.tours ∧
      (∀ i, i < (m.data.flatMap id).length → m.offset / 4 + i < rgnWords r →
        cabWord q.2 g (rgnBase r + m.offset / 4 + i) = (m.data.flatMap id).getD i 0) ∧
      (∀ pa, pa < rgnBase r + m.offset / 4 ∨ rgnBase r + rgnWords r ≤ pa → cabWord q.2 g pa = cabWord s g pa) ∧
      (∀ x, x ≠ g → galOf q.2 x = galOf s x)) ∧
    (openingPasses s k m = true → hubCanWrite s g m.region.toNat = true → q.1 = false →
      exec (.openingMessage m) s = .next { s with held := s.held ++ [.opening m true] }) ∧
    (openingPasses s k m = true → hubCanWrite s g m.region.toNat = false →
      exec (.openingMessage m) s = .next { s with held := s.held ++ [.opening m false] }) ∧
    (openingPasses s k m = false → ∃ u, exec (.openingMessage m) s = .next u ∧ (groupOf u k).failed = true ∧
      (groupOf u k).authFails = bump8 (groupOf s k).authFails ∧
      (r.valid = true → (rgnOf u g m.region.toNat).poisoned = true ∧ (rgnOf u g m.region.toNat).poisonCode = stAuthFail) ∧
      (∀ x, (galOf u x).cab = (galOf s x).cab) ∧ u.hbm = s.hbm ∧ u.hostMem = s.hostMem)

/-- Lock-step: the next window of a running tour that has passed is compared when the partner's summary comes in at a port that is up,
and one whose Outlet signatures or TOUR_ID differ counts as a divergence of the tour; the tour's end is written once every window has been
compared; a partner whose summary is missing is lost, and lock-step ends with it (17 R361, R380 to R383). `v` is the state after the steps
that end at this tick. The model's choice: the last window of a tour, and which tours a lost partner ends (log entry 69); the place of a
divergence of TOUR_IDs alone (log entry 70). -/
def Obligations.LockStepCompares : Prop :=
  ∀ s : State, hubRuns s = true → s.fab.lockstep.enabled = true →
    (∀ id t rt remote, anyPortUp s = true → tourOf s id = some t → tourAccepted t = true → t.restore = .none →
      let v := (maskList t.mask).foldl (fun x g => settleStep g x) s
      windowPassed v t t.compared = true →
      ∃ u x, exec (.lockstepSummary id t.compared rt remote) s = .next u ∧ tourOf u id = some x ∧ x.compared = t.compared + 1 ∧
        (summariesDiffer s t t.compared remote = true ∨ rt ≠ id → u.fab.lockstep.divergences = bump8 s.fab.lockstep.divergences ∧
          u.fab.lockstep.divValid = true ∧ u.fab.lockstep.diverged.any (fun d => d.1 == id) = true) ∧
        (summariesDiffer s t t.compared remote = false → rt = id → u.fab = s.fab) ∧ u.gals = v.gals ∧ u.hbm = s.hbm) ∧
    (∀ id t, tourOf s id = some t →
      let v := (maskList t.mask).foldl (fun x g => settleStep g x) s
      tourEnded v t = true → tourWindows t ≤ t.compared → ∃ u x, exec (.lockstepComplete id) s = .next u ∧ tourOf u id = some x ∧
        x.state = .completed ∧ x.claims = [] ∧ x.locked = []) ∧
    (s.tours.any (summaryMissing s) = true → ∃ u, exec .partnerLost s = .next u ∧ u.fab.lockstep.partnerLost = true ∧
      u.fab.lockstep.enabled = false)

/-! ### Checkpoints, restores and migration (18) -/

/-- Checkpoints go their way: CHECKPOINT_TAKE that no row of Table 18-2 refuses waits for its cut; at the cut the sections are fixed, and
the cut of a portable checkpoint that met accepted tours is a tick at which none runs any longer; an object or the Catalogue is staged
byte for byte; with nothing left to stage the checkpoint drains; a drain that the Vault has room for counts COMPLETED, one whose
partner is lost counts FAILED, and one with a partner ends as one or the other (18 R390 to R394, Table 18-2). The model's choice: the
rows' ticks and a portable checkpoint's waiting (log entry 63), the sections' layout and the partner's writes (log entry 71), and that a
write of the Docent stands at once (log entry 30). -/
def Obligations.CheckpointsRun : Prop :=
  ∀ (h : Hdr) (s : State), docentUp s = true →
    (∀ (kind scope target window : BitVec 8) (first : Word) (peer : Peer),
      ckptCheck kind scope target window.toNat first.toNat peer.answers s = stOk →
      let j : CkptJob :=
        { hdr := some h, kind := kind, scope := scope, target := target, window := window, first := first.toNat,
          before := (s.tours.filter tourAccepted).map (·.tourId), base := 0, todo := [], image := .none }
      exec (.checkpointTake h kind scope target window first peer) s = .next (writeReply
        { s with health := { s.health with stage := .waitingCut, cut := cutTick s scope, job := some j } }
        h 0x0600 (ansLong .checkpointTake))) ∧
    (∀ j, s.health.job = some j → s.health.stage = .waitingCut → s.health.cut ≤ s.time.now →
      j.kind.getLsbD 0 = false ∨ anyAccepted s = false → ∃ m, m.sections = (layoutNow s j.scope).1 ∧
      exec .checkpointStage s = .next { s with health := { s.health with
        cut := if j.kind.getLsbD 0 && !j.before.isEmpty then max s.health.cut s.time.now else s.health.cut, stage := .staging,
        job := some { j with base := s.cat.base, todo := (layoutNow s j.scope).1, image := some m } } }) ∧
    (∀ j, s.health.job = some j → s.health.stage = .staging → j.todo = [] →
      exec .checkpointStage s = .next { s with health := { s.health with stage := .draining } }) ∧
    (∀ j x rest, s.health.job = some j → s.health.stage = .staging → j.todo = x :: rest → (∀ g r, x.item ≠ .region g r) →
      writerPending s x.item = false → s.hbm.dead = [] → s.hbm.weak = [] → Claims.noRanges s →
      let at_ := stageBase s + x.offset
      ∃ u, exec .checkpointStage s = .next u ∧ u.health.job = some { j with todo := rest } ∧
        smRead 0 at_ x.length u.hbm.mem = smRead 0 x.addr x.length s.hbm.mem ∧
        (∀ a, a < at_ ∨ at_ + x.length ≤ a → smGet 0 a u.hbm.mem = smGet 0 a s.hbm.mem) ∧ u.gals = s.gals ∧
        u.vault = s.vault ∧ u.tours = s.tours) ∧
    (∀ j m, s.health.job = some j → j.image = some m → s.health.stage = .draining →
      (j.target = 1 → ∃ u, exec (.checkpointDrainDone true) s = .next u ∧ u.health.failed = bump8 s.health.failed ∧
        u.health.stage = .idle ∧ u.health.job = .none ∧ u.gals = s.gals ∧ u.tours = s.tours) ∧
      (j.target = 1 → ∃ u, exec (.checkpointDrainDone false) s = .next u ∧ u.health.stage = .idle ∧ u.health.job = .none ∧
        ((u.health.completed = bump8 s.health.completed ∧ u.health.failed = s.health.failed) ∨
          (u.health.failed = bump8 s.health.failed ∧ u.health.completed = s.health.completed))) ∧
      (j.target ≠ 1 → vaultOpenNow s = true → s.vault.readOnly = false → 32960 ≤ s.vault.medium.goodStripes →
        s.vault.medium.bytesWritten + 8388608 * imageExtents m.sections < 44 * 10 ^ 15 →
        ∃ u, exec (.checkpointDrainDone false) s = .next u ∧ u.health.completed = bump8 s.health.completed ∧ u.health.stage = .idle ∧
          u.health.job = .none ∧ u.gals = s.gals ∧ u.tours = s.tours))

/-- CHECKPOINT_RESTORE of an image that no row of Table 18-5 refuses is accepted; MIGRATE_FENCE with a new epoch sets it at once, for the
module and every open window; FENCE_DONE ends the first fence, once no descriptor of another epoch is in progress or its time has
passed (18 R396, R399, R400). RISK_EVALUATION notes the period's taps for the last 64 periods, which start anew; ALERT is set at its
threshold and clears 17 below it (18 R384, R387). The model's choice: what a restore takes from an image and how it deals with entries
and regions (log entries 72 and 107), that the row is the end of a period (log entry 106), and the taps kept (log entry 124). -/
def Obligations.RestoresAndFencesRun : Prop :=
  ∀ (h : Hdr) (s : State), docentUp s = true →
    (∀ first : Word, restoreImageCheck first.toNat s = stOk →
      exec (.checkpointRestore h first) s = .next (writeReply { s with health := { s.health with stage := .restoring } }
        h 0x0601 (ansLong (.checkpointRestore first.toNat)))) ∧
    (∀ (e : BitVec 8) (timeout : Word), e ≠ s.health.epoch → ∃ u,
      exec (.migrateFence h e timeout) s = .next (writeReply u h 0x0602 (ansLong (.migrateFence e (s.time.now + timeout.toNat)))) ∧
      u.health = { s.health with epoch := e, fencing := true } ∧
      (∀ w, winOf u w = if (winOf s w).isOpen then { winOf s w with epoch := e } else winOf s w) ∧ u.gals = s.gals ∧
      u.hbm = s.hbm ∧ u.tours = s.tours) ∧
    (∀ i w e limit, s.host.longWork[i]? = some w → w.kind = .migrateFence e limit →
      (∀ j < i, ∀ x, s.host.longWork[j]? = some x → ∀ e' l', x.kind ≠ .migrateFence e' l') →
      outstanding s e = 0 ∨ limit ≤ s.time.now → ∃ u, exec .fenceDone s = .next u ∧
        u.host.longWork = s.host.longWork.eraseIdx i ∧ u.health.epoch = s.health.epoch ∧ u.gals = s.gals ∧ u.tours = s.tours) ∧
    (∀ margin : Int, ∃ u, exec (.riskEvaluation margin) s = .next u ∧
      u.health.history = (s.health.taps :: s.health.history).take 64 ∧ u.health.taps = Taps.zero ∧
      u.health.periods = s.health.periods + 1 ∧
      (let est := u.health.estimate.toNat
       (s.health.alertTh.toNat ≤ est → u.health.alert = true) ∧ (est + 16 < s.health.alertTh.toNat → u.health.alert = false) ∧
       (est < s.health.alertTh.toNat → s.health.alertTh.toNat ≤ est + 16 → u.health.alert = s.health.alert)))

/-- RISK_EVALUATION: ESTIMATE is the sum of the seven components of Table 18-1 over the last 64 periods, capped at 255, and each component,
held to its limit, is written to its field of HUB_RISK_PARTS at the same evaluation; MEAN_ERASES is as VLT_ERASE reads it (18 R385). -/
def Obligations.RiskIsEstimated : Prop :=
  ∀ (margin : Int) (s : State), hubRuns s = true →
    let t := sumTaps ((s.health.taps :: s.health.history).take 64)
    let parts := [min 64 (t.ce / 64 + 32 * t.ue), min 48 (t.rl / 4 + 24 * t.uc), min 32 (t.rt / 256 + 8 * t.tr), min 32 (8 * t.dr),
      (min 40 (4 * max 0 (10 - margin))).toNat, min 16 (16 * meanErasesRead s / 5000), min 64 (32 * t.af)]
    ∃ u, exec (.riskEvaluation margin) s = .next u ∧ u.health.estimate = BitVec.ofNat 8 (min 255 (sumNat parts)) ∧
      (∀ i < 7, vget u.health.parts i 0 = BitVec.ofNat 8 (parts.getD i 0)) ∧
      u.tours = s.tours ∧ u.gals = s.gals ∧ u.hbm.mem = s.hbm.mem

/-! ### Security (19) -/

/-- BOOT: the reason codes of both slots, and what follows: with no valid image RECOVERY, otherwise IDLE with the valid image, or of two
the one with the higher SVN and A on a tie, SVN fuses blown up to its MIN_SVN. The reference clock and the hub island lock; the
gallery map and the debug fuse stay (19 R405 to R407; 20 R431).
FIRMWARE_WRITE from host memory to the slot that did not boot: an image that fails a check of Table 19-3 is refused AUTH_FAIL, a sound
one is accepted; nothing is written before its DONE (19 R409). The model's choice: reset values of the boot fields (log entry 2), that BOOT
locks the clocks and brings up the link (log entry 82), what an
interrupted write leaves (log entry 126), and that a certificate which does not fit refuses nothing (log entry 153). -/
def Obligations.FirmwareBoots : Prop :=
  (∀ (ea eb : Bool) (s : State), s.power.state = .boot → s.power.perst = false →
      let ra := slotReason s false ea
      let rb := slotReason s true eb
      let ha := flashGet s 0 512
      let hb := flashGet s 0x1000000 512
      let useB := rb = 0 ∧ (ra ≠ 0 ∨ fwSvn ha < fwSvn hb)
      ∃ u, exec (.boot ea eb) s = .next u ∧ u.sec.aReason = BitVec.ofNat 4 ra ∧ u.sec.bReason = BitVec.ofNat 4 rb ∧
        u.power.state = (if ra ≠ 0 ∧ rb ≠ 0 then .recovery else .idle) ∧ u.sec.recovery = decide (ra ≠ 0 ∧ rb ≠ 0) ∧
        (¬(ra ≠ 0 ∧ rb ≠ 0) → u.sec.slotB = decide useB ∧
          u.sec.bootSvn = BitVec.ofNat 7 (fwSvn (if useB then hb else ha)) ∧
          u.fuses = { s.fuses with svnBlown := max s.fuses.svnBlown (fwMinSvn (if useB then hb else ha)) }) ∧
        (ra ≠ 0 ∧ rb ≠ 0 → u.fuses = s.fuses) ∧ u.time.refLock = true ∧ u.time.islandLock.getLsbD 42 = true ∧
        u.host.link.up = true ∧ u.flash = s.flash ∧ u.hostMem = s.hostMem ∧ u.gals = s.gals ∧ u.vault = s.vault) ∧
  (∀ (h : Hdr) (slot : BitVec 8) (addr : Quad) (bytes : Word) (s : State),
      docentUp s = true ∨ (s.power.state = .recovery ∧ h.src = .mbox) → slot.toNat ≤ 1 → 512 ≤ bytes.toNat → bytes.toNat ≤ 0xFF0000 →
      s.host.busMaster = true → (s.sec.recovery = false → slot.toNat ≠ bit01 s.sec.slotB) → firmwareRunning s = false →
      let img := hostGet s addr.toNat bytes.toNat
      exec (.firmwareWrite h slot addr bytes) s = .next (writeReply s h 0x0703
        (if imageReason s.fuses.svnBlown (img.take 512) (fun n => (img.drop 0x1000).take n) false = 0 then
          ansLong (.firmwareWrite (slot == 1) img) else ansFail stAuthFail)))

/-- DEBUG_STATE: entering draws a fresh challenge, of what the entropy source delivers, whatever follows; an invalid token, or a
blown fuse, is AUTH_FAIL and counted; with a live tour, a sealed region or a formed group it is NOT_READY; otherwise debug mode is
entered. Leaving zeroizes cabinets, tour stores and twiddle banks; the fuse is blown only while debug mode is left (19 R419 to
R422); all of it needs bus mastering, since AUTH_ADDR is a host address (16 R354). The model's choice: the token is checked first
(log entry 25), the RESULT of the DONE (log entry 85), and that the state changes at the REPLY (log entry 30). -/
def Obligations.DebugStatesChange : Prop :=
  ∀ (h : Hdr) (addr : Quad) (s : State), docentUp s = true →
    (s.host.busMaster = true →
      let ok := !s.fuses.debugDisabled && tokenOk s (hostGet s addr.toNat 468)
      let free := !anyLive s && !sealedDeclared s && !groupFormed s
      ∃ u, exec (.debugEnter h addr) s = .next (writeReply u h 0x0702
          (if ok then (if free then ansLong (.debugState 1 stOk) else ansFail stNotReady) else ansFail stAuthFail)) ∧
        u.sec.challenge = BitVec.ofNat 256 (leNat (freshNonce s).1) ∧
        u.sec.debug = (s.sec.debug || (ok && free)) ∧ u.sec.sinceReset = (s.sec.sinceReset || (ok && free)) ∧
        u.sec.unlockFails = (if ok then s.sec.unlockFails else bump8 s.sec.unlockFails) ∧ u.fuses = s.fuses ∧
        u.gals = s.gals ∧ u.hbm = s.hbm ∧ u.hostMem = s.hostMem) ∧
    (s.host.busMaster = true → anyLive s = false → s.sec.debug = true → ∃ u,
      exec (.debugLeave h addr) s = .next (writeReply u h 0x0702 (ansLong (.debugState 0 stOk))) ∧ u.sec.debug = false ∧
      (∀ g < 32, (galOf u g).cab = [] ∧ (galOf u g).bank0.store = [] ∧ (galOf u g).bank0.twiddle = [] ∧
        (galOf u g).bank1.store = [] ∧ (galOf u g).bank1.twiddle = [] ∧ (galOf u g).regions = (galOf s g).regions) ∧
      u.fuses = s.fuses ∧ u.hbm = s.hbm ∧ u.hostMem = s.hostMem) ∧
    (s.host.busMaster = true → s.sec.debug = false → exec (.debugDisable h addr) s = .next (writeReply
      { s with fuses := { s.fuses with debugDisabled := true } } h 0x0702 (ansLong (.debugState 2 stOk)))) ∧
    (s.sec.debug = true ∨ s.host.busMaster = false →
      exec (.debugDisable h addr) s = .next (writeReply s h 0x0702 (ansFail stNotReady)))

/-- The big-number engine's modular commands, on a request block at a multiple of 4,096 in host memory with an L of Table 19-7:
operands free of the failures of R415 give the product and the power modulo m and the cycles of Table 19-7, others PK_FAIL with a
zero result; BUSY is set (19 R414 to R417). The engine's P-521 commands with L = 521: key generation answers d, X and Y of d times
the base point, key agreement the X of d times the point given, signing R and S by a fresh scalar, and verification 1 or 0; every
point is checked, a bad operand is PK_FAIL, a verification whose sum is the point at infinity too, and so is a signature that fails its
own check, which is counted (19 R415, R417, R418). The model's choice: the operands' places and the order of H (log entry 86), the byte
order of coordinates (log entry 23), and the curve and ECDSA as the standards have them (log entry 15). -/
def Obligations.BigNumbersAreComputed : Prop :=
  (∀ (h : Hdr) (addr : Quad) (s : State), docentUp s = true → addr.toNat % 4096 = 0 → s.host.busMaster = true →
      let blk := hostGet s addr.toNat 4096
      let l := bytesAt blk 0 2
      let a := pkField blk 0x40 l
      let b := pkField blk 0x240 l
      let m := pkField blk 0x440 l
      let sound := m % 2 = 1 ∧ a ≠ 0 ∧ b ≠ 0 ∧ a < m ∧ b < m
      let u : State := { s with sec := { s.sec with pkBusy := true } }
      let mulCycles := (l / 64) * (l / 64) + 4 * (l / 64) + 8
      64 ≤ l → l ≤ 4096 → l % 64 = 0 →
      exec (.modmul h addr) s = .next (writeReply u h 0x0704 (ansLong (.pkOperation addr.toNat (if sound then stOk else stPkFail)
        (if sound then leBytes 512 (a * b % m) else List.replicate 512 0) mulCycles))) ∧
      exec (.modexp h addr) s = .next (writeReply u h 0x0704 (ansLong (.pkOperation addr.toNat (if sound then stOk else stPkFail)
        (if sound then leBytes 512 (a ^ b % m) else List.replicate 512 0) ((2 * l + 3) * mulCycles + 200))))) ∧
  (∀ (h : Hdr) (addr : Quad) (s : State), docentUp s = true → addr.toNat % 4096 = 0 → s.host.busMaster = true →
      let blk := hostGet s addr.toNat 4096
      let f := fun (i : Nat) => bytesAt blk (0x40 + 0x200 * i) 512
      let busy := fun (t : State) => ({ t with sec := { t.sec with pkBusy := true } } : State)
      let k := drawScalar s
      let r := bytesAt blk 0x640 96
      let z := bytesAt blk 0x6A0 416
      let failed := fun (n : Nat) => LongKind.pkOperation addr.toNat stPkFail (List.replicate 512 0) n
      let good := fun (n : Nat) (bs : List Byte) => LongKind.pkOperation addr.toNat stOk (padTo 512 bs) n
      bytesAt blk 0 2 = 521 →
      exec (.p521Keygen h addr) s = .next (writeReply (busy k.2) h 0x0704 (ansLong
        (match pointMul k.1 p521G with
         | some (x, y) =>
           if onCurve x y = true then good 1312500 (leBytes 66 k.1 ++ leBytes 66 x ++ leBytes 66 y) else failed 1312500
         | .none => failed 1312500))) ∧
      exec (.p521Ecdh h addr) s = .next (writeReply (busy s) h 0x0704 (ansLong
        (if scalarOk (f 0) = true ∧ onCurve (f 1) (f 2) = true then
          match pointMul (f 0) (some (f 1, f 2)) with
          | some (x, y) => if onCurve x y = true then good 1375000 (leBytes 66 x) else failed 1375000
          | .none => failed 1375000
         else failed 1375000))) ∧
      exec (.p521Sign h addr) s = .next (if scalarOk (f 0) = true then
          if signatureGood (f 0) (f 1) k.1 = true then
            writeReply (busy k.2) h 0x0704 (ansLong (good 4187500
              (leBytes 66 (ecdsaSign (f 0) (f 1) k.1).1 ++ leBytes 66 (ecdsaSign (f 0) (f 1) k.1).2)))
          else writeReply (busy { k.2 with sec := { k.2.sec with selfFails := bump8 k.2.sec.selfFails } }) h 0x0704
            (ansLong (failed 4187500))
        else writeReply (busy k.2) h 0x0704 (ansLong (failed 4187500))) ∧
      exec (.p521Verify h addr) s = .next (writeReply (busy s) h 0x0704 (ansLong
        (if onCurve (f 1) (f 2) = true ∧ scalarOk r = true ∧ scalarOk z = true ∧ (ecdsaPoint (f 1) (f 2) (f 0) r z).isSome = true then
          good 2750000 (leBytes 4 (bit01 (ecdsaVerify (f 1) (f 2) (f 0) r z))) else failed 2750000))))

/-- Attestation: an unsigned request of one measurement block is answered with it in the form of the DMTF, block 6 being TOUR_LOG
and the number of accepted tours as raw data; version, capabilities, algorithms, the digest of the certificate chain and the chain
are answered; the first free session is taken by a key exchange, and a lost heartbeat ends a session; the endpoint's number is set
and read over MCTP, on the link or at the SMBus address, which ARP assigns (19 R411 to R413, R423; 16 R359). The model's choice:
message forms (log entries 26 and 27), and that session keys are free values (log entry 26). -/
def Obligations.AttestationAnswers : Prop :=
  ∀ s : State,
    (∀ (i : BitVec 8) (bs : List Byte), docentUp s = true → i ≠ 0 → i ≠ 0xFF →
      exec (.spdmRequest (.getMeasurements i false) bs) s = .next { s with sec := { s.sec with
        spdmReply := measurementBlock s i.toNat } } ∧
      measurementBlock s 6 = [6, 1] ++ leBytes 2 75 ++ [0x83] ++ leBytes 2 72 ++
        (leBytes 64 s.sec.tourLog.toNat ++ leBytes 8 s.sec.tourCount)) ∧
    (∀ bs : List Byte, docentUp s = true →
      let answered := fun (b : List Byte) => ({ s with sec := { s.sec with spdmReply := b } } : State)
      exec (.spdmRequest .getVersion bs) s = .next (answered (leBytes 2 0x1200)) ∧
      exec (.spdmRequest .getCapabilities bs) s = .next (answered (leBytes 4 spdmFlags)) ∧
      exec (.spdmRequest .negotiate bs) s = .next (answered spdmAlgorithms) ∧
      exec (.spdmRequest .getDigests bs) s = .next (answered ([1] ++ sha512 (certChain s))) ∧
      exec (.spdmRequest .getCertificate bs) s = .next (answered (certChain s))) ∧
    (∀ (k : Nat) (bs : List Byte), docentUp s = true → k < 4 → (sessionOf s k).inUse = false →
      (∀ j < k, (sessionOf s j).inUse = true) → ∃ u, exec (.spdmRequest .keyExchange bs) s = .next u ∧
        (sessionOf u k).inUse = true ∧ (∀ j, j ≠ k → sessionOf u j = sessionOf s j) ∧ u.gals = s.gals ∧ u.fuses = s.fuses) ∧
    (∀ k : BitVec 2, exec (.spdmHeartbeatLoss k) s = .next { s with sec := { s.sec with
      sessions := vset s.sec.sessions k.toNat { inUse := false, keyed := false, updates := 0, keys := 0 } } }) ∧
    (∀ (via : MctpVia) (e : BitVec 8), docentUp s = true → (via = .pcie ∧ s.host.link.up = true) ∨ via = .smbus s.sec.smbusAddr true →
      e ≠ 0 → e ≠ 0xFF →
      exec (.mctpMessage via (.setEndpointId e)) s = .next { s with sec := { s.sec with mctpEid := e, mctpReply := [0, e] } } ∧
      exec (.mctpMessage via .getEndpointId) s = .next { s with sec := { s.sec with mctpReply := [0, s.sec.mctpEid] } }) ∧
    (∀ a, docentUp s = true → exec (.mctpMessage (.smbus 0x61 true) (.arpAssign a)) s = .next { s with sec := { s.sec with smbusAddr := a } })

/-! ### Power (20, 23) -/

/-- The input: rails that come up within three attempts lead to BOOT, three failures to LATCHED_OFF; an open PWR_SENSE counts as an input
lost; a profile window compares its measured input with what is planned, and one more than a twentieth above counts (20 R425; 23
R458; 11 R239); a host link that retrains counts, and failures of its
integrity are counted and stop the IDE streams (18 R384; 16 R336).
Emergencies: THERMAL_ABORT and POWER_FAULT set their flag, count, set the emergency condition, and end every running tour at the next tick
edge with their status; EMERGENCY_CLEAR clears the condition alone; DROOP and THERM_WARN set their flag and count, and no tour
changes (20 R436 to R439). The model's choice: what of a loss leaves LATCHED_OFF is free (log entry 150), the row of an input that
rises (log entry 110), which tours a window's plan counts (log entry 109), the place of an emergency in its FAULT (log
entry 111), and the failures of integrity (log entry 140). -/
def Obligations.PowerAndEmergencies : Prop :=
  (∀ s : State,
      (∀ bad, s.power.state = .off → s.power.senseClosed = true → (bad.length < 3 → ∃ u, exec (.powerInputRise bad) s = .next u ∧
          Claims.resetLeaves s u u.vault.medium ∧ (s.vault.inFlight = [] → u.vault.medium = s.vault.medium) ∧
          u.power.state = .boot ∧ u.power.attempts = bad.length ∧ u.power.resetCause = 0) ∧
        (3 ≤ bad.length → exec (.powerInputRise bad) s = .next { s with power := { s.power with
          state := .latchedOff, attempts := 3 } })) ∧
      exec (.pwrSense true) s = .next { s with power := { s.power with senseClosed := true } } ∧
      (∃ u, exec (.pwrSense false) s = .next u ∧ u.power.senseClosed = false ∧
        (s.power.state ≠ .latchedOff → u.power.state = .off ∧ Claims.resetLeaves s u u.vault.medium ∧
          (s.vault.inFlight = [] → u.vault.medium = s.vault.medium)) ∧
        (s.power.state = .latchedOff → u.power.state = .off ∨ u.power.state = .latchedOff)) ∧
      (∀ watts, hubRuns s = true → ∃ u, exec (.profileExcess watts) s = .next u ∧
        u = { s with power := u.power } ∧ u.power.pin = BitVec.ofNat 12 (min 4095 watts) ∧
        (105 * plannedWatts s < 100 * watts → u.power.excessWindows = bump8 s.power.excessWindows ∧
          u.power.maxExcess = BitVec.ofNat 12 (max s.power.maxExcess.toNat (min 4095 (watts - plannedWatts s)))) ∧
        (100 * watts ≤ 105 * plannedWatts s → u.power.excessWindows = s.power.excessWindows ∧
          u.power.maxExcess = s.power.maxExcess)) ∧
      (hubRuns s = true → s.host.link.up = true → ∃ u n, exec .cxlLinkRetrain s = .next u ∧ n < 256 ∧
        u.health = { s.health with taps := { s.health.taps with tr := s.health.taps.tr + 1 } } ∧
        u.host.link.up = true ∧ u.host.link.retrains = bump8 s.host.link.retrains ∧
        (s.host.link.ideOn = true → 0 < n → u.host.link.ideOn = false ∧
          u.host.link.ideFails = BitVec.ofNat 8 (min 255 (s.host.link.ideFails.toNat + n))) ∧
        (s.host.link.ideOn = false ∨ n = 0 → u.host.link.ideOn = s.host.link.ideOn ∧ u.host.link.ideFails = s.host.link.ideFails) ∧
        u = { s with health := u.health, host := { s.host with link := u.host.link }, freeCount := u.freeCount })) ∧
  (∀ s : State, hubRuns s = true →
      (∃ u, exec .thermalAbort s = .next u ∧ u.power = { s.power with
          emergency := true, emergencyCode := stThermalAbort, thermalAbort := true, thermalAborts := bump8 s.power.thermalAborts } ∧
        (∀ id t, tourOf s id = some t → t.state = .running → t.status = .none → tourOver s t = false →
          ∃ x, tourOf u id = some x ∧ x.status = some stThermalAbort ∧ x.stopAt = s.time.now + 1) ∧
        u.gals = s.gals ∧ u.hbm = s.hbm) ∧
      (∃ u, exec .powerFault s = .next u ∧ u.power = { s.power with
          emergency := true, emergencyCode := stPowerFault, powerFault := true, powerFaults := bump8 s.power.powerFaults } ∧
        (∀ id t, tourOf s id = some t → t.state = .running → t.status = .none → tourOver s t = false →
          ∃ x, tourOf u id = some x ∧ x.status = some stPowerFault ∧ x.stopAt = s.time.now + 1) ∧
        u.gals = s.gals ∧ u.hbm = s.hbm) ∧
      exec .emergencyClear s = .next { s with power := { s.power with emergency := false, emergencyCode := 0 } } ∧
      (∀ rail, ∃ u, exec (.droop rail) s = .next u ∧ u.power = { s.power with droop := true, droops := bump8 s.power.droops } ∧
        u.health.taps.dr = s.health.taps.dr + 1 ∧ u.tours = s.tours ∧ u.gals = s.gals ∧ u.hbm = s.hbm) ∧
      (∃ u, exec .thermWarn s = .next u ∧ u.power = { s.power with thermWarn := true, thermWarns := bump8 s.power.thermWarns } ∧
        u.tours = s.tours ∧ u.gals = s.gals ∧ u.hbm = s.hbm))

/-! ### Queue pairs and the mailbox (16) -/

/-- A doorbell whose tail lies in its queue moves SQ_TAIL, any other is a bad doorbell and moves nothing; CXL_QP_CTRL takes VECTOR, IRQ_EN
and ENABLE, and the logs while the queue pair is idle; setting ENABLE from 0 restarts the indices and PHASE (16 R342 to R345). -/
def Obligations.QueuePairsAct : Prop :=
  ∀ (q : BitVec 6) (v : Word) (s : State), hubRuns s = true →
    let Q := qpOf s q.toNat
    (∀ ws, exec (.qpDoorbell q v ws) s = .next (modQp (hostPutAll s ws) q.toNat (fun Q =>
      if v.toNat % 65536 < 2 ^ max 4 (min 12 Q.sqLog.toNat) then { Q with sqTail := BitVec.ofNat 16 v.toNat }
      else { Q with badDoorbell := true, badDoorbells := bump8 Q.badDoorbells }))) ∧
    (∃ u, exec (.qpEnable q v) s = .next u ∧ (∀ k, k ≠ q.toNat → qpOf u k = qpOf s k) ∧
      u = { s with host := { s.host with qps := u.host.qps } } ∧
      (qpOf u q.toNat).enable = v.getLsbD 0 ∧ (qpOf u q.toNat).irqEn = v.getLsbD 1 ∧
      (qpOf u q.toNat).vector = BitVec.ofNat 6 (fieldAt v.toNat 24 6) ∧
      (qpIdle Q = true → (qpOf u q.toNat).rqLog = BitVec.ofNat 5 (fieldAt v.toNat 16 5) ∧
        (qpOf u q.toNat).sqLog = BitVec.ofNat 5 (fieldAt v.toNat 8 5)) ∧
      (qpIdle Q = false → (qpOf u q.toNat).rqLog = Q.rqLog ∧ (qpOf u q.toNat).sqLog = Q.sqLog) ∧
      (v.getLsbD 0 = true → Q.enable = false → (qpOf u q.toNat).sqHead = 0 ∧ (qpOf u q.toNat).sqTail = 0 ∧
        (qpOf u q.toNat).rqTail = 0 ∧ (qpOf u q.toNat).phase = true) ∧
      (v.getLsbD 0 = false ∨ Q.enable = true → (qpOf u q.toNat).sqHead = Q.sqHead ∧ (qpOf u q.toNat).sqTail = Q.sqTail ∧
        (qpOf u q.toNat).rqTail = Q.rqTail ∧ (qpOf u q.toNat).phase = Q.phase))

/-- A packet that is taken does what its command does: QP_COMMAND_TAKE of a served queue pair reads the packet, steps SQ_HEAD on and
runs the command at the old head, and MBOX_GO with BUSY 0 sets BUSY and runs the command of CXL_MBOX_CMD; a packet that no command
has is refused with its status (16 R340, R343, R346, R352). -/
def Obligations.PacketsAreRun : Prop :=
  ∀ (peer : Peer) (s : State),
    (∀ q : BitVec 6, qpServed s q.toNat = true →
      (packetHdr (.qp q) (qpPacket s q.toNat).1).fence = false ∨ (qpOf s q.toNat).longs = 0 →
      let bs := (qpPacket s q.toNat).1
      let u := modQp (qpPacket s q.toNat).2 q.toNat (fun Q => { Q with sqHead := BitVec.ofNat 16 ((Q.sqHead.toNat + 1) % sqSize Q) })
      (∀ c, readPacket (.qp q) bs peer = .run c → ∃ t, exec (.qpCommandTake q peer) s = .next t ∧ exec c u = .next t) ∧
      (∀ st, readPacket (.qp q) bs peer = .refuse st →
        exec (.qpCommandTake q peer) s = .next (writeReply u (packetHdr (.qp q) bs) (packetOp bs) (ansFail st)))) ∧
    (∀ v : Word, v.getLsbD 0 = true → s.host.mbox.busy = false → docentUp s = true → s.power.perst = false →
      let bs := leBytes 64 s.host.mbox.cmd.toNat
      let u : State := { s with host := { s.host with mbox := { s.host.mbox with busy := true } } }
      (∀ c, readPacket .mbox bs peer = .run c → ∃ t, exec (.mboxGo v peer) s = .next t ∧ exec c u = .next t) ∧
      (∀ st, readPacket .mbox bs peer = .refuse st →
        exec (.mboxGo v peer) s = .next (writeReply u (packetHdr .mbox bs) (packetOp bs) (ansFail st))))

/-! ### Registers (22) and the debug window (16) -/

/-- The registers with commands of their own: HUB_TIME_SET is refused, with SET_REFUSED and a count, while a tour is accepted or module
time is disciplined, and otherwise waits for the next tick edge; the low half waits for the high one; PWR_ADMIT takes 1,000 to
2,400 W; GAL_ARITH_INJECT and the ENABLE of GAL_INV_CTRL take writes in debug mode alone (02 R45; 20 R435; 05 R115; 11 R240).
Register accesses: a 32-bit read returns the word and latches the high half of a 64-bit register, which the next read of it returns; a
64-bit read returns both halves; counters that clear on read do; a write narrower than 32 bits does nothing, one to a flag that is
cleared by a 1 clears it, and one to a register of configuration takes its fields (00 R6, R8 to R11; 22 R455). A configuration read
before the Docent has started gets no data (20 R431). The model's choice: R45 is judged at the write, and the mask of
GAL_INV_CTRL takes writes outside debug mode (log entry 144); a narrow write does nothing, and where the configuration space stands
(log entry 38). -/
def Obligations.RegistersAct : Prop :=
  (∀ s : State, hubRuns s = true →
      let refused := fun (t : State) => ({ t with time := { t.time with setRefused := true },
                                                  mon := { t.mon with setRefusals := bump8 t.mon.setRefusals } } : State)
      let barred := anyAccepted s || s.time.disciplined
      (∀ v : Quad, exec (.timeSet (.full v)) s = .next (if barred then refused s
        else { s with time := { s.time with pendingSet := some v.toNat } })) ∧
      (∀ v : Word, exec (.timeSet (.low v)) s = .next { s with time := { s.time with pendingLow := some v } }) ∧
      (∀ v : Word, let lo := s.time.pendingLow.getD 0
        let t : State := { s with time := { s.time with pendingLow := .none } }
        exec (.timeSet (.high v)) s = .next (if barred then refused t
          else { t with time := { t.time with pendingSet := some (2 ^ 32 * v.toNat + lo.toNat) } })) ∧
      (∀ v : Word, exec (.admitLimitWrite v) s = .next
        (if 1000 ≤ fieldAt v.toNat 0 12 ∧ fieldAt v.toNat 0 12 ≤ 2400 then
          { s with power := { s.power with limit := BitVec.ofNat 12 (fieldAt v.toNat 0 12) } } else s)) ∧
      (∀ (g : BitVec 5) (v : Word), g.toNat < numGal s →
        (s.sec.debug = false → exec (.arithInjectArm g v) s = .next s ∧
          exec (.invigilatorEnable g v) s = .next (modInv s g.toNat (fun i => { i with mask := BitVec.ofNat 7 (fieldAt v.toNat 1 7) }))) ∧
        (s.sec.debug = true →
          exec (.arithInjectArm g v) s = .next (modRegs s g.toNat (fun r => { r with
            injectLane := BitVec.ofNat 8 (fieldAt v.toNat 8 8), injectTarget := BitVec.ofNat 2 (fieldAt v.toNat 4 2),
            injectArm := r.injectArm || v.getLsbD 0 })) ∧
          exec (.invigilatorEnable g v) s = .next (modInv s g.toNat (fun i => { i with
            mask := BitVec.ofNat 7 (fieldAt v.toNat 1 7), enable := v.getLsbD 0 }))))) ∧
  (∀ s : State, hubRuns s = true →
      (∃ u, exec (.registerReadClear 0x100 4) s = .next u ∧ u.host.readData = leBytes 4 (s.time.now % 2 ^ 32) ∧
        u.time = s.time ∧ (s.host.latches = [] → s.time.now < 2 ^ 64 → ∀ t : State, t.host = u.host → hubRuns t = true →
          ∃ w, exec (.registerReadClear 0x104 4) t = .next w ∧ w.host.readData = leBytes 4 (s.time.now / 2 ^ 32))) ∧
      (s.time.now < 2 ^ 64 → ∃ u, exec (.registerReadClear 0x100 8) s = .next u ∧ u.host.readData = leBytes 8 s.time.now ∧
        u.time = s.time) ∧
      (∀ n : BitVec 6, ∃ u, exec (.registerReadClear (0x700028 + 0x40 * n.toNat) 4) s = .next u ∧
        (chanOf u n.toNat).completions = 0 ∧ (chanOf u n.toNat).errors = 0 ∧ (∀ k, k ≠ n.toNat → chanOf u k = chanOf s k) ∧
        (s.host.latches = [] → bytesAt u.host.readData 2 2 =
          (chanOf s n.toNat).completions.toNat * 2 ^ 8 + (chanOf s n.toNat).errors.toNat)) ∧
      (∀ o n, cfgBase ≤ o → firmwareRuns s = false → ∃ u, exec (.registerReadClear o n) s = .next u ∧ u.host.readData = [] ∧
        u = { s with host := u.host }) ∧
      (∀ o (v : Quad), exec (.registerWrite o 1 v) s = .next s ∧ exec (.registerWrite o 2 v) s = .next s) ∧
      (∀ v : Quad, exec (.registerWrite 0x500018 4 v) s = .next { s with power := { s.power with
        powerFault := s.power.powerFault && !v.getLsbD 3, thermalAbort := s.power.thermalAbort && !v.getLsbD 2,
        thermWarn := s.power.thermWarn && !v.getLsbD 1, droop := s.power.droop && !v.getLsbD 0 } }) ∧
      (∀ v : Quad, exec (.registerWrite 0x510 4 v) s = .next { s with health := { s.health with
        alertTh := BitVec.ofNat 8 (fieldAt v.toNat 24 8), ckptTh := BitVec.ofNat 8 (fieldAt v.toNat 16 8),
        autoGap := BitVec.ofNat 8 (fieldAt v.toNat 8 8), autoEn := v.getLsbD 0 } }) ∧
      (∀ (m : BitVec 14) (v : Quad), ∃ u, exec (.registerWrite (0x410000 + 4 * m.toNat) 4 v) s = .next u ∧
        routeOf u m.toNat = { valid := v.getLsbD 13, minimal := BitVec.ofNat 8 (fieldAt v.toNat 5 8),
                              dport := BitVec.ofNat 3 (fieldAt v.toNat 0 3) } ∧
                                u = { s with fab := { s.fab with routes := u.fab.routes } }))

/-- BAR2: outside debug mode a read returns zeros and a write does nothing; in debug mode a read of a cabinet word returns it, or
zeros for a word of a sealed region, and a write lands in an outside-fed region that is not sealed, is held while READY is 1 or the
clock stands, and is refused and counted everywhere else. Both have the hub's turn at the bank port (`rd`, `wr`: the module runs on
until the port is free), or are held (16 R338, R339; 04 R81, R82, R90; 10 R226). The model's choice: a held access has done nothing and is
performed in a tick that runs (log entry 36), and what HUB_DEFERS counts (log entry 92). -/
def Obligations.TheDebugWindowServes : Prop :=
  ∀ (pa : Nat) (v : Quad) (s : State), hubRuns s = true → pa < 0x300000 →
    (s.sec.debug = false → ∃ u, exec (.bar2Access (4 * pa) 4 .read) s = .next u ∧ u.host.readData = [0, 0, 0, 0] ∧
      u.gals = s.gals ∧ exec (.bar2Access (4 * pa) 4 (.write v)) s = .next s) ∧
    (∀ g, g = s.host.dbgGallery.toNat →
      s.sec.debug = true → g < numGal s →
      let r := (rgnAt s g pa).map (rgnOf s g)
      let rd := hubTurn g false false [pa] s
      let wr := hubTurn g true false [pa] s
      ((∃ x, r = some x ∧ x.isSealed = true) → ∃ u, exec (.bar2Access (4 * pa) 4 .read) s = .next u ∧
        u.host.readData = [0, 0, 0, 0] ∧ ∀ k a, cabWord u k a = cabWord s k a) ∧
      ((∀ x, r = some x → x.isSealed = false) → (galOf s g).regs.clockOn = true →
        (rd.1 = false → exec (.bar2Access (4 * pa) 4 .read) s =
          .next { rd.2 with held := rd.2.held ++ [.bar2 g (4 * pa) 4 .read true] }) ∧
        (rd.1 = true → ∃ u, exec (.bar2Access (4 * pa) 4 .read) s = .next u ∧
          u.host.readData = leBytes 4 ((hubWords rd.2 g [pa]).headD 0) ∧ (∀ k a, cabWord u k a = cabWord rd.2 k a) ∧
          (anyStep s = false → filling s = false → s.time.cycle = 0 → u.host.readData = leBytes 4 (cabWord s g pa).toNat))) ∧
      ((∀ x, r = some x → x.feed = 0 ∨ x.isSealed = true) → exec (.bar2Access (4 * pa) 4 (.write v)) s =
        .next { s with host := { s.host with dbgRefusals := bump8 s.host.dbgRefusals } }) ∧
      (∀ x, r = some x → x.feed ≠ 0 → x.isSealed = false →
        (x.ready = true ∨ (galOf s g).regs.clockOn = false → exec (.bar2Access (4 * pa) 4 (.write v)) s =
          .next { s with held := s.held ++ [.bar2 g (4 * pa) 4 (.write v) false] }) ∧
        (x.ready = false → (galOf s g).regs.clockOn = true → wr.1 = false → exec (.bar2Access (4 * pa) 4 (.write v)) s =
          .next { wr.2 with held := wr.2.held ++ [.bar2 g (4 * pa) 4 (.write v) true] }) ∧
        (x.ready = false → (galOf s g).regs.clockOn = true → wr.1 = true → SmWf 0 (galOf wr.2 g).cab →
          ∃ u, exec (.bar2Access (4 * pa) 4 (.write v)) s = .next u ∧
          cabWord u g pa = BitVec.ofNat 32 v.toNat ∧ (∀ k a, (k, a) ≠ (g, pa) → cabWord u k a = cabWord wr.2 k a) ∧
          u.host = wr.2.host ∧ u.hbm = wr.2.hbm)))
end

