-- ==== Sys2Proof/Laws/State.lean ====
section
/-!
SUPPORT. Sys2Proof/Laws/State.lean: which fields of State each update of Machine/Ops.lean leaves as they were, one lemma per
field and update, so that no later proof unfolds a record update.
-/

namespace Sys2Proof.Machine

variable (s : State)

/-! ### setGal -/

@[simp] theorem setGal_pending (g : Nat) (x : Gallery) : (setGal s g x).pending = s.pending := rfl
@[simp] theorem setGal_freeCount (g : Nat) (x : Gallery) : (setGal s g x).freeCount = s.freeCount := rfl
@[simp] theorem setGal_hostMem (g : Nat) (x : Gallery) : (setGal s g x).hostMem = s.hostMem := rfl
@[simp] theorem setGal_fuses (g : Nat) (x : Gallery) : (setGal s g x).fuses = s.fuses := rfl
@[simp] theorem setGal_flash (g : Nat) (x : Gallery) : (setGal s g x).flash = s.flash := rfl
@[simp] theorem setGal_time (g : Nat) (x : Gallery) : (setGal s g x).time = s.time := rfl
@[simp] theorem setGal_bridge (g : Nat) (x : Gallery) : (setGal s g x).bridge = s.bridge := rfl
@[simp] theorem setGal_useLog (g : Nat) (x : Gallery) : (setGal s g x).useLog = s.useLog := rfl
@[simp] theorem setGal_held (g : Nat) (x : Gallery) : (setGal s g x).held = s.held := rfl
@[simp] theorem setGal_cat (g : Nat) (x : Gallery) : (setGal s g x).cat = s.cat := rfl
@[simp] theorem setGal_rst (g : Nat) (x : Gallery) : (setGal s g x).rst = s.rst := rfl
@[simp] theorem setGal_tours (g : Nat) (x : Gallery) : (setGal s g x).tours = s.tours := rfl
@[simp] theorem setGal_booked (g : Nat) (x : Gallery) : (setGal s g x).booked = s.booked := rfl
@[simp] theorem setGal_dma (g : Nat) (x : Gallery) : (setGal s g x).dma = s.dma := rfl
@[simp] theorem setGal_hbm (g : Nat) (x : Gallery) : (setGal s g x).hbm = s.hbm := rfl
@[simp] theorem setGal_vault (g : Nat) (x : Gallery) : (setGal s g x).vault = s.vault := rfl
@[simp] theorem setGal_host (g : Nat) (x : Gallery) : (setGal s g x).host = s.host := rfl
@[simp] theorem setGal_fab (g : Nat) (x : Gallery) : (setGal s g x).fab = s.fab := rfl
@[simp] theorem setGal_health (g : Nat) (x : Gallery) : (setGal s g x).health = s.health := rfl
@[simp] theorem setGal_drbg (g : Nat) (x : Gallery) : (setGal s g x).drbg = s.drbg := rfl
@[simp] theorem setGal_sec (g : Nat) (x : Gallery) : (setGal s g x).sec = s.sec := rfl
@[simp] theorem setGal_power (g : Nat) (x : Gallery) : (setGal s g x).power = s.power := rfl
@[simp] theorem setGal_mon (g : Nat) (x : Gallery) : (setGal s g x).mon = s.mon := rfl

/-! ### modGal -/

@[simp] theorem modGal_pending (g : Nat) (f : Gallery → Gallery) : (modGal s g f).pending = s.pending := rfl
@[simp] theorem modGal_freeCount (g : Nat) (f : Gallery → Gallery) : (modGal s g f).freeCount = s.freeCount := rfl
@[simp] theorem modGal_hostMem (g : Nat) (f : Gallery → Gallery) : (modGal s g f).hostMem = s.hostMem := rfl
@[simp] theorem modGal_fuses (g : Nat) (f : Gallery → Gallery) : (modGal s g f).fuses = s.fuses := rfl
@[simp] theorem modGal_flash (g : Nat) (f : Gallery → Gallery) : (modGal s g f).flash = s.flash := rfl
@[simp] theorem modGal_time (g : Nat) (f : Gallery → Gallery) : (modGal s g f).time = s.time := rfl
@[simp] theorem modGal_bridge (g : Nat) (f : Gallery → Gallery) : (modGal s g f).bridge = s.bridge := rfl
@[simp] theorem modGal_useLog (g : Nat) (f : Gallery → Gallery) : (modGal s g f).useLog = s.useLog := rfl
@[simp] theorem modGal_held (g : Nat) (f : Gallery → Gallery) : (modGal s g f).held = s.held := rfl
@[simp] theorem modGal_cat (g : Nat) (f : Gallery → Gallery) : (modGal s g f).cat = s.cat := rfl
@[simp] theorem modGal_rst (g : Nat) (f : Gallery → Gallery) : (modGal s g f).rst = s.rst := rfl
@[simp] theorem modGal_tours (g : Nat) (f : Gallery → Gallery) : (modGal s g f).tours = s.tours := rfl
@[simp] theorem modGal_booked (g : Nat) (f : Gallery → Gallery) : (modGal s g f).booked = s.booked := rfl
@[simp] theorem modGal_dma (g : Nat) (f : Gallery → Gallery) : (modGal s g f).dma = s.dma := rfl
@[simp] theorem modGal_hbm (g : Nat) (f : Gallery → Gallery) : (modGal s g f).hbm = s.hbm := rfl
@[simp] theorem modGal_vault (g : Nat) (f : Gallery → Gallery) : (modGal s g f).vault = s.vault := rfl
@[simp] theorem modGal_host (g : Nat) (f : Gallery → Gallery) : (modGal s g f).host = s.host := rfl
@[simp] theorem modGal_fab (g : Nat) (f : Gallery → Gallery) : (modGal s g f).fab = s.fab := rfl
@[simp] theorem modGal_health (g : Nat) (f : Gallery → Gallery) : (modGal s g f).health = s.health := rfl
@[simp] theorem modGal_drbg (g : Nat) (f : Gallery → Gallery) : (modGal s g f).drbg = s.drbg := rfl
@[simp] theorem modGal_sec (g : Nat) (f : Gallery → Gallery) : (modGal s g f).sec = s.sec := rfl
@[simp] theorem modGal_power (g : Nat) (f : Gallery → Gallery) : (modGal s g f).power = s.power := rfl
@[simp] theorem modGal_mon (g : Nat) (f : Gallery → Gallery) : (modGal s g f).mon = s.mon := rfl

/-! ### modRegs -/

@[simp] theorem modRegs_pending (g : Nat) (f : GalRegs → GalRegs) : (modRegs s g f).pending = s.pending := rfl
@[simp] theorem modRegs_freeCount (g : Nat) (f : GalRegs → GalRegs) : (modRegs s g f).freeCount = s.freeCount := rfl
@[simp] theorem modRegs_hostMem (g : Nat) (f : GalRegs → GalRegs) : (modRegs s g f).hostMem = s.hostMem := rfl
@[simp] theorem modRegs_fuses (g : Nat) (f : GalRegs → GalRegs) : (modRegs s g f).fuses = s.fuses := rfl
@[simp] theorem modRegs_flash (g : Nat) (f : GalRegs → GalRegs) : (modRegs s g f).flash = s.flash := rfl
@[simp] theorem modRegs_time (g : Nat) (f : GalRegs → GalRegs) : (modRegs s g f).time = s.time := rfl
@[simp] theorem modRegs_bridge (g : Nat) (f : GalRegs → GalRegs) : (modRegs s g f).bridge = s.bridge := rfl
@[simp] theorem modRegs_useLog (g : Nat) (f : GalRegs → GalRegs) : (modRegs s g f).useLog = s.useLog := rfl
@[simp] theorem modRegs_held (g : Nat) (f : GalRegs → GalRegs) : (modRegs s g f).held = s.held := rfl
@[simp] theorem modRegs_cat (g : Nat) (f : GalRegs → GalRegs) : (modRegs s g f).cat = s.cat := rfl
@[simp] theorem modRegs_rst (g : Nat) (f : GalRegs → GalRegs) : (modRegs s g f).rst = s.rst := rfl
@[simp] theorem modRegs_tours (g : Nat) (f : GalRegs → GalRegs) : (modRegs s g f).tours = s.tours := rfl
@[simp] theorem modRegs_booked (g : Nat) (f : GalRegs → GalRegs) : (modRegs s g f).booked = s.booked := rfl
@[simp] theorem modRegs_dma (g : Nat) (f : GalRegs → GalRegs) : (modRegs s g f).dma = s.dma := rfl
@[simp] theorem modRegs_hbm (g : Nat) (f : GalRegs → GalRegs) : (modRegs s g f).hbm = s.hbm := rfl
@[simp] theorem modRegs_vault (g : Nat) (f : GalRegs → GalRegs) : (modRegs s g f).vault = s.vault := rfl
@[simp] theorem modRegs_host (g : Nat) (f : GalRegs → GalRegs) : (modRegs s g f).host = s.host := rfl
@[simp] theorem modRegs_fab (g : Nat) (f : GalRegs → GalRegs) : (modRegs s g f).fab = s.fab := rfl
@[simp] theorem modRegs_health (g : Nat) (f : GalRegs → GalRegs) : (modRegs s g f).health = s.health := rfl
@[simp] theorem modRegs_drbg (g : Nat) (f : GalRegs → GalRegs) : (modRegs s g f).drbg = s.drbg := rfl
@[simp] theorem modRegs_sec (g : Nat) (f : GalRegs → GalRegs) : (modRegs s g f).sec = s.sec := rfl
@[simp] theorem modRegs_power (g : Nat) (f : GalRegs → GalRegs) : (modRegs s g f).power = s.power := rfl
@[simp] theorem modRegs_mon (g : Nat) (f : GalRegs → GalRegs) : (modRegs s g f).mon = s.mon := rfl

/-! ### modCabRegs -/

@[simp] theorem modCabRegs_pending (g : Nat) (f : CabRegs → CabRegs) : (modCabRegs s g f).pending = s.pending := rfl
@[simp] theorem modCabRegs_freeCount (g : Nat) (f : CabRegs → CabRegs) : (modCabRegs s g f).freeCount = s.freeCount := rfl
@[simp] theorem modCabRegs_hostMem (g : Nat) (f : CabRegs → CabRegs) : (modCabRegs s g f).hostMem = s.hostMem := rfl
@[simp] theorem modCabRegs_fuses (g : Nat) (f : CabRegs → CabRegs) : (modCabRegs s g f).fuses = s.fuses := rfl
@[simp] theorem modCabRegs_flash (g : Nat) (f : CabRegs → CabRegs) : (modCabRegs s g f).flash = s.flash := rfl
@[simp] theorem modCabRegs_time (g : Nat) (f : CabRegs → CabRegs) : (modCabRegs s g f).time = s.time := rfl
@[simp] theorem modCabRegs_bridge (g : Nat) (f : CabRegs → CabRegs) : (modCabRegs s g f).bridge = s.bridge := rfl
@[simp] theorem modCabRegs_useLog (g : Nat) (f : CabRegs → CabRegs) : (modCabRegs s g f).useLog = s.useLog := rfl
@[simp] theorem modCabRegs_held (g : Nat) (f : CabRegs → CabRegs) : (modCabRegs s g f).held = s.held := rfl
@[simp] theorem modCabRegs_cat (g : Nat) (f : CabRegs → CabRegs) : (modCabRegs s g f).cat = s.cat := rfl
@[simp] theorem modCabRegs_rst (g : Nat) (f : CabRegs → CabRegs) : (modCabRegs s g f).rst = s.rst := rfl
@[simp] theorem modCabRegs_tours (g : Nat) (f : CabRegs → CabRegs) : (modCabRegs s g f).tours = s.tours := rfl
@[simp] theorem modCabRegs_booked (g : Nat) (f : CabRegs → CabRegs) : (modCabRegs s g f).booked = s.booked := rfl
@[simp] theorem modCabRegs_dma (g : Nat) (f : CabRegs → CabRegs) : (modCabRegs s g f).dma = s.dma := rfl
@[simp] theorem modCabRegs_hbm (g : Nat) (f : CabRegs → CabRegs) : (modCabRegs s g f).hbm = s.hbm := rfl
@[simp] theorem modCabRegs_vault (g : Nat) (f : CabRegs → CabRegs) : (modCabRegs s g f).vault = s.vault := rfl
@[simp] theorem modCabRegs_host (g : Nat) (f : CabRegs → CabRegs) : (modCabRegs s g f).host = s.host := rfl
@[simp] theorem modCabRegs_fab (g : Nat) (f : CabRegs → CabRegs) : (modCabRegs s g f).fab = s.fab := rfl
@[simp] theorem modCabRegs_health (g : Nat) (f : CabRegs → CabRegs) : (modCabRegs s g f).health = s.health := rfl
@[simp] theorem modCabRegs_drbg (g : Nat) (f : CabRegs → CabRegs) : (modCabRegs s g f).drbg = s.drbg := rfl
@[simp] theorem modCabRegs_sec (g : Nat) (f : CabRegs → CabRegs) : (modCabRegs s g f).sec = s.sec := rfl
@[simp] theorem modCabRegs_power (g : Nat) (f : CabRegs → CabRegs) : (modCabRegs s g f).power = s.power := rfl
@[simp] theorem modCabRegs_mon (g : Nat) (f : CabRegs → CabRegs) : (modCabRegs s g f).mon = s.mon := rfl

/-! ### modInv -/

@[simp] theorem modInv_pending (g : Nat) (f : InvGal → InvGal) : (modInv s g f).pending = s.pending := rfl
@[simp] theorem modInv_freeCount (g : Nat) (f : InvGal → InvGal) : (modInv s g f).freeCount = s.freeCount := rfl
@[simp] theorem modInv_hostMem (g : Nat) (f : InvGal → InvGal) : (modInv s g f).hostMem = s.hostMem := rfl
@[simp] theorem modInv_fuses (g : Nat) (f : InvGal → InvGal) : (modInv s g f).fuses = s.fuses := rfl
@[simp] theorem modInv_flash (g : Nat) (f : InvGal → InvGal) : (modInv s g f).flash = s.flash := rfl
@[simp] theorem modInv_time (g : Nat) (f : InvGal → InvGal) : (modInv s g f).time = s.time := rfl
@[simp] theorem modInv_bridge (g : Nat) (f : InvGal → InvGal) : (modInv s g f).bridge = s.bridge := rfl
@[simp] theorem modInv_useLog (g : Nat) (f : InvGal → InvGal) : (modInv s g f).useLog = s.useLog := rfl
@[simp] theorem modInv_held (g : Nat) (f : InvGal → InvGal) : (modInv s g f).held = s.held := rfl
@[simp] theorem modInv_cat (g : Nat) (f : InvGal → InvGal) : (modInv s g f).cat = s.cat := rfl
@[simp] theorem modInv_rst (g : Nat) (f : InvGal → InvGal) : (modInv s g f).rst = s.rst := rfl
@[simp] theorem modInv_tours (g : Nat) (f : InvGal → InvGal) : (modInv s g f).tours = s.tours := rfl
@[simp] theorem modInv_booked (g : Nat) (f : InvGal → InvGal) : (modInv s g f).booked = s.booked := rfl
@[simp] theorem modInv_dma (g : Nat) (f : InvGal → InvGal) : (modInv s g f).dma = s.dma := rfl
@[simp] theorem modInv_hbm (g : Nat) (f : InvGal → InvGal) : (modInv s g f).hbm = s.hbm := rfl
@[simp] theorem modInv_vault (g : Nat) (f : InvGal → InvGal) : (modInv s g f).vault = s.vault := rfl
@[simp] theorem modInv_host (g : Nat) (f : InvGal → InvGal) : (modInv s g f).host = s.host := rfl
@[simp] theorem modInv_fab (g : Nat) (f : InvGal → InvGal) : (modInv s g f).fab = s.fab := rfl
@[simp] theorem modInv_health (g : Nat) (f : InvGal → InvGal) : (modInv s g f).health = s.health := rfl
@[simp] theorem modInv_drbg (g : Nat) (f : InvGal → InvGal) : (modInv s g f).drbg = s.drbg := rfl
@[simp] theorem modInv_sec (g : Nat) (f : InvGal → InvGal) : (modInv s g f).sec = s.sec := rfl
@[simp] theorem modInv_power (g : Nat) (f : InvGal → InvGal) : (modInv s g f).power = s.power := rfl
@[simp] theorem modInv_mon (g : Nat) (f : InvGal → InvGal) : (modInv s g f).mon = s.mon := rfl

/-! ### modWork -/

@[simp] theorem modWork_pending (g : Nat) (f : Work → Work) : (modWork s g f).pending = s.pending := rfl
@[simp] theorem modWork_freeCount (g : Nat) (f : Work → Work) : (modWork s g f).freeCount = s.freeCount := rfl
@[simp] theorem modWork_hostMem (g : Nat) (f : Work → Work) : (modWork s g f).hostMem = s.hostMem := rfl
@[simp] theorem modWork_fuses (g : Nat) (f : Work → Work) : (modWork s g f).fuses = s.fuses := rfl
@[simp] theorem modWork_flash (g : Nat) (f : Work → Work) : (modWork s g f).flash = s.flash := rfl
@[simp] theorem modWork_time (g : Nat) (f : Work → Work) : (modWork s g f).time = s.time := rfl
@[simp] theorem modWork_bridge (g : Nat) (f : Work → Work) : (modWork s g f).bridge = s.bridge := rfl
@[simp] theorem modWork_useLog (g : Nat) (f : Work → Work) : (modWork s g f).useLog = s.useLog := rfl
@[simp] theorem modWork_held (g : Nat) (f : Work → Work) : (modWork s g f).held = s.held := rfl
@[simp] theorem modWork_cat (g : Nat) (f : Work → Work) : (modWork s g f).cat = s.cat := rfl
@[simp] theorem modWork_rst (g : Nat) (f : Work → Work) : (modWork s g f).rst = s.rst := rfl
@[simp] theorem modWork_tours (g : Nat) (f : Work → Work) : (modWork s g f).tours = s.tours := rfl
@[simp] theorem modWork_booked (g : Nat) (f : Work → Work) : (modWork s g f).booked = s.booked := rfl
@[simp] theorem modWork_dma (g : Nat) (f : Work → Work) : (modWork s g f).dma = s.dma := rfl
@[simp] theorem modWork_hbm (g : Nat) (f : Work → Work) : (modWork s g f).hbm = s.hbm := rfl
@[simp] theorem modWork_vault (g : Nat) (f : Work → Work) : (modWork s g f).vault = s.vault := rfl
@[simp] theorem modWork_host (g : Nat) (f : Work → Work) : (modWork s g f).host = s.host := rfl
@[simp] theorem modWork_fab (g : Nat) (f : Work → Work) : (modWork s g f).fab = s.fab := rfl
@[simp] theorem modWork_health (g : Nat) (f : Work → Work) : (modWork s g f).health = s.health := rfl
@[simp] theorem modWork_drbg (g : Nat) (f : Work → Work) : (modWork s g f).drbg = s.drbg := rfl
@[simp] theorem modWork_sec (g : Nat) (f : Work → Work) : (modWork s g f).sec = s.sec := rfl
@[simp] theorem modWork_power (g : Nat) (f : Work → Work) : (modWork s g f).power = s.power := rfl
@[simp] theorem modWork_mon (g : Nat) (f : Work → Work) : (modWork s g f).mon = s.mon := rfl

/-! ### setRgn -/

@[simp] theorem setRgn_pending (g r : Nat) (x : Region) : (setRgn s g r x).pending = s.pending := rfl
@[simp] theorem setRgn_freeCount (g r : Nat) (x : Region) : (setRgn s g r x).freeCount = s.freeCount := rfl
@[simp] theorem setRgn_hostMem (g r : Nat) (x : Region) : (setRgn s g r x).hostMem = s.hostMem := rfl
@[simp] theorem setRgn_fuses (g r : Nat) (x : Region) : (setRgn s g r x).fuses = s.fuses := rfl
@[simp] theorem setRgn_flash (g r : Nat) (x : Region) : (setRgn s g r x).flash = s.flash := rfl
@[simp] theorem setRgn_time (g r : Nat) (x : Region) : (setRgn s g r x).time = s.time := rfl
@[simp] theorem setRgn_bridge (g r : Nat) (x : Region) : (setRgn s g r x).bridge = s.bridge := rfl
@[simp] theorem setRgn_useLog (g r : Nat) (x : Region) : (setRgn s g r x).useLog = s.useLog := rfl
@[simp] theorem setRgn_held (g r : Nat) (x : Region) : (setRgn s g r x).held = s.held := rfl
@[simp] theorem setRgn_cat (g r : Nat) (x : Region) : (setRgn s g r x).cat = s.cat := rfl
@[simp] theorem setRgn_rst (g r : Nat) (x : Region) : (setRgn s g r x).rst = s.rst := rfl
@[simp] theorem setRgn_tours (g r : Nat) (x : Region) : (setRgn s g r x).tours = s.tours := rfl
@[simp] theorem setRgn_booked (g r : Nat) (x : Region) : (setRgn s g r x).booked = s.booked := rfl
@[simp] theorem setRgn_dma (g r : Nat) (x : Region) : (setRgn s g r x).dma = s.dma := rfl
@[simp] theorem setRgn_hbm (g r : Nat) (x : Region) : (setRgn s g r x).hbm = s.hbm := rfl
@[simp] theorem setRgn_vault (g r : Nat) (x : Region) : (setRgn s g r x).vault = s.vault := rfl
@[simp] theorem setRgn_host (g r : Nat) (x : Region) : (setRgn s g r x).host = s.host := rfl
@[simp] theorem setRgn_fab (g r : Nat) (x : Region) : (setRgn s g r x).fab = s.fab := rfl
@[simp] theorem setRgn_health (g r : Nat) (x : Region) : (setRgn s g r x).health = s.health := rfl
@[simp] theorem setRgn_drbg (g r : Nat) (x : Region) : (setRgn s g r x).drbg = s.drbg := rfl
@[simp] theorem setRgn_sec (g r : Nat) (x : Region) : (setRgn s g r x).sec = s.sec := rfl
@[simp] theorem setRgn_power (g r : Nat) (x : Region) : (setRgn s g r x).power = s.power := rfl
@[simp] theorem setRgn_mon (g r : Nat) (x : Region) : (setRgn s g r x).mon = s.mon := rfl

/-! ### modRgn -/

@[simp] theorem modRgn_pending (g r : Nat) (f : Region → Region) : (modRgn s g r f).pending = s.pending := rfl
@[simp] theorem modRgn_freeCount (g r : Nat) (f : Region → Region) : (modRgn s g r f).freeCount = s.freeCount := rfl
@[simp] theorem modRgn_hostMem (g r : Nat) (f : Region → Region) : (modRgn s g r f).hostMem = s.hostMem := rfl
@[simp] theorem modRgn_fuses (g r : Nat) (f : Region → Region) : (modRgn s g r f).fuses = s.fuses := rfl
@[simp] theorem modRgn_flash (g r : Nat) (f : Region → Region) : (modRgn s g r f).flash = s.flash := rfl
@[simp] theorem modRgn_time (g r : Nat) (f : Region → Region) : (modRgn s g r f).time = s.time := rfl
@[simp] theorem modRgn_bridge (g r : Nat) (f : Region → Region) : (modRgn s g r f).bridge = s.bridge := rfl
@[simp] theorem modRgn_useLog (g r : Nat) (f : Region → Region) : (modRgn s g r f).useLog = s.useLog := rfl
@[simp] theorem modRgn_held (g r : Nat) (f : Region → Region) : (modRgn s g r f).held = s.held := rfl
@[simp] theorem modRgn_cat (g r : Nat) (f : Region → Region) : (modRgn s g r f).cat = s.cat := rfl
@[simp] theorem modRgn_rst (g r : Nat) (f : Region → Region) : (modRgn s g r f).rst = s.rst := rfl
@[simp] theorem modRgn_tours (g r : Nat) (f : Region → Region) : (modRgn s g r f).tours = s.tours := rfl
@[simp] theorem modRgn_booked (g r : Nat) (f : Region → Region) : (modRgn s g r f).booked = s.booked := rfl
@[simp] theorem modRgn_dma (g r : Nat) (f : Region → Region) : (modRgn s g r f).dma = s.dma := rfl
@[simp] theorem modRgn_hbm (g r : Nat) (f : Region → Region) : (modRgn s g r f).hbm = s.hbm := rfl
@[simp] theorem modRgn_vault (g r : Nat) (f : Region → Region) : (modRgn s g r f).vault = s.vault := rfl
@[simp] theorem modRgn_host (g r : Nat) (f : Region → Region) : (modRgn s g r f).host = s.host := rfl
@[simp] theorem modRgn_fab (g r : Nat) (f : Region → Region) : (modRgn s g r f).fab = s.fab := rfl
@[simp] theorem modRgn_health (g r : Nat) (f : Region → Region) : (modRgn s g r f).health = s.health := rfl
@[simp] theorem modRgn_drbg (g r : Nat) (f : Region → Region) : (modRgn s g r f).drbg = s.drbg := rfl
@[simp] theorem modRgn_sec (g r : Nat) (f : Region → Region) : (modRgn s g r f).sec = s.sec := rfl
@[simp] theorem modRgn_power (g r : Nat) (f : Region → Region) : (modRgn s g r f).power = s.power := rfl
@[simp] theorem modRgn_mon (g r : Nat) (f : Region → Region) : (modRgn s g r f).mon = s.mon := rfl

/-! ### modStk -/

@[simp] theorem modStk_pending (k : Nat) (f : Stack → Stack) : (modStk s k f).pending = s.pending := rfl
@[simp] theorem modStk_freeCount (k : Nat) (f : Stack → Stack) : (modStk s k f).freeCount = s.freeCount := rfl
@[simp] theorem modStk_hostMem (k : Nat) (f : Stack → Stack) : (modStk s k f).hostMem = s.hostMem := rfl
@[simp] theorem modStk_fuses (k : Nat) (f : Stack → Stack) : (modStk s k f).fuses = s.fuses := rfl
@[simp] theorem modStk_flash (k : Nat) (f : Stack → Stack) : (modStk s k f).flash = s.flash := rfl
@[simp] theorem modStk_time (k : Nat) (f : Stack → Stack) : (modStk s k f).time = s.time := rfl
@[simp] theorem modStk_gals (k : Nat) (f : Stack → Stack) : (modStk s k f).gals = s.gals := rfl
@[simp] theorem modStk_bridge (k : Nat) (f : Stack → Stack) : (modStk s k f).bridge = s.bridge := rfl
@[simp] theorem modStk_useLog (k : Nat) (f : Stack → Stack) : (modStk s k f).useLog = s.useLog := rfl
@[simp] theorem modStk_held (k : Nat) (f : Stack → Stack) : (modStk s k f).held = s.held := rfl
@[simp] theorem modStk_cat (k : Nat) (f : Stack → Stack) : (modStk s k f).cat = s.cat := rfl
@[simp] theorem modStk_rst (k : Nat) (f : Stack → Stack) : (modStk s k f).rst = s.rst := rfl
@[simp] theorem modStk_tours (k : Nat) (f : Stack → Stack) : (modStk s k f).tours = s.tours := rfl
@[simp] theorem modStk_booked (k : Nat) (f : Stack → Stack) : (modStk s k f).booked = s.booked := rfl
@[simp] theorem modStk_dma (k : Nat) (f : Stack → Stack) : (modStk s k f).dma = s.dma := rfl
@[simp] theorem modStk_vault (k : Nat) (f : Stack → Stack) : (modStk s k f).vault = s.vault := rfl
@[simp] theorem modStk_host (k : Nat) (f : Stack → Stack) : (modStk s k f).host = s.host := rfl
@[simp] theorem modStk_fab (k : Nat) (f : Stack → Stack) : (modStk s k f).fab = s.fab := rfl
@[simp] theorem modStk_health (k : Nat) (f : Stack → Stack) : (modStk s k f).health = s.health := rfl
@[simp] theorem modStk_drbg (k : Nat) (f : Stack → Stack) : (modStk s k f).drbg = s.drbg := rfl
@[simp] theorem modStk_sec (k : Nat) (f : Stack → Stack) : (modStk s k f).sec = s.sec := rfl
@[simp] theorem modStk_power (k : Nat) (f : Stack → Stack) : (modStk s k f).power = s.power := rfl
@[simp] theorem modStk_mon (k : Nat) (f : Stack → Stack) : (modStk s k f).mon = s.mon := rfl

/-! ### modChan -/

@[simp] theorem modChan_pending (k : Nat) (f : Channel → Channel) : (modChan s k f).pending = s.pending := rfl
@[simp] theorem modChan_freeCount (k : Nat) (f : Channel → Channel) : (modChan s k f).freeCount = s.freeCount := rfl
@[simp] theorem modChan_hostMem (k : Nat) (f : Channel → Channel) : (modChan s k f).hostMem = s.hostMem := rfl
@[simp] theorem modChan_fuses (k : Nat) (f : Channel → Channel) : (modChan s k f).fuses = s.fuses := rfl
@[simp] theorem modChan_flash (k : Nat) (f : Channel → Channel) : (modChan s k f).flash = s.flash := rfl
@[simp] theorem modChan_time (k : Nat) (f : Channel → Channel) : (modChan s k f).time = s.time := rfl
@[simp] theorem modChan_gals (k : Nat) (f : Channel → Channel) : (modChan s k f).gals = s.gals := rfl
@[simp] theorem modChan_bridge (k : Nat) (f : Channel → Channel) : (modChan s k f).bridge = s.bridge := rfl
@[simp] theorem modChan_useLog (k : Nat) (f : Channel → Channel) : (modChan s k f).useLog = s.useLog := rfl
@[simp] theorem modChan_held (k : Nat) (f : Channel → Channel) : (modChan s k f).held = s.held := rfl
@[simp] theorem modChan_cat (k : Nat) (f : Channel → Channel) : (modChan s k f).cat = s.cat := rfl
@[simp] theorem modChan_rst (k : Nat) (f : Channel → Channel) : (modChan s k f).rst = s.rst := rfl
@[simp] theorem modChan_tours (k : Nat) (f : Channel → Channel) : (modChan s k f).tours = s.tours := rfl
@[simp] theorem modChan_booked (k : Nat) (f : Channel → Channel) : (modChan s k f).booked = s.booked := rfl
@[simp] theorem modChan_hbm (k : Nat) (f : Channel → Channel) : (modChan s k f).hbm = s.hbm := rfl
@[simp] theorem modChan_vault (k : Nat) (f : Channel → Channel) : (modChan s k f).vault = s.vault := rfl
@[simp] theorem modChan_host (k : Nat) (f : Channel → Channel) : (modChan s k f).host = s.host := rfl
@[simp] theorem modChan_fab (k : Nat) (f : Channel → Channel) : (modChan s k f).fab = s.fab := rfl
@[simp] theorem modChan_health (k : Nat) (f : Channel → Channel) : (modChan s k f).health = s.health := rfl
@[simp] theorem modChan_drbg (k : Nat) (f : Channel → Channel) : (modChan s k f).drbg = s.drbg := rfl
@[simp] theorem modChan_sec (k : Nat) (f : Channel → Channel) : (modChan s k f).sec = s.sec := rfl
@[simp] theorem modChan_power (k : Nat) (f : Channel → Channel) : (modChan s k f).power = s.power := rfl
@[simp] theorem modChan_mon (k : Nat) (f : Channel → Channel) : (modChan s k f).mon = s.mon := rfl

/-! ### modQp -/

@[simp] theorem modQp_pending (k : Nat) (f : Qp → Qp) : (modQp s k f).pending = s.pending := rfl
@[simp] theorem modQp_freeCount (k : Nat) (f : Qp → Qp) : (modQp s k f).freeCount = s.freeCount := rfl
@[simp] theorem modQp_hostMem (k : Nat) (f : Qp → Qp) : (modQp s k f).hostMem = s.hostMem := rfl
@[simp] theorem modQp_fuses (k : Nat) (f : Qp → Qp) : (modQp s k f).fuses = s.fuses := rfl
@[simp] theorem modQp_flash (k : Nat) (f : Qp → Qp) : (modQp s k f).flash = s.flash := rfl
@[simp] theorem modQp_time (k : Nat) (f : Qp → Qp) : (modQp s k f).time = s.time := rfl
@[simp] theorem modQp_gals (k : Nat) (f : Qp → Qp) : (modQp s k f).gals = s.gals := rfl
@[simp] theorem modQp_bridge (k : Nat) (f : Qp → Qp) : (modQp s k f).bridge = s.bridge := rfl
@[simp] theorem modQp_useLog (k : Nat) (f : Qp → Qp) : (modQp s k f).useLog = s.useLog := rfl
@[simp] theorem modQp_held (k : Nat) (f : Qp → Qp) : (modQp s k f).held = s.held := rfl
@[simp] theorem modQp_cat (k : Nat) (f : Qp → Qp) : (modQp s k f).cat = s.cat := rfl
@[simp] theorem modQp_rst (k : Nat) (f : Qp → Qp) : (modQp s k f).rst = s.rst := rfl
@[simp] theorem modQp_tours (k : Nat) (f : Qp → Qp) : (modQp s k f).tours = s.tours := rfl
@[simp] theorem modQp_booked (k : Nat) (f : Qp → Qp) : (modQp s k f).booked = s.booked := rfl
@[simp] theorem modQp_dma (k : Nat) (f : Qp → Qp) : (modQp s k f).dma = s.dma := rfl
@[simp] theorem modQp_hbm (k : Nat) (f : Qp → Qp) : (modQp s k f).hbm = s.hbm := rfl
@[simp] theorem modQp_vault (k : Nat) (f : Qp → Qp) : (modQp s k f).vault = s.vault := rfl
@[simp] theorem modQp_fab (k : Nat) (f : Qp → Qp) : (modQp s k f).fab = s.fab := rfl
@[simp] theorem modQp_health (k : Nat) (f : Qp → Qp) : (modQp s k f).health = s.health := rfl
@[simp] theorem modQp_drbg (k : Nat) (f : Qp → Qp) : (modQp s k f).drbg = s.drbg := rfl
@[simp] theorem modQp_sec (k : Nat) (f : Qp → Qp) : (modQp s k f).sec = s.sec := rfl
@[simp] theorem modQp_power (k : Nat) (f : Qp → Qp) : (modQp s k f).power = s.power := rfl
@[simp] theorem modQp_mon (k : Nat) (f : Qp → Qp) : (modQp s k f).mon = s.mon := rfl

/-! ### modPort -/

@[simp] theorem modPort_pending (k : Nat) (f : Port → Port) : (modPort s k f).pending = s.pending := rfl
@[simp] theorem modPort_freeCount (k : Nat) (f : Port → Port) : (modPort s k f).freeCount = s.freeCount := rfl
@[simp] theorem modPort_hostMem (k : Nat) (f : Port → Port) : (modPort s k f).hostMem = s.hostMem := rfl
@[simp] theorem modPort_fuses (k : Nat) (f : Port → Port) : (modPort s k f).fuses = s.fuses := rfl
@[simp] theorem modPort_flash (k : Nat) (f : Port → Port) : (modPort s k f).flash = s.flash := rfl
@[simp] theorem modPort_time (k : Nat) (f : Port → Port) : (modPort s k f).time = s.time := rfl
@[simp] theorem modPort_gals (k : Nat) (f : Port → Port) : (modPort s k f).gals = s.gals := rfl
@[simp] theorem modPort_bridge (k : Nat) (f : Port → Port) : (modPort s k f).bridge = s.bridge := rfl
@[simp] theorem modPort_useLog (k : Nat) (f : Port → Port) : (modPort s k f).useLog = s.useLog := rfl
@[simp] theorem modPort_held (k : Nat) (f : Port → Port) : (modPort s k f).held = s.held := rfl
@[simp] theorem modPort_cat (k : Nat) (f : Port → Port) : (modPort s k f).cat = s.cat := rfl
@[simp] theorem modPort_rst (k : Nat) (f : Port → Port) : (modPort s k f).rst = s.rst := rfl
@[simp] theorem modPort_tours (k : Nat) (f : Port → Port) : (modPort s k f).tours = s.tours := rfl
@[simp] theorem modPort_booked (k : Nat) (f : Port → Port) : (modPort s k f).booked = s.booked := rfl
@[simp] theorem modPort_dma (k : Nat) (f : Port → Port) : (modPort s k f).dma = s.dma := rfl
@[simp] theorem modPort_hbm (k : Nat) (f : Port → Port) : (modPort s k f).hbm = s.hbm := rfl
@[simp] theorem modPort_vault (k : Nat) (f : Port → Port) : (modPort s k f).vault = s.vault := rfl
@[simp] theorem modPort_host (k : Nat) (f : Port → Port) : (modPort s k f).host = s.host := rfl
@[simp] theorem modPort_health (k : Nat) (f : Port → Port) : (modPort s k f).health = s.health := rfl
@[simp] theorem modPort_drbg (k : Nat) (f : Port → Port) : (modPort s k f).drbg = s.drbg := rfl
@[simp] theorem modPort_sec (k : Nat) (f : Port → Port) : (modPort s k f).sec = s.sec := rfl
@[simp] theorem modPort_power (k : Nat) (f : Port → Port) : (modPort s k f).power = s.power := rfl
@[simp] theorem modPort_mon (k : Nat) (f : Port → Port) : (modPort s k f).mon = s.mon := rfl

/-! ### modWin -/

@[simp] theorem modWin_pending (k : Nat) (f : LoanWindow → LoanWindow) : (modWin s k f).pending = s.pending := rfl
@[simp] theorem modWin_freeCount (k : Nat) (f : LoanWindow → LoanWindow) : (modWin s k f).freeCount = s.freeCount := rfl
@[simp] theorem modWin_hostMem (k : Nat) (f : LoanWindow → LoanWindow) : (modWin s k f).hostMem = s.hostMem := rfl
@[simp] theorem modWin_fuses (k : Nat) (f : LoanWindow → LoanWindow) : (modWin s k f).fuses = s.fuses := rfl
@[simp] theorem modWin_flash (k : Nat) (f : LoanWindow → LoanWindow) : (modWin s k f).flash = s.flash := rfl
@[simp] theorem modWin_time (k : Nat) (f : LoanWindow → LoanWindow) : (modWin s k f).time = s.time := rfl
@[simp] theorem modWin_gals (k : Nat) (f : LoanWindow → LoanWindow) : (modWin s k f).gals = s.gals := rfl
@[simp] theorem modWin_bridge (k : Nat) (f : LoanWindow → LoanWindow) : (modWin s k f).bridge = s.bridge := rfl
@[simp] theorem modWin_useLog (k : Nat) (f : LoanWindow → LoanWindow) : (modWin s k f).useLog = s.useLog := rfl
@[simp] theorem modWin_held (k : Nat) (f : LoanWindow → LoanWindow) : (modWin s k f).held = s.held := rfl
@[simp] theorem modWin_cat (k : Nat) (f : LoanWindow → LoanWindow) : (modWin s k f).cat = s.cat := rfl
@[simp] theorem modWin_rst (k : Nat) (f : LoanWindow → LoanWindow) : (modWin s k f).rst = s.rst := rfl
@[simp] theorem modWin_tours (k : Nat) (f : LoanWindow → LoanWindow) : (modWin s k f).tours = s.tours := rfl
@[simp] theorem modWin_booked (k : Nat) (f : LoanWindow → LoanWindow) : (modWin s k f).booked = s.booked := rfl
@[simp] theorem modWin_dma (k : Nat) (f : LoanWindow → LoanWindow) : (modWin s k f).dma = s.dma := rfl
@[simp] theorem modWin_hbm (k : Nat) (f : LoanWindow → LoanWindow) : (modWin s k f).hbm = s.hbm := rfl
@[simp] theorem modWin_vault (k : Nat) (f : LoanWindow → LoanWindow) : (modWin s k f).vault = s.vault := rfl
@[simp] theorem modWin_host (k : Nat) (f : LoanWindow → LoanWindow) : (modWin s k f).host = s.host := rfl
@[simp] theorem modWin_health (k : Nat) (f : LoanWindow → LoanWindow) : (modWin s k f).health = s.health := rfl
@[simp] theorem modWin_drbg (k : Nat) (f : LoanWindow → LoanWindow) : (modWin s k f).drbg = s.drbg := rfl
@[simp] theorem modWin_sec (k : Nat) (f : LoanWindow → LoanWindow) : (modWin s k f).sec = s.sec := rfl
@[simp] theorem modWin_power (k : Nat) (f : LoanWindow → LoanWindow) : (modWin s k f).power = s.power := rfl
@[simp] theorem modWin_mon (k : Nat) (f : LoanWindow → LoanWindow) : (modWin s k f).mon = s.mon := rfl

/-! ### modGroup -/

@[simp] theorem modGroup_pending (k : Nat) (f : Group → Group) : (modGroup s k f).pending = s.pending := rfl
@[simp] theorem modGroup_freeCount (k : Nat) (f : Group → Group) : (modGroup s k f).freeCount = s.freeCount := rfl
@[simp] theorem modGroup_hostMem (k : Nat) (f : Group → Group) : (modGroup s k f).hostMem = s.hostMem := rfl
@[simp] theorem modGroup_fuses (k : Nat) (f : Group → Group) : (modGroup s k f).fuses = s.fuses := rfl
@[simp] theorem modGroup_flash (k : Nat) (f : Group → Group) : (modGroup s k f).flash = s.flash := rfl
@[simp] theorem modGroup_time (k : Nat) (f : Group → Group) : (modGroup s k f).time = s.time := rfl
@[simp] theorem modGroup_gals (k : Nat) (f : Group → Group) : (modGroup s k f).gals = s.gals := rfl
@[simp] theorem modGroup_bridge (k : Nat) (f : Group → Group) : (modGroup s k f).bridge = s.bridge := rfl
@[simp] theorem modGroup_useLog (k : Nat) (f : Group → Group) : (modGroup s k f).useLog = s.useLog := rfl
@[simp] theorem modGroup_held (k : Nat) (f : Group → Group) : (modGroup s k f).held = s.held := rfl
@[simp] theorem modGroup_cat (k : Nat) (f : Group → Group) : (modGroup s k f).cat = s.cat := rfl
@[simp] theorem modGroup_rst (k : Nat) (f : Group → Group) : (modGroup s k f).rst = s.rst := rfl
@[simp] theorem modGroup_tours (k : Nat) (f : Group → Group) : (modGroup s k f).tours = s.tours := rfl
@[simp] theorem modGroup_booked (k : Nat) (f : Group → Group) : (modGroup s k f).booked = s.booked := rfl
@[simp] theorem modGroup_dma (k : Nat) (f : Group → Group) : (modGroup s k f).dma = s.dma := rfl
@[simp] theorem modGroup_hbm (k : Nat) (f : Group → Group) : (modGroup s k f).hbm = s.hbm := rfl
@[simp] theorem modGroup_vault (k : Nat) (f : Group → Group) : (modGroup s k f).vault = s.vault := rfl
@[simp] theorem modGroup_host (k : Nat) (f : Group → Group) : (modGroup s k f).host = s.host := rfl
@[simp] theorem modGroup_health (k : Nat) (f : Group → Group) : (modGroup s k f).health = s.health := rfl
@[simp] theorem modGroup_drbg (k : Nat) (f : Group → Group) : (modGroup s k f).drbg = s.drbg := rfl
@[simp] theorem modGroup_sec (k : Nat) (f : Group → Group) : (modGroup s k f).sec = s.sec := rfl
@[simp] theorem modGroup_power (k : Nat) (f : Group → Group) : (modGroup s k f).power = s.power := rfl
@[simp] theorem modGroup_mon (k : Nat) (f : Group → Group) : (modGroup s k f).mon = s.mon := rfl

/-! ### modUnit -/

@[simp] theorem modUnit_pending (k : Nat) (f : Unit16 → Unit16) : (modUnit s k f).pending = s.pending := rfl
@[simp] theorem modUnit_freeCount (k : Nat) (f : Unit16 → Unit16) : (modUnit s k f).freeCount = s.freeCount := rfl
@[simp] theorem modUnit_hostMem (k : Nat) (f : Unit16 → Unit16) : (modUnit s k f).hostMem = s.hostMem := rfl
@[simp] theorem modUnit_fuses (k : Nat) (f : Unit16 → Unit16) : (modUnit s k f).fuses = s.fuses := rfl
@[simp] theorem modUnit_flash (k : Nat) (f : Unit16 → Unit16) : (modUnit s k f).flash = s.flash := rfl
@[simp] theorem modUnit_time (k : Nat) (f : Unit16 → Unit16) : (modUnit s k f).time = s.time := rfl
@[simp] theorem modUnit_gals (k : Nat) (f : Unit16 → Unit16) : (modUnit s k f).gals = s.gals := rfl
@[simp] theorem modUnit_bridge (k : Nat) (f : Unit16 → Unit16) : (modUnit s k f).bridge = s.bridge := rfl
@[simp] theorem modUnit_useLog (k : Nat) (f : Unit16 → Unit16) : (modUnit s k f).useLog = s.useLog := rfl
@[simp] theorem modUnit_held (k : Nat) (f : Unit16 → Unit16) : (modUnit s k f).held = s.held := rfl
@[simp] theorem modUnit_cat (k : Nat) (f : Unit16 → Unit16) : (modUnit s k f).cat = s.cat := rfl
@[simp] theorem modUnit_rst (k : Nat) (f : Unit16 → Unit16) : (modUnit s k f).rst = s.rst := rfl
@[simp] theorem modUnit_tours (k : Nat) (f : Unit16 → Unit16) : (modUnit s k f).tours = s.tours := rfl
@[simp] theorem modUnit_booked (k : Nat) (f : Unit16 → Unit16) : (modUnit s k f).booked = s.booked := rfl
@[simp] theorem modUnit_dma (k : Nat) (f : Unit16 → Unit16) : (modUnit s k f).dma = s.dma := rfl
@[simp] theorem modUnit_hbm (k : Nat) (f : Unit16 → Unit16) : (modUnit s k f).hbm = s.hbm := rfl
@[simp] theorem modUnit_vault (k : Nat) (f : Unit16 → Unit16) : (modUnit s k f).vault = s.vault := rfl
@[simp] theorem modUnit_host (k : Nat) (f : Unit16 → Unit16) : (modUnit s k f).host = s.host := rfl
@[simp] theorem modUnit_fab (k : Nat) (f : Unit16 → Unit16) : (modUnit s k f).fab = s.fab := rfl
@[simp] theorem modUnit_health (k : Nat) (f : Unit16 → Unit16) : (modUnit s k f).health = s.health := rfl
@[simp] theorem modUnit_drbg (k : Nat) (f : Unit16 → Unit16) : (modUnit s k f).drbg = s.drbg := rfl
@[simp] theorem modUnit_sec (k : Nat) (f : Unit16 → Unit16) : (modUnit s k f).sec = s.sec := rfl
@[simp] theorem modUnit_power (k : Nat) (f : Unit16 → Unit16) : (modUnit s k f).power = s.power := rfl

/-! ### modHost -/

@[simp] theorem modHost_pending (f : HostPort → HostPort) : (modHost s f).pending = s.pending := rfl
@[simp] theorem modHost_freeCount (f : HostPort → HostPort) : (modHost s f).freeCount = s.freeCount := rfl
@[simp] theorem modHost_hostMem (f : HostPort → HostPort) : (modHost s f).hostMem = s.hostMem := rfl
@[simp] theorem modHost_fuses (f : HostPort → HostPort) : (modHost s f).fuses = s.fuses := rfl
@[simp] theorem modHost_flash (f : HostPort → HostPort) : (modHost s f).flash = s.flash := rfl
@[simp] theorem modHost_time (f : HostPort → HostPort) : (modHost s f).time = s.time := rfl
@[simp] theorem modHost_gals (f : HostPort → HostPort) : (modHost s f).gals = s.gals := rfl
@[simp] theorem modHost_bridge (f : HostPort → HostPort) : (modHost s f).bridge = s.bridge := rfl
@[simp] theorem modHost_useLog (f : HostPort → HostPort) : (modHost s f).useLog = s.useLog := rfl
@[simp] theorem modHost_held (f : HostPort → HostPort) : (modHost s f).held = s.held := rfl
@[simp] theorem modHost_cat (f : HostPort → HostPort) : (modHost s f).cat = s.cat := rfl
@[simp] theorem modHost_rst (f : HostPort → HostPort) : (modHost s f).rst = s.rst := rfl
@[simp] theorem modHost_tours (f : HostPort → HostPort) : (modHost s f).tours = s.tours := rfl
@[simp] theorem modHost_booked (f : HostPort → HostPort) : (modHost s f).booked = s.booked := rfl
@[simp] theorem modHost_dma (f : HostPort → HostPort) : (modHost s f).dma = s.dma := rfl
@[simp] theorem modHost_hbm (f : HostPort → HostPort) : (modHost s f).hbm = s.hbm := rfl
@[simp] theorem modHost_vault (f : HostPort → HostPort) : (modHost s f).vault = s.vault := rfl
@[simp] theorem modHost_fab (f : HostPort → HostPort) : (modHost s f).fab = s.fab := rfl
@[simp] theorem modHost_health (f : HostPort → HostPort) : (modHost s f).health = s.health := rfl
@[simp] theorem modHost_drbg (f : HostPort → HostPort) : (modHost s f).drbg = s.drbg := rfl
@[simp] theorem modHost_sec (f : HostPort → HostPort) : (modHost s f).sec = s.sec := rfl
@[simp] theorem modHost_power (f : HostPort → HostPort) : (modHost s f).power = s.power := rfl
@[simp] theorem modHost_mon (f : HostPort → HostPort) : (modHost s f).mon = s.mon := rfl

/-! ### modPower -/

@[simp] theorem modPower_pending (f : Power → Power) : (modPower s f).pending = s.pending := rfl
@[simp] theorem modPower_freeCount (f : Power → Power) : (modPower s f).freeCount = s.freeCount := rfl
@[simp] theorem modPower_hostMem (f : Power → Power) : (modPower s f).hostMem = s.hostMem := rfl
@[simp] theorem modPower_fuses (f : Power → Power) : (modPower s f).fuses = s.fuses := rfl
@[simp] theorem modPower_flash (f : Power → Power) : (modPower s f).flash = s.flash := rfl
@[simp] theorem modPower_time (f : Power → Power) : (modPower s f).time = s.time := rfl
@[simp] theorem modPower_gals (f : Power → Power) : (modPower s f).gals = s.gals := rfl
@[simp] theorem modPower_bridge (f : Power → Power) : (modPower s f).bridge = s.bridge := rfl
@[simp] theorem modPower_useLog (f : Power → Power) : (modPower s f).useLog = s.useLog := rfl
@[simp] theorem modPower_held (f : Power → Power) : (modPower s f).held = s.held := rfl
@[simp] theorem modPower_cat (f : Power → Power) : (modPower s f).cat = s.cat := rfl
@[simp] theorem modPower_rst (f : Power → Power) : (modPower s f).rst = s.rst := rfl
@[simp] theorem modPower_tours (f : Power → Power) : (modPower s f).tours = s.tours := rfl
@[simp] theorem modPower_booked (f : Power → Power) : (modPower s f).booked = s.booked := rfl
@[simp] theorem modPower_dma (f : Power → Power) : (modPower s f).dma = s.dma := rfl
@[simp] theorem modPower_hbm (f : Power → Power) : (modPower s f).hbm = s.hbm := rfl
@[simp] theorem modPower_vault (f : Power → Power) : (modPower s f).vault = s.vault := rfl
@[simp] theorem modPower_host (f : Power → Power) : (modPower s f).host = s.host := rfl
@[simp] theorem modPower_fab (f : Power → Power) : (modPower s f).fab = s.fab := rfl
@[simp] theorem modPower_health (f : Power → Power) : (modPower s f).health = s.health := rfl
@[simp] theorem modPower_drbg (f : Power → Power) : (modPower s f).drbg = s.drbg := rfl
@[simp] theorem modPower_sec (f : Power → Power) : (modPower s f).sec = s.sec := rfl
@[simp] theorem modPower_mon (f : Power → Power) : (modPower s f).mon = s.mon := rfl

/-! ### modTaps -/

@[simp] theorem modTaps_pending (f : Taps → Taps) : (modTaps s f).pending = s.pending := rfl
@[simp] theorem modTaps_freeCount (f : Taps → Taps) : (modTaps s f).freeCount = s.freeCount := rfl
@[simp] theorem modTaps_hostMem (f : Taps → Taps) : (modTaps s f).hostMem = s.hostMem := rfl
@[simp] theorem modTaps_fuses (f : Taps → Taps) : (modTaps s f).fuses = s.fuses := rfl
@[simp] theorem modTaps_flash (f : Taps → Taps) : (modTaps s f).flash = s.flash := rfl
@[simp] theorem modTaps_time (f : Taps → Taps) : (modTaps s f).time = s.time := rfl
@[simp] theorem modTaps_gals (f : Taps → Taps) : (modTaps s f).gals = s.gals := rfl
@[simp] theorem modTaps_bridge (f : Taps → Taps) : (modTaps s f).bridge = s.bridge := rfl
@[simp] theorem modTaps_useLog (f : Taps → Taps) : (modTaps s f).useLog = s.useLog := rfl
@[simp] theorem modTaps_held (f : Taps → Taps) : (modTaps s f).held = s.held := rfl
@[simp] theorem modTaps_cat (f : Taps → Taps) : (modTaps s f).cat = s.cat := rfl
@[simp] theorem modTaps_rst (f : Taps → Taps) : (modTaps s f).rst = s.rst := rfl
@[simp] theorem modTaps_tours (f : Taps → Taps) : (modTaps s f).tours = s.tours := rfl
@[simp] theorem modTaps_booked (f : Taps → Taps) : (modTaps s f).booked = s.booked := rfl
@[simp] theorem modTaps_dma (f : Taps → Taps) : (modTaps s f).dma = s.dma := rfl
@[simp] theorem modTaps_hbm (f : Taps → Taps) : (modTaps s f).hbm = s.hbm := rfl
@[simp] theorem modTaps_vault (f : Taps → Taps) : (modTaps s f).vault = s.vault := rfl
@[simp] theorem modTaps_host (f : Taps → Taps) : (modTaps s f).host = s.host := rfl
@[simp] theorem modTaps_fab (f : Taps → Taps) : (modTaps s f).fab = s.fab := rfl
@[simp] theorem modTaps_drbg (f : Taps → Taps) : (modTaps s f).drbg = s.drbg := rfl
@[simp] theorem modTaps_sec (f : Taps → Taps) : (modTaps s f).sec = s.sec := rfl
@[simp] theorem modTaps_power (f : Taps → Taps) : (modTaps s f).power = s.power := rfl
@[simp] theorem modTaps_mon (f : Taps → Taps) : (modTaps s f).mon = s.mon := rfl

/-! ### modVault -/

@[simp] theorem modVault_pending (f : Vault → Vault) : (modVault s f).pending = s.pending := rfl
@[simp] theorem modVault_freeCount (f : Vault → Vault) : (modVault s f).freeCount = s.freeCount := rfl
@[simp] theorem modVault_hostMem (f : Vault → Vault) : (modVault s f).hostMem = s.hostMem := rfl
@[simp] theorem modVault_fuses (f : Vault → Vault) : (modVault s f).fuses = s.fuses := rfl
@[simp] theorem modVault_flash (f : Vault → Vault) : (modVault s f).flash = s.flash := rfl
@[simp] theorem modVault_time (f : Vault → Vault) : (modVault s f).time = s.time := rfl
@[simp] theorem modVault_gals (f : Vault → Vault) : (modVault s f).gals = s.gals := rfl
@[simp] theorem modVault_bridge (f : Vault → Vault) : (modVault s f).bridge = s.bridge := rfl
@[simp] theorem modVault_useLog (f : Vault → Vault) : (modVault s f).useLog = s.useLog := rfl
@[simp] theorem modVault_held (f : Vault → Vault) : (modVault s f).held = s.held := rfl
@[simp] theorem modVault_cat (f : Vault → Vault) : (modVault s f).cat = s.cat := rfl
@[simp] theorem modVault_rst (f : Vault → Vault) : (modVault s f).rst = s.rst := rfl
@[simp] theorem modVault_tours (f : Vault → Vault) : (modVault s f).tours = s.tours := rfl
@[simp] theorem modVault_booked (f : Vault → Vault) : (modVault s f).booked = s.booked := rfl
@[simp] theorem modVault_dma (f : Vault → Vault) : (modVault s f).dma = s.dma := rfl
@[simp] theorem modVault_hbm (f : Vault → Vault) : (modVault s f).hbm = s.hbm := rfl
@[simp] theorem modVault_host (f : Vault → Vault) : (modVault s f).host = s.host := rfl
@[simp] theorem modVault_fab (f : Vault → Vault) : (modVault s f).fab = s.fab := rfl
@[simp] theorem modVault_health (f : Vault → Vault) : (modVault s f).health = s.health := rfl
@[simp] theorem modVault_drbg (f : Vault → Vault) : (modVault s f).drbg = s.drbg := rfl
@[simp] theorem modVault_sec (f : Vault → Vault) : (modVault s f).sec = s.sec := rfl
@[simp] theorem modVault_power (f : Vault → Vault) : (modVault s f).power = s.power := rfl
@[simp] theorem modVault_mon (f : Vault → Vault) : (modVault s f).mon = s.mon := rfl

/-! ### modTime -/

@[simp] theorem modTime_pending (f : TimeSt → TimeSt) : (modTime s f).pending = s.pending := rfl
@[simp] theorem modTime_freeCount (f : TimeSt → TimeSt) : (modTime s f).freeCount = s.freeCount := rfl
@[simp] theorem modTime_hostMem (f : TimeSt → TimeSt) : (modTime s f).hostMem = s.hostMem := rfl
@[simp] theorem modTime_fuses (f : TimeSt → TimeSt) : (modTime s f).fuses = s.fuses := rfl
@[simp] theorem modTime_flash (f : TimeSt → TimeSt) : (modTime s f).flash = s.flash := rfl
@[simp] theorem modTime_gals (f : TimeSt → TimeSt) : (modTime s f).gals = s.gals := rfl
@[simp] theorem modTime_bridge (f : TimeSt → TimeSt) : (modTime s f).bridge = s.bridge := rfl
@[simp] theorem modTime_useLog (f : TimeSt → TimeSt) : (modTime s f).useLog = s.useLog := rfl
@[simp] theorem modTime_held (f : TimeSt → TimeSt) : (modTime s f).held = s.held := rfl
@[simp] theorem modTime_cat (f : TimeSt → TimeSt) : (modTime s f).cat = s.cat := rfl
@[simp] theorem modTime_rst (f : TimeSt → TimeSt) : (modTime s f).rst = s.rst := rfl
@[simp] theorem modTime_tours (f : TimeSt → TimeSt) : (modTime s f).tours = s.tours := rfl
@[simp] theorem modTime_booked (f : TimeSt → TimeSt) : (modTime s f).booked = s.booked := rfl
@[simp] theorem modTime_dma (f : TimeSt → TimeSt) : (modTime s f).dma = s.dma := rfl
@[simp] theorem modTime_hbm (f : TimeSt → TimeSt) : (modTime s f).hbm = s.hbm := rfl
@[simp] theorem modTime_vault (f : TimeSt → TimeSt) : (modTime s f).vault = s.vault := rfl
@[simp] theorem modTime_host (f : TimeSt → TimeSt) : (modTime s f).host = s.host := rfl
@[simp] theorem modTime_fab (f : TimeSt → TimeSt) : (modTime s f).fab = s.fab := rfl
@[simp] theorem modTime_health (f : TimeSt → TimeSt) : (modTime s f).health = s.health := rfl
@[simp] theorem modTime_drbg (f : TimeSt → TimeSt) : (modTime s f).drbg = s.drbg := rfl
@[simp] theorem modTime_sec (f : TimeSt → TimeSt) : (modTime s f).sec = s.sec := rfl
@[simp] theorem modTime_power (f : TimeSt → TimeSt) : (modTime s f).power = s.power := rfl
@[simp] theorem modTime_mon (f : TimeSt → TimeSt) : (modTime s f).mon = s.mon := rfl

/-! ### raiseLine -/

@[simp] theorem raiseLine_pending (l n : Nat) : (raiseLine l n s).pending = s.pending := rfl
@[simp] theorem raiseLine_freeCount (l n : Nat) : (raiseLine l n s).freeCount = s.freeCount := rfl
@[simp] theorem raiseLine_hostMem (l n : Nat) : (raiseLine l n s).hostMem = s.hostMem := rfl
@[simp] theorem raiseLine_fuses (l n : Nat) : (raiseLine l n s).fuses = s.fuses := rfl
@[simp] theorem raiseLine_flash (l n : Nat) : (raiseLine l n s).flash = s.flash := rfl
@[simp] theorem raiseLine_time (l n : Nat) : (raiseLine l n s).time = s.time := rfl
@[simp] theorem raiseLine_gals (l n : Nat) : (raiseLine l n s).gals = s.gals := rfl
@[simp] theorem raiseLine_bridge (l n : Nat) : (raiseLine l n s).bridge = s.bridge := rfl
@[simp] theorem raiseLine_useLog (l n : Nat) : (raiseLine l n s).useLog = s.useLog := rfl
@[simp] theorem raiseLine_held (l n : Nat) : (raiseLine l n s).held = s.held := rfl
@[simp] theorem raiseLine_cat (l n : Nat) : (raiseLine l n s).cat = s.cat := rfl
@[simp] theorem raiseLine_rst (l n : Nat) : (raiseLine l n s).rst = s.rst := rfl
@[simp] theorem raiseLine_tours (l n : Nat) : (raiseLine l n s).tours = s.tours := rfl
@[simp] theorem raiseLine_booked (l n : Nat) : (raiseLine l n s).booked = s.booked := rfl
@[simp] theorem raiseLine_hbm (l n : Nat) : (raiseLine l n s).hbm = s.hbm := rfl
@[simp] theorem raiseLine_vault (l n : Nat) : (raiseLine l n s).vault = s.vault := rfl
@[simp] theorem raiseLine_host (l n : Nat) : (raiseLine l n s).host = s.host := rfl
@[simp] theorem raiseLine_fab (l n : Nat) : (raiseLine l n s).fab = s.fab := rfl
@[simp] theorem raiseLine_health (l n : Nat) : (raiseLine l n s).health = s.health := rfl
@[simp] theorem raiseLine_drbg (l n : Nat) : (raiseLine l n s).drbg = s.drbg := rfl
@[simp] theorem raiseLine_sec (l n : Nat) : (raiseLine l n s).sec = s.sec := rfl
@[simp] theorem raiseLine_power (l n : Nat) : (raiseLine l n s).power = s.power := rfl
@[simp] theorem raiseLine_mon (l n : Nat) : (raiseLine l n s).mon = s.mon := rfl

/-! ### takeLine -/

@[simp] theorem takeLine_pending (l : Nat) : (takeLine l s).pending = s.pending := rfl
@[simp] theorem takeLine_freeCount (l : Nat) : (takeLine l s).freeCount = s.freeCount := rfl
@[simp] theorem takeLine_hostMem (l : Nat) : (takeLine l s).hostMem = s.hostMem := rfl
@[simp] theorem takeLine_fuses (l : Nat) : (takeLine l s).fuses = s.fuses := rfl
@[simp] theorem takeLine_flash (l : Nat) : (takeLine l s).flash = s.flash := rfl
@[simp] theorem takeLine_time (l : Nat) : (takeLine l s).time = s.time := rfl
@[simp] theorem takeLine_gals (l : Nat) : (takeLine l s).gals = s.gals := rfl
@[simp] theorem takeLine_bridge (l : Nat) : (takeLine l s).bridge = s.bridge := rfl
@[simp] theorem takeLine_useLog (l : Nat) : (takeLine l s).useLog = s.useLog := rfl
@[simp] theorem takeLine_held (l : Nat) : (takeLine l s).held = s.held := rfl
@[simp] theorem takeLine_cat (l : Nat) : (takeLine l s).cat = s.cat := rfl
@[simp] theorem takeLine_rst (l : Nat) : (takeLine l s).rst = s.rst := rfl
@[simp] theorem takeLine_tours (l : Nat) : (takeLine l s).tours = s.tours := rfl
@[simp] theorem takeLine_booked (l : Nat) : (takeLine l s).booked = s.booked := rfl
@[simp] theorem takeLine_hbm (l : Nat) : (takeLine l s).hbm = s.hbm := rfl
@[simp] theorem takeLine_vault (l : Nat) : (takeLine l s).vault = s.vault := rfl
@[simp] theorem takeLine_host (l : Nat) : (takeLine l s).host = s.host := rfl
@[simp] theorem takeLine_fab (l : Nat) : (takeLine l s).fab = s.fab := rfl
@[simp] theorem takeLine_health (l : Nat) : (takeLine l s).health = s.health := rfl
@[simp] theorem takeLine_drbg (l : Nat) : (takeLine l s).drbg = s.drbg := rfl
@[simp] theorem takeLine_sec (l : Nat) : (takeLine l s).sec = s.sec := rfl
@[simp] theorem takeLine_power (l : Nat) : (takeLine l s).power = s.power := rfl
@[simp] theorem takeLine_mon (l : Nat) : (takeLine l s).mon = s.mon := rfl

/-! ### hostPut -/

@[simp] theorem hostPut_pending (a : Nat) (bs : List Byte) : (hostPut s a bs).pending = s.pending := rfl
@[simp] theorem hostPut_freeCount (a : Nat) (bs : List Byte) : (hostPut s a bs).freeCount = s.freeCount := rfl
@[simp] theorem hostPut_fuses (a : Nat) (bs : List Byte) : (hostPut s a bs).fuses = s.fuses := rfl
@[simp] theorem hostPut_flash (a : Nat) (bs : List Byte) : (hostPut s a bs).flash = s.flash := rfl
@[simp] theorem hostPut_time (a : Nat) (bs : List Byte) : (hostPut s a bs).time = s.time := rfl
@[simp] theorem hostPut_gals (a : Nat) (bs : List Byte) : (hostPut s a bs).gals = s.gals := rfl
@[simp] theorem hostPut_bridge (a : Nat) (bs : List Byte) : (hostPut s a bs).bridge = s.bridge := rfl
@[simp] theorem hostPut_useLog (a : Nat) (bs : List Byte) : (hostPut s a bs).useLog = s.useLog := rfl
@[simp] theorem hostPut_held (a : Nat) (bs : List Byte) : (hostPut s a bs).held = s.held := rfl
@[simp] theorem hostPut_cat (a : Nat) (bs : List Byte) : (hostPut s a bs).cat = s.cat := rfl
@[simp] theorem hostPut_rst (a : Nat) (bs : List Byte) : (hostPut s a bs).rst = s.rst := rfl
@[simp] theorem hostPut_tours (a : Nat) (bs : List Byte) : (hostPut s a bs).tours = s.tours := rfl
@[simp] theorem hostPut_booked (a : Nat) (bs : List Byte) : (hostPut s a bs).booked = s.booked := rfl
@[simp] theorem hostPut_dma (a : Nat) (bs : List Byte) : (hostPut s a bs).dma = s.dma := rfl
@[simp] theorem hostPut_hbm (a : Nat) (bs : List Byte) : (hostPut s a bs).hbm = s.hbm := rfl
@[simp] theorem hostPut_vault (a : Nat) (bs : List Byte) : (hostPut s a bs).vault = s.vault := rfl
@[simp] theorem hostPut_host (a : Nat) (bs : List Byte) : (hostPut s a bs).host = s.host := rfl
@[simp] theorem hostPut_fab (a : Nat) (bs : List Byte) : (hostPut s a bs).fab = s.fab := rfl
@[simp] theorem hostPut_health (a : Nat) (bs : List Byte) : (hostPut s a bs).health = s.health := rfl
@[simp] theorem hostPut_drbg (a : Nat) (bs : List Byte) : (hostPut s a bs).drbg = s.drbg := rfl
@[simp] theorem hostPut_sec (a : Nat) (bs : List Byte) : (hostPut s a bs).sec = s.sec := rfl
@[simp] theorem hostPut_power (a : Nat) (bs : List Byte) : (hostPut s a bs).power = s.power := rfl
@[simp] theorem hostPut_mon (a : Nat) (bs : List Byte) : (hostPut s a bs).mon = s.mon := rfl

/-! ### hbmZero -/

@[simp] theorem hbmZero_pending (a n : Nat) : (hbmZero s a n).pending = s.pending := rfl
@[simp] theorem hbmZero_freeCount (a n : Nat) : (hbmZero s a n).freeCount = s.freeCount := rfl
@[simp] theorem hbmZero_hostMem (a n : Nat) : (hbmZero s a n).hostMem = s.hostMem := rfl
@[simp] theorem hbmZero_fuses (a n : Nat) : (hbmZero s a n).fuses = s.fuses := rfl
@[simp] theorem hbmZero_flash (a n : Nat) : (hbmZero s a n).flash = s.flash := rfl
@[simp] theorem hbmZero_time (a n : Nat) : (hbmZero s a n).time = s.time := rfl
@[simp] theorem hbmZero_gals (a n : Nat) : (hbmZero s a n).gals = s.gals := rfl
@[simp] theorem hbmZero_bridge (a n : Nat) : (hbmZero s a n).bridge = s.bridge := rfl
@[simp] theorem hbmZero_useLog (a n : Nat) : (hbmZero s a n).useLog = s.useLog := rfl
@[simp] theorem hbmZero_held (a n : Nat) : (hbmZero s a n).held = s.held := rfl
@[simp] theorem hbmZero_cat (a n : Nat) : (hbmZero s a n).cat = s.cat := rfl
@[simp] theorem hbmZero_rst (a n : Nat) : (hbmZero s a n).rst = s.rst := rfl
@[simp] theorem hbmZero_tours (a n : Nat) : (hbmZero s a n).tours = s.tours := rfl
@[simp] theorem hbmZero_booked (a n : Nat) : (hbmZero s a n).booked = s.booked := rfl
@[simp] theorem hbmZero_dma (a n : Nat) : (hbmZero s a n).dma = s.dma := rfl
@[simp] theorem hbmZero_vault (a n : Nat) : (hbmZero s a n).vault = s.vault := rfl
@[simp] theorem hbmZero_host (a n : Nat) : (hbmZero s a n).host = s.host := rfl
@[simp] theorem hbmZero_fab (a n : Nat) : (hbmZero s a n).fab = s.fab := rfl
@[simp] theorem hbmZero_health (a n : Nat) : (hbmZero s a n).health = s.health := rfl
@[simp] theorem hbmZero_drbg (a n : Nat) : (hbmZero s a n).drbg = s.drbg := rfl
@[simp] theorem hbmZero_sec (a n : Nat) : (hbmZero s a n).sec = s.sec := rfl
@[simp] theorem hbmZero_power (a n : Nat) : (hbmZero s a n).power = s.power := rfl
@[simp] theorem hbmZero_mon (a n : Nat) : (hbmZero s a n).mon = s.mon := rfl

/-! ### snoopLine -/

@[simp] theorem snoopLine_pending (l : Nat) : (snoopLine s l).pending = s.pending := rfl
@[simp] theorem snoopLine_freeCount (l : Nat) : (snoopLine s l).freeCount = s.freeCount := rfl
@[simp] theorem snoopLine_hostMem (l : Nat) : (snoopLine s l).hostMem = s.hostMem := rfl
@[simp] theorem snoopLine_fuses (l : Nat) : (snoopLine s l).fuses = s.fuses := rfl
@[simp] theorem snoopLine_flash (l : Nat) : (snoopLine s l).flash = s.flash := rfl
@[simp] theorem snoopLine_time (l : Nat) : (snoopLine s l).time = s.time := rfl
@[simp] theorem snoopLine_gals (l : Nat) : (snoopLine s l).gals = s.gals := rfl
@[simp] theorem snoopLine_bridge (l : Nat) : (snoopLine s l).bridge = s.bridge := rfl
@[simp] theorem snoopLine_useLog (l : Nat) : (snoopLine s l).useLog = s.useLog := rfl
@[simp] theorem snoopLine_held (l : Nat) : (snoopLine s l).held = s.held := rfl
@[simp] theorem snoopLine_cat (l : Nat) : (snoopLine s l).cat = s.cat := rfl
@[simp] theorem snoopLine_rst (l : Nat) : (snoopLine s l).rst = s.rst := rfl
@[simp] theorem snoopLine_tours (l : Nat) : (snoopLine s l).tours = s.tours := rfl
@[simp] theorem snoopLine_booked (l : Nat) : (snoopLine s l).booked = s.booked := rfl
@[simp] theorem snoopLine_dma (l : Nat) : (snoopLine s l).dma = s.dma := rfl
@[simp] theorem snoopLine_hbm (l : Nat) : (snoopLine s l).hbm = s.hbm := rfl
@[simp] theorem snoopLine_vault (l : Nat) : (snoopLine s l).vault = s.vault := rfl
@[simp] theorem snoopLine_fab (l : Nat) : (snoopLine s l).fab = s.fab := rfl
@[simp] theorem snoopLine_health (l : Nat) : (snoopLine s l).health = s.health := rfl
@[simp] theorem snoopLine_drbg (l : Nat) : (snoopLine s l).drbg = s.drbg := rfl
@[simp] theorem snoopLine_sec (l : Nat) : (snoopLine s l).sec = s.sec := rfl
@[simp] theorem snoopLine_power (l : Nat) : (snoopLine s l).power = s.power := rfl
@[simp] theorem snoopLine_mon (l : Nat) : (snoopLine s l).mon = s.mon := rfl

/-! ### zeroRgnWords -/

@[simp] theorem zeroRgnWords_pending (g j : Nat) : (zeroRgnWords s g j).pending = s.pending := rfl
@[simp] theorem zeroRgnWords_freeCount (g j : Nat) : (zeroRgnWords s g j).freeCount = s.freeCount := rfl
@[simp] theorem zeroRgnWords_hostMem (g j : Nat) : (zeroRgnWords s g j).hostMem = s.hostMem := rfl
@[simp] theorem zeroRgnWords_fuses (g j : Nat) : (zeroRgnWords s g j).fuses = s.fuses := rfl
@[simp] theorem zeroRgnWords_flash (g j : Nat) : (zeroRgnWords s g j).flash = s.flash := rfl
@[simp] theorem zeroRgnWords_time (g j : Nat) : (zeroRgnWords s g j).time = s.time := rfl
@[simp] theorem zeroRgnWords_bridge (g j : Nat) : (zeroRgnWords s g j).bridge = s.bridge := rfl
@[simp] theorem zeroRgnWords_useLog (g j : Nat) : (zeroRgnWords s g j).useLog = s.useLog := rfl
@[simp] theorem zeroRgnWords_held (g j : Nat) : (zeroRgnWords s g j).held = s.held := rfl
@[simp] theorem zeroRgnWords_cat (g j : Nat) : (zeroRgnWords s g j).cat = s.cat := rfl
@[simp] theorem zeroRgnWords_rst (g j : Nat) : (zeroRgnWords s g j).rst = s.rst := rfl
@[simp] theorem zeroRgnWords_tours (g j : Nat) : (zeroRgnWords s g j).tours = s.tours := rfl
@[simp] theorem zeroRgnWords_booked (g j : Nat) : (zeroRgnWords s g j).booked = s.booked := rfl
@[simp] theorem zeroRgnWords_dma (g j : Nat) : (zeroRgnWords s g j).dma = s.dma := rfl
@[simp] theorem zeroRgnWords_hbm (g j : Nat) : (zeroRgnWords s g j).hbm = s.hbm := rfl
@[simp] theorem zeroRgnWords_vault (g j : Nat) : (zeroRgnWords s g j).vault = s.vault := rfl
@[simp] theorem zeroRgnWords_host (g j : Nat) : (zeroRgnWords s g j).host = s.host := rfl
@[simp] theorem zeroRgnWords_fab (g j : Nat) : (zeroRgnWords s g j).fab = s.fab := rfl
@[simp] theorem zeroRgnWords_health (g j : Nat) : (zeroRgnWords s g j).health = s.health := rfl
@[simp] theorem zeroRgnWords_drbg (g j : Nat) : (zeroRgnWords s g j).drbg = s.drbg := rfl
@[simp] theorem zeroRgnWords_sec (g j : Nat) : (zeroRgnWords s g j).sec = s.sec := rfl
@[simp] theorem zeroRgnWords_power (g j : Nat) : (zeroRgnWords s g j).power = s.power := rfl
@[simp] theorem zeroRgnWords_mon (g j : Nat) : (zeroRgnWords s g j).mon = s.mon := rfl

/-! ### modTour -/

@[simp] theorem modTour_pending (id : Quad) (f : Tour → Tour) : (modTour s id f).pending = s.pending := rfl
@[simp] theorem modTour_freeCount (id : Quad) (f : Tour → Tour) : (modTour s id f).freeCount = s.freeCount := rfl
@[simp] theorem modTour_hostMem (id : Quad) (f : Tour → Tour) : (modTour s id f).hostMem = s.hostMem := rfl
@[simp] theorem modTour_fuses (id : Quad) (f : Tour → Tour) : (modTour s id f).fuses = s.fuses := rfl
@[simp] theorem modTour_flash (id : Quad) (f : Tour → Tour) : (modTour s id f).flash = s.flash := rfl
@[simp] theorem modTour_time (id : Quad) (f : Tour → Tour) : (modTour s id f).time = s.time := rfl
@[simp] theorem modTour_gals (id : Quad) (f : Tour → Tour) : (modTour s id f).gals = s.gals := rfl
@[simp] theorem modTour_bridge (id : Quad) (f : Tour → Tour) : (modTour s id f).bridge = s.bridge := rfl
@[simp] theorem modTour_useLog (id : Quad) (f : Tour → Tour) : (modTour s id f).useLog = s.useLog := rfl
@[simp] theorem modTour_held (id : Quad) (f : Tour → Tour) : (modTour s id f).held = s.held := rfl
@[simp] theorem modTour_cat (id : Quad) (f : Tour → Tour) : (modTour s id f).cat = s.cat := rfl
@[simp] theorem modTour_rst (id : Quad) (f : Tour → Tour) : (modTour s id f).rst = s.rst := rfl
@[simp] theorem modTour_booked (id : Quad) (f : Tour → Tour) : (modTour s id f).booked = s.booked := rfl
@[simp] theorem modTour_dma (id : Quad) (f : Tour → Tour) : (modTour s id f).dma = s.dma := rfl
@[simp] theorem modTour_hbm (id : Quad) (f : Tour → Tour) : (modTour s id f).hbm = s.hbm := rfl
@[simp] theorem modTour_vault (id : Quad) (f : Tour → Tour) : (modTour s id f).vault = s.vault := rfl
@[simp] theorem modTour_host (id : Quad) (f : Tour → Tour) : (modTour s id f).host = s.host := rfl
@[simp] theorem modTour_fab (id : Quad) (f : Tour → Tour) : (modTour s id f).fab = s.fab := rfl
@[simp] theorem modTour_health (id : Quad) (f : Tour → Tour) : (modTour s id f).health = s.health := rfl
@[simp] theorem modTour_drbg (id : Quad) (f : Tour → Tour) : (modTour s id f).drbg = s.drbg := rfl
@[simp] theorem modTour_sec (id : Quad) (f : Tour → Tour) : (modTour s id f).sec = s.sec := rfl
@[simp] theorem modTour_power (id : Quad) (f : Tour → Tour) : (modTour s id f).power = s.power := rfl
@[simp] theorem modTour_mon (id : Quad) (f : Tour → Tour) : (modTour s id f).mon = s.mon := rfl

end Sys2Proof.Machine
end

