-- ==== Sys2Proof/Laws/Frame/Base.lean ====
section
/-!
SUPPORT. Sys2Proof/Laws/Frame/Base.lean: the part of the state that almost no command touches: the queue of waiting commands,
the fuses and the debug mode. The files beside this one prove, function by function, who leaves it alone.
-/

set_option Elab.async false

namespace Sys2Proof.Machine

/-- The queue, the fuses and the debug mode. -/
def kept (s : State) : List Instr × Fuses × Bool := (s.pending, s.fuses, s.sec.debug)

@[simp] theorem kept_mk (pe fc hm fu fl ti ga br ul hl ca rs toAt bk dm hb va ho fa he dr se po mo) :
    kept ⟨pe, fc, hm, fu, fl, ti, ga, br, ul, hl, ca, rs, toAt, bk, dm, hb, va, ho, fa, he, dr, se, po, mo⟩ = (pe, fu, se.debug) := rfl

@[simp] theorem kept_fold (s : State) : (s.pending, s.fuses, s.sec.debug) = kept s := rfl

theorem kept_ite (c : Prop) [Decidable c] (a b : State) :
    kept (if c then a else b) = if c then kept a else kept b := apply_ite kept c a b

@[simp] theorem kept_foldl {α : Type} (f : State → α → State) (h : ∀ x a, kept (f x a) = kept x) (l : List α) (s : State) :
    kept (l.foldl f s) = kept s := by
  induction l generalizing s with
  | nil => rfl
  | cons a l ih => simp [ih, h]

@[simp] theorem kept_foldlPair {α β : Type} (f : β × State → α → β × State) (h : ∀ r a, kept (f r a).2 = kept r.2) (l : List α)
    (r : β × State) : kept (l.foldl f r).2 = kept r.2 := by
  induction l generalizing r with
  | nil => rfl
  | cons a l ih => simp [ih, h]

@[simp] theorem kept_foldr {α : Type} (f : α → State → State) (h : ∀ a x, kept (f a x) = kept x) (l : List α) (s : State) :
    kept (l.foldr f s) = kept s := by
  induction l with
  | nil => rfl
  | cons a l ih => simp [ih, h]

@[simp] theorem kept_foldRange (n : Nat) (f : Nat → State → State) (h : ∀ i x, kept (f i x) = kept x) (s : State) :
    kept (foldRange n f s) = kept s := kept_foldl _ (fun x i => h i x) _ s

/-- From `s` to `t` the queue stands, no fuse is undone, and debug mode is not entered against a blown fuse. The functions
that do touch what `kept` holds satisfy this. -/
structure Calm (s t : State) : Prop where
  pending   : t.pending = s.pending
  galleries : t.fuses.galleryMap = s.fuses.galleryMap
  svn       : s.fuses.svnBlown ≤ t.fuses.svnBlown
  disabled  : s.fuses.debugDisabled = true → t.fuses.debugDisabled = true
  debug     : (s.sec.debug = true → s.fuses.debugDisabled = false) → t.sec.debug = true → t.fuses.debugDisabled = false

theorem calm_of_kept {s t : State} (h : kept t = kept s) : Calm s t := by
  simp only [kept, Prod.mk.injEq] at h
  obtain ⟨h1, h2, h3⟩ := h
  exact ⟨h1, by rw [h2], Nat.le_of_eq (congrArg Fuses.svnBlown h2).symm, by rw [h2]; exact id, by rw [h2, h3]; exact fun f h => f h⟩

theorem Calm.refl (s : State) : Calm s s := calm_of_kept rfl

theorem Calm.trans {s t u : State} (a : Calm s t) (b : Calm t u) : Calm s u :=
  ⟨b.pending.trans a.pending, b.galleries.trans a.galleries, Nat.le_trans a.svn b.svn, fun h => b.disabled (a.disabled h),
   fun h => b.debug (a.debug h)⟩

/-- A reset that leaves the queue and the fuses and ends debug mode. -/
theorem calm_of_reset {s t : State} (h1 : t.pending = s.pending) (h2 : t.fuses = s.fuses) (h3 : t.sec.debug = false) :
    Calm s t :=
  ⟨h1, by rw [h2], Nat.le_of_eq (congrArg Fuses.svnBlown h2).symm, by rw [h2]; exact id, by simp [h3]⟩

theorem calm_ite {s a b : State} (c : Prop) [Decidable c] (ha : Calm s a) (hb : Calm s b) : Calm s (if c then a else b) := by
  split <;> assumption

theorem calm_foldl {α : Type} (f : State → α → State) (h : ∀ x a, Calm x (f x a)) (l : List α) (s : State) :
    Calm s (l.foldl f s) := by
  induction l generalizing s with
  | nil => exact .refl s
  | cons a l ih => exact (h s a).trans (ih _)

end Sys2Proof.Machine
end

