-- ==== Sys2Proof/Laws/Frame/Ops.lean ====
section
/-!
SUPPORT. Sys2Proof/Laws/Frame/Ops.lean: what Machine/Ops.lean leaves alone: the queue, the fuses and the debug mode.
-/

set_option Elab.async false

namespace Sys2Proof.Machine

@[simp] theorem kept_setGal (s g x) : kept (setGal s g x) = kept s := by unfold setGal; simp
@[simp] theorem kept_modGal (s g f) : kept (modGal s g f) = kept s := by unfold modGal; simp
@[simp] theorem kept_modRegs (s g f) : kept (modRegs s g f) = kept s := by unfold modRegs; simp
@[simp] theorem kept_modCabRegs (s g f) : kept (modCabRegs s g f) = kept s := by unfold modCabRegs; simp
@[simp] theorem kept_modInv (s g f) : kept (modInv s g f) = kept s := by unfold modInv; simp
@[simp] theorem kept_modWork (s g f) : kept (modWork s g f) = kept s := by unfold modWork; simp
@[simp] theorem kept_setRgn (s g r x) : kept (setRgn s g r x) = kept s := by unfold setRgn; simp
@[simp] theorem kept_modRgn (s g r f) : kept (modRgn s g r f) = kept s := by unfold modRgn; simp
@[simp] theorem kept_modStk (s k f) : kept (modStk s k f) = kept s := by unfold modStk; simp
@[simp] theorem kept_modChan (s n f) : kept (modChan s n f) = kept s := by unfold modChan; simp
@[simp] theorem kept_modQp (s q f) : kept (modQp s q f) = kept s := by unfold modQp; simp
@[simp] theorem kept_modPort (s k f) : kept (modPort s k f) = kept s := by unfold modPort; simp
@[simp] theorem kept_modWin (s w f) : kept (modWin s w f) = kept s := by unfold modWin; simp
@[simp] theorem kept_modGroup (s g f) : kept (modGroup s g f) = kept s := by unfold modGroup; simp
@[simp] theorem kept_modUnit (s u f) : kept (modUnit s u f) = kept s := by unfold modUnit; simp
@[simp] theorem kept_modHost (s f) : kept (modHost s f) = kept s := by unfold modHost; simp
@[simp] theorem kept_modPower (s f) : kept (modPower s f) = kept s := by unfold modPower; simp
@[simp] theorem kept_modTaps (s f) : kept (modTaps s f) = kept s := by unfold modTaps; simp
@[simp] theorem kept_modVault (s f) : kept (modVault s f) = kept s := by unfold modVault; simp
@[simp] theorem kept_modTime (s f) : kept (modTime s f) = kept s := by unfold modTime; simp
@[simp] theorem kept_raiseLine (line n s) : kept (raiseLine line n s) = kept s := by unfold raiseLine; simp
@[simp] theorem kept_takeLine (line s) : kept (takeLine line s) = kept s := by unfold takeLine; simp
@[simp] theorem kept_freeBits (w s) : kept (freeBits w s).2 = kept s := by unfold freeBits; simp
@[simp] theorem kept_freeBytes (n s) : kept (freeBytes n s).2 = kept s := by unfold freeBytes; simp
@[simp] theorem kept_raiseVec (s v) : kept (raiseVec s v) = kept s := by unfold raiseVec; (repeat' split) <;> simp
@[simp] theorem kept_raiseEvent (s) : kept (raiseEvent s) = kept s := by unfold raiseEvent; (repeat' split) <;> simp
@[simp] theorem kept_setPowerState (s p) : kept (setPowerState s p) = kept s := by unfold setPowerState; (repeat' split) <;> simp
@[simp] theorem kept_hostPut (s a bs) : kept (hostPut s a bs) = kept s := by unfold hostPut; simp
@[simp] theorem kept_hostPutAll (s ws) : kept (hostPutAll s ws) = kept s := by unfold hostPutAll; simp
@[simp] theorem kept_hbmSetByte (s a b) : kept (hbmSetByte s a b) = kept s := by unfold hbmSetByte; (repeat' split) <;> simp
@[simp] theorem kept_hbmSetBytes (a bs s) : kept (hbmSetBytes a bs s) = kept s := by
  induction bs generalizing a s with
  | nil => rfl
  | cons b bs ih => simp [hbmSetBytes, ih]
@[simp] theorem kept_hbmPutBytes (a bs s) : kept (hbmPutBytes a bs s) = kept s := by unfold hbmPutBytes; (repeat' split) <;> simp
@[simp] theorem kept_hbmZero (s a n) : kept (hbmZero s a n) = kept s := by unfold hbmZero; simp
@[simp] theorem kept_snoopLine (s line) : kept (snoopLine s line) = kept s := by unfold snoopLine; simp
@[simp] theorem kept_countUe (source line s) : kept (countUe source line s) = kept s := by unfold countUe; simp
@[simp] theorem kept_countCe (line s) : kept (countCe line s) = kept s := by unfold countCe; simp
@[simp] theorem kept_readLineEcc (source line s) : kept (readLineEcc source line s).2 = kept s := by unfold readLineEcc; (repeat' split) <;> simp
@[simp] theorem kept_snoopRange (a n s) : kept (snoopRange a n s) = kept s := by unfold snoopRange; simp
@[simp] theorem kept_eccLines (source hit s) : kept (eccLines source hit s) = kept s := by unfold eccLines; simp
@[simp] theorem kept_noteLines (source hit s) : kept (noteLines source hit s) = kept s := by unfold noteLines; simp
@[simp] theorem kept_noteRange (source a n s) : kept (noteRange source a n s) = kept s := by unfold noteRange; simp
@[simp] theorem kept_docentRead (a n s) : kept (docentRead a n s).2 = kept s := by unfold docentRead; (repeat' split) <;> simp
@[simp] theorem kept_readLinesEcc (a n b s) : kept (readLinesEcc a n b s).2 = kept s := by
  induction n generalizing b s with
  | zero => rfl
  | succ n ih => unfold readLinesEcc; simp; (repeat' split) <;> simp [ih]
@[simp] theorem kept_hubRead (s a n) : kept (hubRead s a n).2.2 = kept s := by unfold hubRead; simp; (repeat' split) <;> simp
@[simp] theorem kept_hubWriteLine (s a bs) : kept (hubWriteLine s a bs).2 = kept s := by unfold hubWriteLine; simp; (repeat' split) <;> simp
@[simp] theorem kept_hubWriteFrom (n a bs d s) : kept (hubWriteFrom n a bs d s).2 = kept s := by
  induction n generalizing a bs d s with
  | zero => rfl
  | succ n ih => unfold hubWriteFrom; (repeat' split) <;> (try simp) <;> (repeat' split) <;> simp [ih]
@[simp] theorem kept_hubWrite (s a bs) : kept (hubWrite s a bs).2 = kept s := by unfold hubWrite; simp
@[simp] theorem kept_locRead (hbm a n s) : kept (locRead hbm a n s).2 = kept s := by unfold locRead; (repeat' split) <;> simp
@[simp] theorem kept_locPut (s hbm a bs) : kept (locPut s hbm a bs) = kept s := by unfold locPut; (repeat' split) <;> simp
@[simp] theorem kept_qpEntry (s q irq tag kind st op body) : kept (qpEntry s q irq tag kind st op body) = kept s := by unfold qpEntry; simp; (repeat' split) <;> simp
@[simp] theorem kept_mboxEntry (s tag st op body) : kept (mboxEntry s tag st op body) = kept s := by unfold mboxEntry; simp; (repeat' split) <;> simp
@[simp] theorem kept_writeReply (s h op a) : kept (writeReply s h op a) = kept s := by unfold writeReply; (repeat' split) <;> simp
@[simp] theorem kept_writeDone (s h op a) : kept (writeDone s h op a) = kept s := by unfold writeDone; (repeat' split) <;> simp
theorem kept_command (h op f s) (hf : ∀ x, kept (f x).2 = kept x) : kept (command h op f s) = kept s := by
  unfold command; (repeat' split) <;> simp [hf]

theorem calm_command (h op f s) (hf : ∀ x, Calm x (f x).2) : Calm s (command h op f s) := by
  unfold command
  dsimp only
  (repeat' split)
  · exact (hf s).trans (calm_of_kept (by simp))
  · exact .refl s
  · exact (hf s).trans (calm_of_kept (by simp))
  · exact calm_of_kept (by simp)
  · exact .refl s
@[simp] theorem kept_zeroRgnWords (s g j) : kept (zeroRgnWords s g j) = kept s := by unfold zeroRgnWords; simp
@[simp] theorem kept_modTour (s id f) : kept (modTour s id f) = kept s := by unfold modTour; simp
@[simp] theorem kept_clearGalleries (s) : kept (clearGalleries s) = kept s := by unfold clearGalleries; simp
theorem pending_deviceReset (c s) : (deviceReset c s).pending = s.pending := rfl
theorem fuses_deviceReset (c s) : (deviceReset c s).fuses = s.fuses := rfl
theorem debug_deviceReset (c s) : (deviceReset c s).sec.debug = false := rfl

theorem calm_deviceReset (c s) : Calm s (deviceReset c s) :=
  calm_of_reset (pending_deviceReset c s) (fuses_deviceReset c s) (debug_deviceReset c s)

end Sys2Proof.Machine
end

