-- ==== Sys2Proof/Laws/Frame/Catalogue.lean ====
section
/-!
SUPPORT. Sys2Proof/Laws/Frame/Catalogue.lean: what Machine/Catalogue.lean leaves alone: the queue, the fuses and the debug mode.
-/

set_option Elab.async false

namespace Sys2Proof.Machine

@[simp] theorem kept_readEnts (cats s) : kept (readEnts cats s) = kept s := by unfold readEnts; simp
@[simp] theorem kept_putEnt (i x s) : kept (putEnt i x s) = kept s := by unfold putEnt; simp
@[simp] theorem kept_modEnt (i f s) : kept (modEnt i f s) = kept s := by unfold modEnt; simp
@[simp] theorem kept_pruneBlocks (s) : kept (pruneBlocks s) = kept s := by unfold pruneBlocks; simp
@[simp] theorem kept_keepBlock (t b s) : kept (keepBlock t b s) = kept s := by unfold keepBlock; simp
@[simp] theorem kept_countRefusal (st s) : kept (countRefusal st s) = kept s := by unfold countRefusal; (repeat' split) <;> simp
@[simp] theorem kept_writeFree (addr s) : kept (writeFree addr s) = kept s := by unfold writeFree; (repeat' split) <;> simp
@[simp] theorem kept_doCatalogueCreate (addr s) : kept (doCatalogueCreate addr s).2 = kept s := by unfold doCatalogueCreate; (repeat' split) <;> simp
@[simp] theorem kept_doObjectRegister (idx entryAddr paramAddr paramBytes s) : kept (doObjectRegister idx entryAddr paramAddr paramBytes s).2 = kept s := by unfold doObjectRegister; simp; (repeat' split) <;> simp
@[simp] theorem kept_doObjectUpdate (idx entryAddr s) : kept (doObjectUpdate idx entryAddr s).2 = kept s := by unfold doObjectUpdate; simp; (repeat' split) <;> simp
@[simp] theorem kept_doObjectRelease (first count s) : kept (doObjectRelease first count s).2 = kept s := by unfold doObjectRelease; (repeat' split) <;> simp
@[simp] theorem kept_doCostTableLoad (addr s) : kept (doCostTableLoad addr s).2 = kept s := by unfold doCostTableLoad; (repeat' split) <;> simp
@[simp] theorem kept_keyBytes (space addr off s) : kept (keyBytes space addr off s).2 = kept s := by unfold keyBytes; simp; (repeat' split) <;> simp
@[simp] theorem kept_doKeyRegister (idx space addr paramAddr paramBytes s) : kept (doKeyRegister idx space addr paramAddr paramBytes s).2 = kept s := by unfold doKeyRegister; simp; (repeat' split) <;> simp

end Sys2Proof.Machine
end

