-- ==== Sys2Proof/Laws/Frame/Hbm.lean ====
section
/-!
SUPPORT. Sys2Proof/Laws/Frame/Hbm.lean: what Machine/Hbm.lean leaves alone: the queue, the fuses and the debug mode.
-/

set_option Elab.async false

namespace Sys2Proof.Machine

@[simp] theorem kept_loadRange (i a n q s) : kept (loadRange i a n q s) = kept s := by unfold loadRange; simp
@[simp] theorem kept_doAtomicOpen (a n q s) : kept (doAtomicOpen a n q s).2 = kept s := by unfold doAtomicOpen; (repeat' split) <;> simp
@[simp] theorem kept_writeBack (k i s) : kept (writeBack k i s) = kept s := by unfold writeBack; (repeat' split) <;> simp
@[simp] theorem kept_doAtomicClose (i k s) : kept (doAtomicClose i k s).2 = kept s := by unfold doAtomicClose; (repeat' split) <;> simp
@[simp] theorem kept_applyUpdate (a op y cmp s) : kept (applyUpdate a op y cmp s).2 = kept s := by unfold applyUpdate; simp; (repeat' split) <;> simp
@[simp] theorem kept_doAtomicUpdate (a op y cmp s) : kept (doAtomicUpdate a op y cmp s) = kept s := by unfold doAtomicUpdate; (repeat' split) <;> simp
@[simp] theorem kept_returned (bs poison s) : kept (returned bs poison s) = kept s := by unfold returned; simp
@[simp] theorem kept_takeSlot (line x1 w s) : kept (takeSlot line x1 w s) = kept s := by unfold takeSlot; simp
theorem kept_placeLines (near w ls s r) (h : placeLines near w ls s = some r) : kept r = kept s := by
  induction ls generalizing s with
  | nil => simp only [placeLines, Option.some.injEq] at h; rw [h]
  | cons l ls ih =>
    unfold placeLines at h
    split at h
    · exact ih _ h
    · split at h
      · rw [ih _ h, kept_takeSlot]
      · exact absurd h (by simp)
theorem kept_placeRange (a n w s r) (h : placeRange a n w s = some r) : kept r = kept s := by
  unfold placeRange at h
  split at h
  · simp only [Option.some.injEq] at h; rw [h]
  · exact kept_placeLines _ _ _ _ _ h
theorem kept_cxlSlot (s a acc r) (h : cxlSlot s a acc = some r) : kept r = kept s := kept_placeRange _ _ _ _ _ h
@[simp] theorem kept_placeBurst (a x1 acc s) : kept (placeBurst a x1 acc s) = kept s := by unfold placeBurst; simp; (repeat' split) <;> simp
@[simp] theorem kept_doHubBurst (a slot acc s) : kept (doHubBurst a slot acc s) = kept s := by unfold doHubBurst; simp; (repeat' split) <;> simp
@[simp] theorem kept_tryBurst (a acc s) : kept (tryBurst a acc s).2 = kept s := by unfold tryBurst; (repeat' split) <;> simp
@[simp] theorem kept_cxlNow (a cached acc s) : kept (cxlNow a cached acc s) = kept s := by unfold cxlNow; simp; (repeat' split) <;> simp
@[simp] theorem kept_doCxlMem (a cached acc s) : kept (doCxlMem a cached acc s) = kept s := by
  unfold doCxlMem; dsimp only; (repeat' split) <;> (try simp) <;> exact kept_cxlSlot _ _ _ _ ‹_›
@[simp] theorem kept_doHubShare (v s) : kept (doHubShare v s) = kept s := by unfold doHubShare; (repeat' split) <;> simp
@[simp] theorem kept_doTgStart (k v s) : kept (doTgStart k v s) = kept s := by unfold doTgStart; (repeat' split) <;> simp
@[simp] theorem kept_tgWrite (k pattern p s) : kept (tgWrite k pattern p s) = kept s := by unfold tgWrite; simp
@[simp] theorem kept_doTgDone (k mismatches s) : kept (doTgDone k mismatches s) = kept s := by unfold doTgDone; simp [kept_ite]
@[simp] theorem kept_doLineRewrite (line s) : kept (doLineRewrite line s) = kept s := by unfold doLineRewrite; simp; (repeat' split) <;> simp
@[simp] theorem kept_doRefreshRate (k hot s) : kept (doRefreshRate k hot s) = kept s := by unfold doRefreshRate; (repeat' split) <;> simp

end Sys2Proof.Machine
end

