-- ==== Sys2Proof/Laws/Frame/Stations.lean ====
section
/-!
SUPPORT. Sys2Proof/Laws/Frame/Stations.lean: what Machine/Stations.lean leaves alone: the queue, the fuses and the debug mode.
-/

set_option Elab.async false

namespace Sys2Proof.Machine

@[simp] theorem kept_simS (m f) (h : ∀ x, kept (f x) = kept x) : kept (simS m f).s = kept m.s := h _

theorem kept_sim_ite (c : Prop) [Decidable c] (a b : Sim) :
    kept (if c then a else b).s = if c then kept a.s else kept b.s := apply_ite (fun x : Sim => kept x.s) c a b

@[simp] theorem kept_simFoldl {α : Type} (f : Sim → α → Sim) (h : ∀ x a, kept (f x a).s = kept x.s) (l : List α) (m : Sim) :
    kept (l.foldl f m).s = kept m.s := by
  induction l generalizing m with
  | nil => rfl
  | cons a l ih => simp [ih, h]

@[simp] theorem kept_simFoldRange (n : Nat) (f : Nat → Sim → Sim) (h : ∀ i x, kept (f i x).s = kept x.s) (m : Sim) :
    kept (foldRange n f m).s = kept m.s := kept_simFoldl _ (fun x i => h i x) _ m

@[simp] theorem kept_simWork (e m f) : kept (simWork e m f).s = kept m.s := by unfold simWork; simp [-List.reduceReplicate]
@[simp] theorem kept_simRegs (e m f) : kept (simRegs e m f).s = kept m.s := by unfold simRegs; simp [-List.reduceReplicate]
@[simp] theorem kept_raiseFault (m f) : kept (raiseFault m f).s = kept m.s := by unfold raiseFault; simp [-List.reduceReplicate]
@[simp] theorem kept_logHazard (h s) : kept (logHazard h s) = kept s := by unfold logHazard; (repeat' split) <;> simp
@[simp] theorem kept_noteHz (h s) : kept (noteHz h s) = kept s := by unfold noteHz; simp; (repeat' split) <;> simp
@[simp] theorem kept_simHz (e h m) : kept (simHz e h m).s = kept m.s := by unfold simHz; (repeat' split) <;> simp [-List.reduceReplicate]
@[simp] theorem kept_modCounters (g f s) : kept (modCounters g f s) = kept s := by unfold modCounters; simp [-List.reduceReplicate]
@[simp] theorem kept_countEvents (e j sats nans m) : kept (countEvents e j sats nans m).s = kept m.s := by unfold countEvents; (repeat' split) <;> simp [-List.reduceReplicate]
@[simp] theorem kept_signBytes (e st cyc bs m) : kept (signBytes e st cyc bs m).s = kept m.s := by
  unfold signBytes
  split
  · rfl
  · exact kept_simS _ _ (fun _ => rfl)
@[simp] theorem kept_signWords (e st cyc wide ws m) : kept (signWords e st cyc wide ws m).s = kept m.s := by unfold signWords; (repeat' split) <;> simp [-List.reduceReplicate]
@[simp] theorem kept_signBoth (e st cyc wide f m) : kept (signBoth e st cyc wide f m).s = kept m.s := by unfold signBoth; simp
@[simp] theorem kept_cabPut (owner ws s) : kept (cabPut owner ws s) = kept s := by unfold cabPut; (repeat' split) <;> simp [-List.reduceReplicate]
@[simp] theorem kept_freeBit (s) : kept (freeBit s).2 = kept s := by unfold freeBit; simp [-List.reduceReplicate]
@[simp] theorem kept_metUses (l s) : kept (metUses l s).2 = kept s := by
  induction l generalizing s with
  | nil => rfl
  | cons u l ih => simp [metUses, ih]
@[simp] theorem kept_takeBack (u x s) : kept (takeBack u x s) = kept s := by unfold takeBack; (repeat' split) <;> simp
@[simp] theorem kept_meetWrites (req pa l s) : kept (meetWrites req pa l s).2 = kept s := by
  induction l generalizing s with
  | nil => rfl
  | cons u l ih =>
    simp only [meetWrites]
    (repeat' split) <;> simp [ih]
@[simp] theorem kept_standing (req met own l s) : kept (standing req met own l s).2 = kept s := by
  induction l generalizing s with
  | nil => rfl
  | cons p l ih =>
    obtain ⟨a, b⟩ := p
    simp only [standing]
    split
    · exact ih s
    · simp [ih]
@[simp] theorem kept_markWritten (owner space w v s) : kept (markWritten owner space w v s) = kept s := by unfold markWritten; simp [-List.reduceReplicate]
@[simp] theorem kept_notePair (u v s) : kept (notePair u v s) = kept s := by unfold notePair; simp; (repeat' split) <;> simp
@[simp] theorem kept_watchPairs (X s) : kept (watchPairs X s) = kept s := by unfold watchPairs; (repeat' split) <;> (try simp) <;> (first | rw [kept_foldRange] | rw [kept_foldl]) <;> (try simp) <;> (try intros) <;> (repeat' split) <;> simp
@[simp] theorem kept_watchOwn (e owner cyc req unit isWrite pas s) : kept (watchOwn e owner cyc req unit isWrite pas s) = kept s := by unfold watchOwn; (repeat' split) <;> (try simp) <;> (first | rw [kept_foldRange] | rw [kept_foldl]) <;> (try simp) <;> (try intros) <;> (repeat' split) <;> simp
@[simp] theorem kept_markRead (owner pas s) : kept (markRead owner pas s) = kept s := by unfold markRead; (repeat' split) <;> (try simp) <;> (first | rw [kept_foldRange] | rw [kept_foldl]) <;> (try simp) <;> (try intros) <;> (repeat' split) <;> simp
@[simp] theorem kept_watchRead (e owner cyc req unit pas s) : kept (watchRead e owner cyc req unit pas s) = kept s := by unfold watchRead; simp; (repeat' split) <;> simp
@[simp] theorem kept_watchWrite (e owner cyc req unit pads pas good s) : kept (watchWrite e owner cyc req unit pads pas good s) = kept s := by unfold watchWrite; (repeat' split) <;> (try simp) <;> (first | rw [kept_foldRange] | rw [kept_foldl]) <;> (try simp) <;> (try intros) <;> (repeat' split) <;> simp
@[simp] theorem kept_noteUse (e owner X req unit isWrite ws dropped s) : kept (noteUse e owner X req unit isWrite ws dropped s) = kept s := by unfold noteUse; simp
@[simp] theorem kept_sendRead (e dest owner req cyc k last todo m) : kept (sendRead e dest owner req cyc k last todo m).s = kept m.s := by unfold sendRead; (repeat' split) <;> simp
@[simp] theorem kept_settleRead (e r s) : kept (settleRead e r s).2 = kept s := by unfold settleRead; simp [-List.reduceReplicate]; (repeat' split) <;> simp [-List.reduceReplicate]
@[simp] theorem kept_landWords (e owner req cyc unit pads ws m) : kept (landWords e owner req cyc unit pads ws m).s = kept m.s := by unfold landWords; simp [-List.reduceReplicate]; (repeat' split) <;> simp [-List.reduceReplicate]
@[simp] theorem kept_readPart (e isA k q cyc hold b m) : kept (readPart e isA k q cyc hold b m).s = kept m.s := by unfold readPart; simp [-List.reduceReplicate]
@[simp] theorem kept_takeRead (e r isA hold ws m) : kept (takeRead e r isA hold ws m).s = kept m.s := by unfold takeRead; (repeat' split) <;> simp [-List.reduceReplicate]
@[simp] theorem kept_settleReads (e cyc engine m) : kept (settleReads e cyc engine m).s = kept m.s := by
  unfold settleReads
  rw [kept_simFoldl]
  intro x r
  dsimp only
  split <;> simp
@[simp] theorem kept_issueReads (e cyc m) : kept (issueReads e cyc m).s = kept m.s := by unfold issueReads; simp [-List.reduceReplicate]; (repeat' split) <;> simp [-List.reduceReplicate]
@[simp] theorem kept_streamEcc (n l s) : kept (streamEcc n l s).2 = kept s := by
  induction n generalizing l s with
  | zero => rfl
  | succ n ih => simp [streamEcc, ih]
@[simp] theorem kept_streamRead (a s) : kept (streamRead a s).2.2 = kept s := by unfold streamRead; simp [-List.reduceReplicate]
@[simp] theorem kept_poisonedStream (e cyc a m) : kept (poisonedStream e cyc a m).s = kept m.s := by unfold poisonedStream; simp [-List.reduceReplicate]; (repeat' split) <;> simp [-List.reduceReplicate]
@[simp] theorem kept_laneRelease (e cyc m) : kept (laneRelease e cyc m).2.s = kept m.s := by
  unfold laneRelease
  dsimp only
  split <;> split <;> first | rfl | simp_all
@[simp] theorem kept_released (e cyc kind bridge lost m) : kept (released e cyc kind bridge lost m).2.s = kept m.s := by unfold released; (repeat' split) <;> simp [-List.reduceReplicate]
@[simp] theorem kept_cabReleased (e d cyc m) : kept (cabReleased e d cyc m).2.s = kept m.s := by
  unfold cabReleased
  dsimp only
  (repeat' split) <;> simp
@[simp] theorem kept_relayAt (e cyc m) : kept (relayAt e cyc m).2.s = kept m.s := by unfold relayAt; simp [-List.reduceReplicate]; (repeat' split) <;> simp [-List.reduceReplicate]
@[simp] theorem kept_checkHeader (e cyc ws m) : kept (checkHeader e cyc ws m).s = kept m.s := by unfold checkHeader; simp [-List.reduceReplicate]; (repeat' split) <;> simp [-List.reduceReplicate]
@[simp] theorem kept_pairAndFly (e cyc k a b m) : kept (pairAndFly e cyc k a b m).s = kept m.s := by unfold pairAndFly; simp [-List.reduceReplicate]
@[simp] theorem kept_streamWord (e i X a m) : kept (streamWord e i X a m).2.s = kept m.s := by unfold streamWord; (repeat' split) <;> simp [-List.reduceReplicate]
@[simp] theorem kept_streamDeliver (e i k n cyc m) : kept (streamDeliver e i k n cyc m).2.s = kept m.s := by
  unfold streamDeliver
  dsimp only
  (repeat' split) <;> simp_all
@[simp] theorem kept_takeB (e cyc m) : kept (takeB e cyc m).2.s = kept m.s := by
  unfold takeB
  dsimp only
  (repeat' split) <;> first | rfl | simp
@[simp] theorem kept_takeA (e cyc m) : kept (takeA e cyc m).2.s = kept m.s := by
  unfold takeA
  dsimp only
  (repeat' split) <;> first | rfl | simp
@[simp] theorem kept_deliver (e cyc m) : kept (deliver e cyc m).s = kept m.s := by unfold deliver; simp [-List.reduceReplicate]; (repeat' split) <;> simp [-List.reduceReplicate]
@[simp] theorem kept_disarm (e m) : kept (disarm e m).s = kept m.s := by unfold disarm; simp [-List.reduceReplicate]
@[simp] theorem kept_arithFault (m cyc station cause lane limb) : kept (arithFault m cyc station cause lane limb).s = kept m.s := by unfold arithFault; simp [-List.reduceReplicate]
@[simp] theorem kept_doTransform (e cyc f m) : kept (doTransform e cyc f m).2.s = kept m.s := by unfold doTransform; simp [-List.reduceReplicate]; (repeat' split) <;> simp [-List.reduceReplicate]
@[simp] theorem kept_doMultiply (e cyc f m) : kept (doMultiply e cyc f m).2.s = kept m.s := by unfold doMultiply; simp [-List.reduceReplicate]; (repeat' split) <;> simp [-List.reduceReplicate]
@[simp] theorem kept_rowHeld (e row m) : kept (rowHeld e row m).2.s = kept m.s := by unfold rowHeld; simp [-List.reduceReplicate]; (repeat' split) <;> simp [-List.reduceReplicate]
@[simp] theorem kept_readAcc (e row cyc unit m) : kept (readAcc e row cyc unit m).2.s = kept m.s := by unfold readAcc; simp [-List.reduceReplicate]; (repeat' split) <;> simp [-List.reduceReplicate]
@[simp] theorem kept_foldOf (e k m) : kept (foldOf e k m).2.s = kept m.s := by unfold foldOf; simp [-List.reduceReplicate]; (repeat' split) <;> simp [-List.reduceReplicate]
@[simp] theorem kept_signAcc (e cyc f m) : kept (signAcc e cyc f m).s = kept m.s := by unfold signAcc; (repeat' split) <;> simp
@[simp] theorem kept_doAccumulate (e cyc f m) : kept (doAccumulate e cyc f m).2.s = kept m.s := by unfold doAccumulate; (repeat' split) <;> simp
@[simp] theorem kept_peekAcc (e row cyc unit m) : kept (peekAcc e row cyc unit m).2.s = kept m.s := by unfold peekAcc; (repeat' split) <;> simp [-List.reduceReplicate]
@[simp] theorem kept_watchFresh (e space w cyc unit m) : kept (watchFresh e space w cyc unit m).s = kept m.s := by unfold watchFresh; (repeat' split) <;> simp [-List.reduceReplicate]
@[simp] theorem kept_vecOperand (e b f cyc src tiles m) : kept (vecOperand e b f cyc src tiles m).2.2.s = kept m.s := by unfold vecOperand; simp [-List.reduceReplicate]; (repeat' split) <;> simp [-List.reduceReplicate]
@[simp] theorem kept_doVector (e cyc f m) : kept (doVector e cyc f m).2.s = kept m.s := by unfold doVector; simp [-List.reduceReplicate]; (repeat' split) <;> simp [-List.reduceReplicate]
@[simp] theorem kept_doWriteBack (e w m) : kept (doWriteBack e w m).s = kept m.s := by unfold doWriteBack; simp; (repeat' split) <;> simp
@[simp] theorem kept_outWords (e b f m) : kept (outWords e b f m).2.s = kept m.s := by unfold outWords; simp [-List.reduceReplicate]; (repeat' split) <;> simp [-List.reduceReplicate]
@[simp] theorem kept_doOutlet (e cyc f m) : kept (doOutlet e cyc f m).s = kept m.s := by unfold doOutlet; simp [-List.reduceReplicate]; (repeat' split) <;> simp [-List.reduceReplicate]
@[simp] theorem kept_streamWrite (a ws s) : kept (streamWrite a ws s) = kept s := by unfold streamWrite; simp [kept_ite, -List.reduceReplicate]
@[simp] theorem kept_relaySend (per sp now X w s) : kept (relaySend per sp now X w s) = kept s := by unfold relaySend; (repeat' split) <;> (try simp) <;> (first | rw [kept_foldRange] | rw [kept_foldl]) <;> (try simp) <;> (try intros) <;> (repeat' split) <;> simp
@[simp] theorem kept_fillCovers (e s) : kept (fillCovers e s) = kept s := by unfold fillCovers; (repeat' split) <;> simp [kept_ite, -List.reduceReplicate]
@[simp] theorem kept_doLand (e l m) : kept (doLand e l m).s = kept m.s := by unfold doLand; simp; (repeat' split) <;> simp

end Sys2Proof.Machine
end

