-- ==== Sys2Proof/Laws/Frame/Run.lean ====
section
/-!
SUPPORT. Sys2Proof/Laws/Frame/Run.lean: what Machine/Run.lean leaves alone: the queue, the fuses and the debug mode.
-/

set_option Elab.async false

namespace Sys2Proof.Machine

@[simp] theorem kept_engineCycle (e cyc m) : kept (engineCycle e cyc m).s = kept m.s := by unfold engineCycle; simp [-List.reduceReplicate]; (repeat' split) <;> simp [-List.reduceReplicate]
@[simp] theorem kept_advance (e cyc f m) : kept (advance e cyc f m).2.s = kept m.s := by unfold advance; simp [-List.reduceReplicate]; (repeat' split) <;> simp [-List.reduceReplicate]
@[simp] theorem kept_advanceAll (e c l m) : kept (advanceAll e c l m).2.s = kept m.s := by
  induction l generalizing m with
  | nil => rfl
  | cons f l ih => simp [advanceAll, ih]
@[simp] theorem kept_landAll (e cyc engine m) : kept (landAll e cyc engine m).s = kept m.s := by unfold landAll; simp [-List.reduceReplicate]
@[simp] theorem kept_stationCycle (e cyc m) : kept (stationCycle e cyc m).s = kept m.s := by unfold stationCycle; simp [-List.reduceReplicate]
@[simp] theorem kept_endEarly (id st loc tick stop s) : kept (endEarly id st loc tick stop s) = kept s := by unfold endEarly; simp [-List.reduceReplicate]
@[simp] theorem kept_recordFault (e f s) : kept (recordFault e f s) = kept s := by unfold recordFault; simp [-List.reduceReplicate]
@[simp] theorem kept_takeFault (e f s) : kept (takeFault e f s) = kept s := by unfold takeFault; (repeat' split) <;> simp [-List.reduceReplicate]
@[simp] theorem kept_doBurst (b s) : kept (doBurst b s) = kept s := by unfold doBurst; (repeat' split) <;> simp
@[simp] theorem kept_relayLosses (X s) : kept (relayLosses X s) = kept s := by unfold relayLosses; (repeat' split) <;> (try simp) <;> (first | rw [kept_foldRange] | rw [kept_foldl]) <;> (try simp) <;> (try intros) <;> (repeat' split) <;> simp
@[simp] theorem kept_onLanes (X f l s) (h : ∀ e c (m : Sim), kept (f e c m).s = kept m.s) : kept (onLanes X f l s).2 = kept s := by
  induction l generalizing s with
  | nil => rfl
  | cons a l ih => simp only [onLanes]; split <;> simp [ih, h]
@[simp] theorem kept_faultCycle (e cyc m) : kept (faultCycle e cyc m).s = kept m.s := by unfold faultCycle; (repeat' split) <;> simp
@[simp] theorem kept_fillLanded (g f s) : kept (fillLanded g f s) = kept s := by unfold fillLanded; (repeat' split) <;> simp
@[simp] theorem kept_landChunk (g f s) : kept (landChunk g f s) = kept s := by unfold landChunk; (repeat' split) <;> simp
@[simp] theorem kept_fillCycle (X s) : kept (fillCycle X s) = kept s := by unfold fillCycle; (repeat' split) <;> (try simp) <;> (first | rw [kept_foldRange] | rw [kept_foldl]) <;> (try simp) <;> (try intros) <;> (repeat' split) <;> simp
@[simp] theorem kept_laneCycle (X r) : kept (laneCycle X r).2 = kept r.2 := by
  unfold laneCycle
  simp
@[simp] theorem kept_moduleCycle (bs X r) : kept (moduleCycle bs X r).2 = kept r.2 := by
  unfold moduleCycle
  dsimp only
  (repeat' split) <;> simp
@[simp] theorem kept_moduleCycles (bs n X r) : kept (moduleCycles bs n X r).2 = kept r.2 := by
  induction n generalizing X r with
  | zero => rfl
  | succ n ih => simp only [moduleCycles, ih, kept_moduleCycle]
@[simp] theorem kept_putLane (l s) : kept (putLane l s) = kept s := by unfold putLane; simp [-List.reduceReplicate]
@[simp] theorem kept_runTo (n s) : kept (runTo n s) = kept s := by
  unfold runTo
  (repeat' split) <;> (try split) <;> simp [kept_ite]
@[simp] theorem kept_laneCycles (n X r) : kept (laneCycles n X r).2 = kept r.2 := by
  induction n generalizing X r with
  | zero => rfl
  | succ n ih =>
    rw [laneCycles, ih]
    dsimp only
    split <;> simp
@[simp] theorem kept_catchUp (g s) : kept (catchUp g s) = kept s := by
  unfold catchUp; split <;> simp
@[simp] theorem kept_awaitPort (g isWrite pas n w s) : kept (awaitPort g isWrite pas n w s).2.2 = kept s := by
  induction n generalizing w s with
  | zero => rfl
  | succ n ih => simp only [awaitPort]; (repeat' split) <;> simp [ih]
@[simp] theorem kept_noteHub (g isWrite pas s) : kept (noteHub g isWrite pas s) = kept s := by unfold noteHub; (repeat' split) <;> simp
@[simp] theorem kept_hubTurn (g isWrite held pas s) : kept (hubTurn g isWrite held pas s).2 = kept s := by unfold hubTurn; simp; (repeat' split) <;> simp
@[simp] theorem kept_hubReads (g held rs s) : kept (hubReads g held rs s).2 = kept s := by
  induction rs generalizing held s with
  | nil => rfl
  | cons p rs ih => unfold hubReads; dsimp only; split <;> simp [ih]
@[simp] theorem kept_hubWrites (g held rs s) : kept (hubWrites g held rs s).2 = kept s := by
  induction rs generalizing held s with
  | nil => rfl
  | cons p rs ih => unfold hubWrites; dsimp only; split <;> simp [ih]
@[simp] theorem kept_hubGet (g held pas s) : kept (hubGet g held pas s).2 = kept s := by
  unfold hubGet
  split
  · rename_i h; rw [← kept_hubReads g held (bankRounds bankOfPa pas) s, h]
  · rfl
@[simp] theorem kept_hubPut (g held ws s) : kept (hubPut g held ws s).2 = kept s := by
  unfold hubPut
  split
  · rename_i h; rw [← kept_hubWrites g held (bankRounds (fun w => bankOfPa w.1) ws) s, h]
  · rfl

end Sys2Proof.Machine
end

