-- ==== Sys2Proof/Laws/Frame/Regions.lean ====
section
/-!
SUPPORT. Sys2Proof/Laws/Frame/Regions.lean: what Machine/Regions.lean leaves alone: the queue, the fuses and the debug mode.
-/

set_option Elab.async false

namespace Sys2Proof.Machine

@[simp] theorem kept_doRegionDeclare (g j mode feed sealed base rows wblk s) : kept (doRegionDeclare g j mode feed sealed base rows wblk s).2 = kept s := by unfold doRegionDeclare; (repeat' split) <;> simp
@[simp] theorem kept_freeEngine (g s) : kept (freeEngine g s) = kept s := by unfold freeEngine; simp
@[simp] theorem kept_startFill (g f s) : kept (startFill g f s) = kept s := by rfl
@[simp] theorem kept_releaseRgn (g j s) : kept (releaseRgn g j s) = kept s := by unfold releaseRgn; simp; (repeat' split) <;> simp
@[simp] theorem kept_landZeroFills (g s) : kept (landZeroFills g s) = kept s := by
  unfold landZeroFills; simp
@[simp] theorem kept_doRegionRelease (g j s) : kept (doRegionRelease g j s).2 = kept s := by unfold doRegionRelease; (repeat' split) <;> simp
@[simp] theorem kept_doRegionFill (g j v s) : kept (doRegionFill g j v s).2 = kept s := by unfold doRegionFill; (repeat' split) <;> simp
@[simp] theorem kept_landFill (g j v s) : kept (landFill g j v s) = kept s := by unfold landFill; simp
@[simp] theorem kept_takeWork (i s) : kept (takeWork i s).2 = kept s := by unfold takeWork; simp
@[simp] theorem kept_doRegionFillDone (i s) : kept (doRegionFillDone i s) = kept s := by unfold doRegionFillDone; (repeat' split) <;> simp
@[simp] theorem kept_doRestorationEnable (addr s) : kept (doRestorationEnable addr s).2 = kept s := by unfold doRestorationEnable; simp; (repeat' split) <;> simp
@[simp] theorem kept_doRestorationDisable (s) : kept (doRestorationDisable s).2 = kept s := by unfold doRestorationDisable; (repeat' split) <;> simp
@[simp] theorem kept_disableRestoration (s) : kept (disableRestoration s) = kept s := by unfold disableRestoration; simp [kept_ite]

end Sys2Proof.Machine
end

