-- ==== Sys2Proof/Laws/Frame/Module.lean ====
section
/-!
SUPPORT. Sys2Proof/Laws/Frame/Module.lean: what Machine/Module.lean leaves alone: the queue, the fuses and the debug mode.
-/

set_option Elab.async false

namespace Sys2Proof.Machine

@[simp] theorem kept_gateGalleries (s) : kept (gateGalleries s) = kept s := by unfold gateGalleries; simp
@[simp] theorem kept_startGallery (g s) : kept (startGallery g s) = kept s := by unfold startGallery; simp
@[simp] theorem kept_finishGalleriesStart (idle failed s) : kept (finishGalleriesStart idle failed s).2 = kept s := by unfold finishGalleriesStart; simp; (repeat' split) <;> simp
@[simp] theorem kept_doGalleriesStart (s) : kept (doGalleriesStart s).2 = kept s := by unfold doGalleriesStart; (repeat' split) <;> simp
@[simp] theorem kept_doGalleriesStop (s) : kept (doGalleriesStop s).2 = kept s := by unfold doGalleriesStop; (repeat' split) <;> simp
@[simp] theorem kept_doHbmTrain (stks s) : kept (doHbmTrain stks s).2 = kept s := by unfold doHbmTrain; simp
@[simp] theorem kept_finishHbmTrain (stks failed s) : kept (finishHbmTrain stks failed s).2 = kept s := by unfold finishHbmTrain; simp
@[simp] theorem kept_poisonCabinetEntries (s) : kept (poisonCabinetEntries s) = kept s := by unfold poisonCabinetEntries; simp [kept_ite]
@[simp] theorem kept_closeCabinetWindows (s) : kept (closeCabinetWindows s) = kept s := by unfold closeCabinetWindows; simp
@[simp] theorem kept_galleriesReset (s) : kept (galleriesReset s) = kept s := by unfold galleriesReset; simp; (repeat' split) <;> simp
@[simp] theorem kept_resetGalleries (h s) : kept (resetGalleries h s) = kept s := by
  have hc := kept_command h 0x0104 (fun x => (if galleriesBusy x then ansFail stNotReady else ansOk, x)) s (fun _ => rfl)
  unfold resetGalleries; simp only [kept_ite, kept_galleriesReset, hc, ite_self]
theorem calm_resetDevice (h s) : Calm s (resetDevice h s) := by
  unfold resetDevice
  split
  · exact (calm_of_kept (by simp)).trans (calm_deviceReset 2 _)
  · exact .refl s

end Sys2Proof.Machine
end

