-- ==== Sys2Proof/Laws/Frame/Random.lean ====
section
/-!
SUPPORT. Sys2Proof/Laws/Frame/Random.lean: what Machine/Random.lean leaves alone: the queue, the fuses and the debug mode.
-/

set_option Elab.async false

namespace Sys2Proof.Machine

@[simp] theorem kept_rawBits (n s) : kept (rawBits n s).2 = kept s := by
  induction n generalizing s with
  | zero => rfl
  | succ n ih => simp [rawBits, ih]
@[simp] theorem kept_setDrbg (d s) : kept (setDrbg d s) = kept s := by unfold setDrbg; simp
@[simp] theorem kept_drbgFresh (s) : kept (drbgFresh s) = kept s := by unfold drbgFresh; simp
@[simp] theorem kept_drbgReseeded (s) : kept (drbgReseeded s) = kept s := by unfold drbgReseeded; simp
theorem kept_drbgInstantiateFrom (r) : kept (drbgInstantiateFrom r) = kept r.2 := by
  unfold drbgInstantiateFrom; rw [kept_drbgFresh, kept_setDrbg]
@[simp] theorem kept_drbgInstantiateNow (s) : kept (drbgInstantiateNow s) = kept s :=
  (kept_drbgInstantiateFrom _).trans (kept_rawBits 3 s)
@[simp] theorem kept_drbgStart (s) : kept (drbgStart s) = kept s := by unfold drbgStart; (repeat' split) <;> simp
theorem kept_drbgReseedFrom (r) : kept (drbgReseedFrom r) = kept r.2 := by
  unfold drbgReseedFrom; rw [kept_drbgReseeded, kept_setDrbg]
@[simp] theorem kept_drbgReseed (s) : kept (drbgReseed s) = kept s :=
  (kept_drbgReseedFrom _).trans (kept_rawBits 2 s)
@[simp] theorem kept_drbgAnswer (s r) : kept (drbgAnswer s r).2 = kept s := rfl
@[simp] theorem kept_drbgRequest (n s) : kept (drbgRequest n s).2 = kept s := by
  unfold drbgRequest; simp only [kept_drbgAnswer, kept_ite, kept_drbgReseed, ite_self]
@[simp] theorem kept_drbgDrawFrom (f n s) : kept (drbgDrawFrom f n s).2 = kept s := by
  induction f generalizing n s with
  | zero => rfl
  | succ f ih => unfold drbgDrawFrom; (repeat' split) <;> simp only [ih, kept_drbgRequest]
@[simp] theorem kept_drbgDraw (n s) : kept (drbgDraw n s).2 = kept s := by unfold drbgDraw; simp
@[simp] theorem kept_drbgZero (s) : kept (drbgZero s) = kept s := by unfold drbgZero; simp
@[simp] theorem kept_doDrbgInstantiate (s) : kept (doDrbgInstantiate s).2 = kept s := by unfold doDrbgInstantiate; simp
@[simp] theorem kept_finishDrbgInstantiate (failed s) : kept (finishDrbgInstantiate failed s).2 = kept s := by unfold finishDrbgInstantiate; simp; (repeat' split) <;> simp
@[simp] theorem kept_doDrbgFill (g j flags noise count q s) : kept (doDrbgFill g j flags noise count q s).2 = kept s := by unfold doDrbgFill; simp; (repeat' split) <;> simp
@[simp] theorem kept_putRgnWords (g j ws s) : kept (putRgnWords g j ws s) = kept s := by unfold putRgnWords; simp
@[simp] theorem kept_hubDefer (g s) : kept (hubDefer g s) = kept s := by unfold hubDefer; simp; (repeat' split) <;> simp
@[simp] theorem kept_hubBulk (g j ws s) : kept (hubBulk g j ws s) = kept s := by unfold hubBulk; simp
@[simp] theorem kept_finishDrbgFill (g j setReady fresh noise q count s) : ∀ r, finishDrbgFill g j setReady fresh noise q count s = some r → kept r.2 = kept s := by unfold finishDrbgFill; simp; (repeat' split) <;> simp
@[simp] theorem kept_noteOp (cycles s) : kept (noteOp cycles s) = kept s := by unfold noteOp; simp
@[simp] theorem kept_doGeneratorFill (dest flags g j count addr seed lidx s) : kept (doGeneratorFill dest flags g j count addr seed lidx s).2 = kept s := by unfold doGeneratorFill; simp; (repeat' split) <;> simp
@[simp] theorem kept_finishGeneratorFill (dest setReady g j count addr seed lidx s) : ∀ r, finishGeneratorFill dest setReady g j count addr seed lidx s = some r → kept r.2 = kept s := by unfold finishGeneratorFill; (repeat' split) <;> simp
@[simp] theorem kept_stopFills (s) : kept (stopFills s) = kept s := by unfold stopFills; simp
@[simp] theorem kept_doEsHealthFail (repetition s) : kept (doEsHealthFail repetition s) = kept s := by unfold doEsHealthFail; (repeat' split) <;> simp
@[simp] theorem kept_drbgScalar (s) : kept (drbgScalar s).2 = kept s := by unfold drbgScalar; simp
@[simp] theorem kept_selfFailed (s) : kept (selfFailed s) = kept s := by unfold selfFailed; simp
@[simp] theorem kept_identitySign (e s) : kept (identitySign e s).2 = kept s := by unfold identitySign; simp; (repeat' split) <;> simp

end Sys2Proof.Machine
end

