-- ==== Sys2Proof/Laws/Frame/Vault.lean ====
section
/-!
SUPPORT. Sys2Proof/Laws/Frame/Vault.lean: what Machine/Vault.lean leaves alone: the queue, the fuses and the debug mode.
-/

set_option Elab.async false

namespace Sys2Proof.Machine

@[simp] theorem kept_modMedium (s f) : kept (modMedium s f) = kept s := by unfold modMedium; simp
@[simp] theorem kept_checkReadOnly (s) : kept (checkReadOnly s) = kept s := by unfold checkReadOnly; simp; (repeat' split) <;> simp
@[simp] theorem kept_wipeStripe (k s) : kept (wipeStripe k s) = kept s := by unfold wipeStripe; simp
@[simp] theorem kept_reclaim (avoid start s) : kept (reclaim avoid start s) = kept s := by unfold reclaim; (repeat' split) <;> simp
@[simp] theorem kept_pickSlot (avoid s) : kept (pickSlot avoid s).2 = kept s := by unfold pickSlot; simp
@[simp] theorem kept_moveSlot (old new s) : kept (moveSlot old new s) = kept s := by unfold moveSlot; simp
@[simp] theorem kept_writeSnapshots (s) : kept (writeSnapshots s) = kept s := by unfold writeSnapshots; simp
@[simp] theorem kept_putMap (e st slot isSealed s) : kept (putMap e st slot isSealed s) = kept s := by unfold putMap; simp; (repeat' split) <;> simp
@[simp] theorem kept_relocateExtent (e s) : kept (relocateExtent e s) = kept s := by unfold relocateExtent; simp
@[simp] theorem kept_moveOut (slot f s) (h : ∀ a b x, kept (f a b x) = kept x) : kept (moveOut slot f s) = kept s := by
  unfold moveOut; simp [h]
@[simp] theorem kept_eraseStripe (k s) : kept (eraseStripe k s) = kept s := by unfold eraseStripe; simp
@[simp] theorem kept_wearOn (s) : kept (wearOn s) = kept s := by unfold wearOn; simp
@[simp] theorem kept_eraseSealed (stale s) : kept (eraseSealed stale s) = kept s := by unfold eraseSealed; simp
@[simp] theorem kept_commitExtent (e st slot isSealed s) : kept (commitExtent e st slot isSealed s) = kept s := by unfold commitExtent; simp
@[simp] theorem kept_doVaultOpen (s) : kept (doVaultOpen s).2 = kept s := by unfold doVaultOpen; (repeat' split) <;> simp
@[simp] theorem kept_firstOpen (s) : kept (firstOpen s) = kept s := by unfold firstOpen; simp
@[simp] theorem kept_finishVaultOpen (failed s) : kept (finishVaultOpen failed s).2 = kept s := by unfold finishVaultOpen; (repeat' split) <;> simp
@[simp] theorem kept_doVaultClose (s) : kept (doVaultClose s).2 = kept s := by unfold doVaultClose; (repeat' split) <;> simp
@[simp] theorem kept_finishVaultClose (s) : ∀ r, finishVaultClose s = some r → kept r.2 = kept s := by unfold finishVaultClose; (repeat' split) <;> simp
@[simp] theorem kept_doExtentRelease (first count s) : kept (doExtentRelease first count s).2 = kept s := by unfold doExtentRelease; (repeat' split) <;> simp
@[simp] theorem kept_finishExtentRelease (first count s) : ∀ r, finishExtentRelease first count s = some r → kept r.2 = kept s := by unfold finishExtentRelease; (repeat' split) <;> simp
@[simp] theorem kept_doExtentQuery (first count addr s) : kept (doExtentQuery first count addr s).2 = kept s := by unfold doExtentQuery; (repeat' split) <;> simp
@[simp] theorem kept_newKeys (s) : kept (newKeys s) = kept s := by unfold newKeys; simp
@[simp] theorem kept_doVaultSanitize (s) : kept (doVaultSanitize s).2 = kept s := by unfold doVaultSanitize; (repeat' split) <;> simp
@[simp] theorem kept_finishVaultSanitize (s) : kept (finishVaultSanitize s).2 = kept s := by unfold finishVaultSanitize; simp
@[simp] theorem kept_doPatrolSet (enable threshold s) : kept (doPatrolSet enable threshold s).2 = kept s := by unfold doPatrolSet; (repeat' split) <;> simp
@[simp] theorem kept_doExtentCommit (e s) : kept (doExtentCommit e s) = kept s := by unfold doExtentCommit; (repeat' split) <;> simp
@[simp] theorem kept_doProgramFail (e s) : kept (doProgramFail e s) = kept s := by unfold doProgramFail; simp; (repeat' split) <;> simp
@[simp] theorem kept_damageExtent (e unit s) : kept (damageExtent e unit s) = kept s := by unfold damageExtent; simp
@[simp] theorem kept_doPatrolRead (e corrected uncorrectable s) : kept (doPatrolRead e corrected uncorrectable s) = kept s := by unfold doPatrolRead; simp; (repeat' split) <;> simp
@[simp] theorem kept_doExtentRelocate (e copied s) : kept (doExtentRelocate e copied s) = kept s := by unfold doExtentRelocate; simp; (repeat' split) <;> simp
@[simp] theorem kept_dropWrites (ch s) : kept (dropWrites ch s) = kept s := by unfold dropWrites; simp
@[simp] theorem kept_tornCommit (s w) : kept (tornCommit s w) = kept s := by unfold tornCommit; simp; (repeat' split) <;> simp
@[simp] theorem kept_doOpenPassDone (s) : kept (doOpenPassDone s) = kept s := by unfold doOpenPassDone; (repeat' split) <;> simp
@[simp] theorem kept_storeExtents (n e b bs s r) (h : storeExtents n e b bs s = some r) : kept r = kept s := by
  induction n generalizing e bs s with
  | zero => simp only [storeExtents, Option.some.injEq] at h; rw [h]
  | succ n ih =>
    unfold storeExtents at h
    (repeat' split at h)
    · simp only [Option.some.injEq] at h; rw [h]
    · simp at h
    · rw [ih _ _ _ h]; simp

end Sys2Proof.Machine
end

