-- ==== Sys2Proof/Laws/Frame/Dma.lean ====
section
/-!
SUPPORT. Sys2Proof/Laws/Frame/Dma.lean: what Machine/Dma.lean leaves alone: the queue, the fuses and the debug mode.
-/

set_option Elab.async false

namespace Sys2Proof.Machine

@[simp] theorem kept_writeRecord (ch p st residue readySet stop catLoaded s) : kept (writeRecord ch p st residue readySet stop catLoaded s) = kept s := by unfold writeRecord; simp; (repeat' split) <;> simp
@[simp] theorem kept_endDesc (ch p st stop s) : kept (endDesc ch p st stop s) = kept s := by unfold endDesc; simp; (repeat' split) <;> simp
@[simp] theorem kept_doDmaDoorbell (ch tail writes s) : kept (doDmaDoorbell ch tail writes s) = kept s := by unfold doDmaDoorbell; simp; (repeat' split) <;> simp
@[simp] theorem kept_abortChan (ch s) : kept (abortChan ch s) = kept s := by unfold abortChan; simp
@[simp] theorem kept_doDmaCtrl (ch v s) : kept (doDmaCtrl ch v s) = kept s := by unfold doDmaCtrl; (repeat' split) <;> simp
@[simp] theorem kept_doCreditAdd (ch n s) : kept (doCreditAdd ch n s) = kept s := by unfold doCreditAdd; (repeat' split) <;> simp
@[simp] theorem kept_doEngineResume (v s) : kept (doEngineResume v s) = kept s := by unfold doEngineResume; (repeat' split) <;> simp
@[simp] theorem kept_descBytes (s ch) : kept (descBytes s ch).2 = kept s := by unfold descBytes; simp
@[simp] theorem kept_fetchDesc (ch s) : kept (fetchDesc ch s) = kept s := by unfold fetchDesc; simp; (repeat' split) <;> simp
@[simp] theorem kept_doDmaCopy (ch s) : kept (doDmaCopy ch s) = kept s := by unfold doDmaCopy; (repeat' split) <;> simp
@[simp] theorem kept_doDmaReduce (ch s) : kept (doDmaReduce ch s) = kept s := by unfold doDmaReduce; (repeat' split) <;> simp
@[simp] theorem kept_doDmaRequest (line n s) : kept (doDmaRequest line n s) = kept s := by unfold doDmaRequest; (repeat' split) <;> simp
@[simp] theorem kept_sendPacket (p s) : kept (sendPacket p s).2 = kept s := by unfold sendPacket; (repeat' split) <;> simp
@[simp] theorem kept_sendOpenings (slot tour off bs s) : kept (sendOpenings slot tour off bs s) = kept s := by unfold sendOpenings; (repeat' split) <;> (try simp) <;> (first | rw [kept_foldRange] | rw [kept_foldl]) <;> (try simp) <;> (try intros) <;> (repeat' split) <;> simp
theorem kept_burstSlots (s p n r) (h : burstSlots s p n = some r) : kept r = kept s := by
  unfold burstSlots at h
  rw [Option.bind_eq_some_iff] at h
  obtain ⟨m, hm, hr⟩ := h
  have e1 : kept m = kept s := by
    split at hm
    · exact kept_placeRange _ _ _ _ _ hm
    · simp only [Option.some.injEq] at hm; rw [hm]
  have e2 : kept r = kept m := by
    split at hr
    · exact kept_placeRange _ _ _ _ _ hr
    · simp only [Option.some.injEq] at hr; rw [hr]
  rw [e2, e1]
@[simp] theorem kept_cabRead (g j off n held s) : kept (cabRead g j off n held s).2 = kept s := by unfold cabRead; simp
@[simp] theorem kept_cabWrite (g j off bs held s) : kept (cabWrite g j off bs held s).2 = kept s := by unfold cabWrite; simp
@[simp] theorem kept_vaultBad (e slot unit s) : kept (vaultBad e slot unit s) = kept s := by unfold vaultBad; (repeat' split) <;> simp
@[simp] theorem kept_vaultRead (f a n v s) : kept (vaultRead f a n v s).2.2 = kept s := by
  induction f generalizing a n v s with
  | zero => rfl
  | succ f ih => unfold vaultRead; (repeat' split) <;> (try simp) <;> (repeat' split) <;> simp_all
theorem kept_burstRead (p n ack s r) (h : burstRead p n ack s = some r) : kept r.2.2 = kept s := by
  unfold burstRead at h
  dsimp only at h
  (repeat' split at h) <;> (try cases h) <;> (try simp) <;>
    (have e := kept_cabRead (auxGal p.desc.srcAux) (auxRgn p.desc.srcAux) (p.desc.srcAddr + p.written) n p.held s; simp_all)
@[simp] theorem kept_reduceFrom (o k f a bs d s) : kept (reduceFrom o k f a bs d s).2.2 = kept s := by
  induction f generalizing a bs d s with
  | zero => rfl
  | succ f ih => unfold reduceFrom; simp; (repeat' split) <;> simp [ih]
@[simp] theorem kept_vaultProgram (ch a isSealed bs s) : kept (vaultProgram ch a isSealed bs s) = kept s := by unfold vaultProgram; simp; (repeat' split) <;> simp
theorem kept_burstWrite (ch p tour bs ack s r) (h : burstWrite ch p tour bs ack s = some r) : kept r.2.2 = kept s := by
  unfold burstWrite at h
  dsimp only at h
  (repeat' split at h) <;> (try cases h) <;> (try simp) <;> (try (split <;> simp)) <;>
    (have e := kept_cabWrite (auxGal p.desc.dstAux) (auxRgn p.desc.dstAux) (p.desc.dstAddr + p.written)
      (bs.take (bs.length / 4 * 4)) p.held s; simp_all)
@[simp] theorem kept_poisonHost (p done n st s) : kept (poisonHost p done n st s) = kept s := by unfold poisonHost; simp; (repeat' split) <;> simp
theorem kept_moveBurst (ch p ack s r) (h : moveBurst ch p ack s = some r) : kept r = kept s := by
  unfold moveBurst at h
  dsimp only at h
  split at h
  · cases h
  · rename_i hr
    split at h
    · cases h
    · rename_i hw
      cases h
      have e1 := kept_burstRead _ _ _ _ _ hr
      have e2 := kept_burstWrite _ _ _ _ _ _ _ hw
      simp only [kept_modChan, kept_poisonHost, e2, e1]
      (repeat' split) <;> simp
@[simp] theorem kept_refuseBurst (ch p st s) : kept (refuseBurst ch p st s) = kept s := by unfold refuseBurst; (repeat' split) <;> simp
@[simp] theorem kept_doDmaBurst (ch ack s) : kept (doDmaBurst ch ack s) = kept s := by
  unfold doDmaBurst
  dsimp only
  (repeat' split) <;> (try simp)
  rw [kept_moveBurst _ _ _ _ _ ‹_›, kept_burstSlots _ _ _ _ ‹_›]
@[simp] theorem kept_doDmaCompletion (ch s) : kept (doDmaCompletion ch s) = kept s := by unfold doDmaCompletion; simp; (repeat' split) <;> simp
@[simp] theorem kept_inFlightBytes (ch p s) : kept (inFlightBytes ch p s) = kept s := by unfold inFlightBytes; simp; (repeat' split) <;> simp
@[simp] theorem kept_stopChan (ch s) : kept (stopChan ch s) = kept s := by unfold stopChan; (repeat' split) <;> simp
@[simp] theorem kept_doEngineStop (iface addr s) : kept (doEngineStop iface addr s) = kept s := by unfold doEngineStop; simp; (repeat' split) <;> simp
@[simp] theorem kept_hubReadWord (g pa held s) : kept (hubReadWord g pa held s).2 = kept s := by
  have e := kept_hubGet g held [pa] s
  unfold hubReadWord
  split <;> simp_all
@[simp] theorem kept_hubWord (g pa acc held s) : kept (hubWord g pa acc held s).2 = kept s := by unfold hubWord; simp; (repeat' split) <;> simp
@[simp] theorem kept_doHubPort (g pa cycle acc s) : kept (doHubPort g pa cycle acc s) = kept s := by unfold doHubPort; simp; (repeat' split) <;> simp

end Sys2Proof.Machine
end

