-- ==== Sys2Proof/Laws/Frame/Monitors.lean ====
section
/-!
SUPPORT. Sys2Proof/Laws/Frame/Monitors.lean: what Machine/Monitors.lean leaves alone: the queue, the fuses and the debug mode.
-/

set_option Elab.async false

namespace Sys2Proof.Machine

@[simp] theorem kept_captureFrom (source v s) : kept (captureFrom source v s) = kept s := by unfold captureFrom; simp
@[simp] theorem kept_doMonitorConfig (unit source shift offset s) : kept (doMonitorConfig unit source shift offset s).2 = kept s := by unfold doMonitorConfig; (repeat' split) <;> simp
@[simp] theorem kept_doMonitorSnapshot (space addr s) : kept (doMonitorSnapshot space addr s).2 = kept s := by unfold doMonitorSnapshot; (repeat' split) <;> simp
@[simp] theorem kept_monitorEdge (s) : kept (monitorEdge s) = kept s := by unfold monitorEdge; simp
@[simp] theorem kept_finishSnapshot (hbm addr image s) : ∀ r, finishSnapshot hbm addr image s = some r → kept r.2 = kept s := by unfold finishSnapshot; simp
@[simp] theorem kept_countStall (cause s) : kept (countStall cause s) = kept s := by unfold countStall; simp
@[simp] theorem kept_addTotals (c s) : kept (addTotals c s) = kept s := by unfold addTotals; simp

end Sys2Proof.Machine
end

