-- ==== Sys2Proof/Laws/Frame/Restore.lean ====
section
/-!
SUPPORT. Sys2Proof/Laws/Frame/Restore.lean: what Machine/Restore.lean leaves alone: the queue, the fuses and the debug mode.
-/

set_option Elab.async false

namespace Sys2Proof.Machine

@[simp] theorem kept_cleanLines (a n s) : kept (cleanLines a n s) = kept s := by unfold cleanLines; simp
@[simp] theorem kept_storeVault (out logN limbs special ws s) : kept (storeVault out logN limbs special ws s) = kept s := by
  unfold storeVault
  dsimp only
  rcases h : storeExtents _ _ _ _ s with _ | r
  · rfl
  · exact kept_storeExtents _ _ _ _ _ _ h
@[simp] theorem kept_storeResult (out logN limbs special ws s) : kept (storeResult out logN limbs special ws s) = kept s := by unfold storeResult; (repeat' split) <;> simp
@[simp] theorem kept_restoreStore (j s) : kept (restoreStore j s) = kept s := by unfold restoreStore; simp; (repeat' split) <;> simp
@[simp] theorem kept_stageEcc (s j k) : kept (stageEcc s j k) = kept s := by unfold stageEcc; simp

end Sys2Proof.Machine
end

