-- ==== Sys2Proof/Laws/Frame/Sequencer.lean ====
section
/-!
SUPPORT. Sys2Proof/Laws/Frame/Sequencer.lean: what Machine/Sequencer.lean leaves alone: the queue, the fuses and the debug mode.
-/

set_option Elab.async false

namespace Sys2Proof.Machine

@[simp] theorem kept_doReadinessSample (id s) : kept (doReadinessSample id s) = kept s := by unfold doReadinessSample; simp; (repeat' split) <;> simp
@[simp] theorem kept_poisonedLaunch (t g r s) : kept (poisonedLaunch t g r s) = kept s := by unfold poisonedLaunch; simp
@[simp] theorem kept_doStepLaunch (g s) : kept (doStepLaunch g s) = kept s := by unfold doStepLaunch; simp; (repeat' split) <;> simp
@[simp] theorem kept_completeStep (g i s) : kept (completeStep g i s) = kept s := by unfold completeStep; simp [kept_ite]
@[simp] theorem kept_leaveStep (g s) : kept (leaveStep g s) = kept s := by unfold leaveStep; simp
@[simp] theorem kept_settleStep (g s) : kept (settleStep g s) = kept s := by unfold settleStep; (repeat' split) <;> simp
@[simp] theorem kept_poisonRgns (st ps s) : kept (poisonRgns st ps s) = kept s := by unfold poisonRgns; simp [kept_ite]
@[simp] theorem kept_haltGallery (t st g s) : kept (haltGallery t st g s) = kept s := by unfold haltGallery; simp; (repeat' split) <;> simp
@[simp] theorem kept_haltTour (id s) : kept (haltTour id s) = kept s := by unfold haltTour; (repeat' split) <;> simp
@[simp] theorem kept_haltAtEdge (id s) : kept (haltAtEdge id s) = kept s := by unfold haltAtEdge; (repeat' split) <;> simp
@[simp] theorem kept_locateAt (t g station cause X s) : kept (locateAt t g station cause X s).2 = kept s := by unfold locateAt; simp; (repeat' split) <;> simp
@[simp] theorem kept_endWithin (n t st g station cause s) : kept (endWithin n t st g station cause s) = kept s := by unfold endWithin; simp
@[simp] theorem kept_endInTick (t st g station cause s) : kept (endInTick t st g station cause s) = kept s := by unfold endInTick; simp
@[simp] theorem kept_leaveBank (t g s) : kept (leaveBank t g s) = kept s := by unfold leaveBank; simp
@[simp] theorem kept_exchangeGal (t g s) : kept (exchangeGal t g s) = kept s := by unfold exchangeGal; simp
@[simp] theorem kept_endEarlier (t s) : kept (endEarlier t s) = kept s := by unfold endEarlier; simp [kept_ite]
@[simp] theorem kept_writeOutput (t whole i s) : kept (writeOutput t whole i s) = kept s := by unfold writeOutput; (repeat' split) <;> simp
@[simp] theorem kept_unlockEntries (t s) : kept (unlockEntries t s) = kept s := by unfold unlockEntries; simp [kept_ite]
@[simp] theorem kept_freeBank (t g s) : kept (freeBank t g s) = kept s := by unfold freeBank; (repeat' split) <;> simp
@[simp] theorem kept_countTour (t s) : kept (countTour t s) = kept s := by unfold countTour; (repeat' split) <;> simp
@[simp] theorem kept_readyWrites (t s) : kept (readyWrites t s) = kept s := by unfold readyWrites; simp [kept_ite, -List.reduceReplicate]
@[simp] theorem kept_writeCompletion (t st f s) : kept (writeCompletion t st f s) = kept s := by unfold writeCompletion; (repeat' split) <;> simp
@[simp] theorem kept_settleRestore (id s) : kept (settleRestore id s) = kept s := by unfold settleRestore; (repeat' split) <;> simp
@[simp] theorem kept_drawChecks (id s) : kept (drawChecks id s) = kept s := by unfold drawChecks; simp; (repeat' split) <;> simp
@[simp] theorem kept_macroMismatch (binding step cycle cause g s) : kept (macroMismatch binding step cycle cause g s) = kept s := by unfold macroMismatch; simp
@[simp] theorem kept_failRestore (t k f s) : kept (failRestore t k f s) = kept s := by unfold failRestore; simp; (repeat' split) <;> simp
@[simp] theorem kept_stageCheck (t j k s) : kept (stageCheck t j k s) = kept s := by unfold stageCheck; (repeat' split) <;> simp
@[simp] theorem kept_restoreChecks (id s) : kept (restoreChecks id s) = kept s := by unfold restoreChecks; (repeat' split) <;> (try simp) <;> (first | rw [kept_foldRange] | rw [kept_foldl]) <;> (try simp) <;> (try intros) <;> (repeat' split) <;> simp
@[simp] theorem kept_closeRestore (t st f s) : kept (closeRestore t st f s) = kept s := by unfold closeRestore; simp; (repeat' split) <;> simp
@[simp] theorem kept_finishTour (id s) : kept (finishTour id s) = kept s := by unfold finishTour; simp; (repeat' split) <;> simp
@[simp] theorem kept_doTourEnd (id s) : kept (doTourEnd id s) = kept s := by unfold doTourEnd; simp; (repeat' split) <;> simp
@[simp] theorem kept_endAwaited (id s) : kept (endAwaited id s) = kept s := by unfold endAwaited; (repeat' split) <;> simp
@[simp] theorem kept_doTourStart (id s) : kept (doTourStart id s) = kept s := by unfold doTourStart; simp; (repeat' split) <;> simp
@[simp] theorem kept_doTourOverrun (id s) : kept (doTourOverrun id s) = kept s := by unfold doTourOverrun; simp; (repeat' split) <;> simp
@[simp] theorem kept_doHoldLimit (id s) : kept (doHoldLimit id s) = kept s := by unfold doHoldLimit; (repeat' split) <;> simp
@[simp] theorem kept_lateTours (tick uses x2 s) : kept (lateTours tick uses x2 s) = kept s := by unfold lateTours; simp
@[simp] theorem kept_stopStepOn (g s) : kept (stopStepOn g s) = kept s := by unfold stopStepOn; (repeat' split) <;> simp
@[simp] theorem kept_dropRelay (i s) : kept (dropRelay i s) = kept s := by unfold dropRelay; (repeat' split) <;> simp
@[simp] theorem kept_loseHub (s) : kept (loseHub s) = kept s := by unfold loseHub; simp
@[simp] theorem kept_doIslandLoss (i s) : kept (doIslandLoss i s) = kept s := by unfold doIslandLoss; (repeat' split) <;> simp
@[simp] theorem kept_missCrossing (t g v s) : kept (missCrossing t g v s) = kept s := by unfold missCrossing; simp
@[simp] theorem kept_doLateArrival (g s) : kept (doLateArrival g s) = kept s := by unfold doLateArrival; simp; (repeat' split) <;> simp
@[simp] theorem kept_loseInFlight (die s) : kept (loseInFlight die s) = kept s := by unfold loseInFlight; simp [kept_ite]
@[simp] theorem kept_failCrossings (n cs s) : kept (failCrossings n cs s) = kept s := by unfold failCrossings; (repeat' split) <;> (try simp) <;> (first | rw [kept_foldRange] | rw [kept_foldl]) <;> (try simp) <;> (try intros) <;> (repeat' split) <;> simp
@[simp] theorem kept_doFlitLoss (dir10 inFlight s) : kept (doFlitLoss dir10 inFlight s) = kept s := by unfold doFlitLoss; (repeat' split) <;> simp
@[simp] theorem kept_doBridgeRetrain (due s) : kept (doBridgeRetrain due s) = kept s := by unfold doBridgeRetrain; (repeat' split) <;> simp
@[simp] theorem kept_doRetrainDone (s) : kept (doRetrainDone s) = kept s := by unfold doRetrainDone; (repeat' split) <;> simp

end Sys2Proof.Machine
end

