-- ==== Sys2Proof/Laws/Frame/Tours.lean ====
section
/-!
SUPPORT. Sys2Proof/Laws/Frame/Tours.lean: what Machine/Tours.lean leaves alone: the queue, the fuses and the debug mode.
-/

set_option Elab.async false

namespace Sys2Proof.Machine

@[simp] theorem kept_setInactive (st g s) : kept (setInactive st g s) = kept s := by unfold setInactive; simp
@[simp] theorem kept_readPackage (src addr bytes s) : kept (readPackage src addr bytes s).2 = kept s := by unfold readPackage; simp; (repeat' split) <;> simp
@[simp] theorem kept_lockEntries (cats s) : kept (lockEntries cats s) = kept s := by unfold lockEntries; simp
@[simp] theorem kept_landImage (t tags g s) : kept (landImage t tags g s) = kept s := by unfold landImage; simp
@[simp] theorem kept_landTour (t s) : kept (landTour t s) = kept s := by unfold landTour; simp
@[simp] theorem kept_loadPackage (bs s) : kept (loadPackage bs s).2 = kept s := by unfold loadPackage; simp; (repeat' split) <;> simp
@[simp] theorem kept_doTourLoad (src addr bytes s) : kept (doTourLoad src addr bytes s).2 = kept s := by unfold doTourLoad; simp; (repeat' split) <;> simp
@[simp] theorem kept_dropTour (t s) : kept (dropTour t s) = kept s := by unfold dropTour; simp
@[simp] theorem kept_finishTourLoad (id st detail s) : kept (finishTourLoad id st detail s).2 = kept s := by unfold finishTourLoad; (repeat' split) <;> simp
@[simp] theorem kept_doTourLoadDone (i s) : kept (doTourLoadDone i s) = kept s := by unfold doTourLoadDone; simp; (repeat' split) <;> simp
@[simp] theorem kept_doTourUnload (id s) : kept (doTourUnload id s).2 = kept s := by unfold doTourUnload; (repeat' split) <;> simp
@[simp] theorem kept_doTourQuery (id s) : kept (doTourQuery id s).2 = kept s := by unfold doTourQuery; (repeat' split) <;> simp
@[simp] theorem kept_ckptFloor (t s) : kept (ckptFloor t s).2 = kept s := by unfold ckptFloor; simp; (repeat' split) <;> simp
@[simp] theorem kept_findStart (t notBefore limit s) : kept (findStart t notBefore limit s).2 = kept s := by unfold findStart; simp; (repeat' split) <;> simp
@[simp] theorem kept_logTour (digest start s) : kept (logTour digest start s) = kept s := by unfold logTour; simp
@[simp] theorem kept_acceptTour (id h op start s) : kept (acceptTour id h op start s) = kept s := by unfold acceptTour; (repeat' split) <;> simp
@[simp] theorem kept_buildRestore (q s) : kept (buildRestore q s).2 = kept s := by unfold buildRestore; simp
@[simp] theorem kept_refillReserve (s) : kept (refillReserve s) = kept s := by unfold refillReserve; (repeat' split) <;> simp
@[simp] theorem kept_admitRestore (h q notBefore limit s) : kept (admitRestore h q notBefore limit s).2 = kept s := by unfold admitRestore; simp; (repeat' split) <;> simp
@[simp] theorem kept_admitInserted (h l s) : kept (admitInserted h l s).2 = kept s := by
  induction l generalizing s with
  | nil => rfl
  | cons q l ih => unfold admitInserted; simp; (repeat' split) <;> simp [ih]
@[simp] theorem kept_refuseSubmit (st j spent s) : kept (refuseSubmit st j spent s).2 = kept s := by unfold refuseSubmit; simp
@[simp] theorem kept_readBound (cats s) : kept (readBound cats s) = kept s := by unfold readBound; (repeat' split) <;> (try simp) <;> (first | rw [kept_foldRange] | rw [kept_foldl]) <;> (try simp) <;> (try intros) <;> (repeat' split) <;> simp
@[simp] theorem kept_doTourSubmit (h id notBefore limit s) : kept (doTourSubmit h id notBefore limit s).2 = kept s := by unfold doTourSubmit; simp; (repeat' split) <;> simp
@[simp] theorem kept_doRestoreSubmit (h input output lut keyR keyX keyP notBefore limit slotsLog outLimbs policy s) : kept (doRestoreSubmit h input output lut keyR keyX keyP notBefore limit slotsLog outLimbs policy s).2 = kept s := by unfold doRestoreSubmit; simp; (repeat' split) <;> simp

end Sys2Proof.Machine
end

