-- ==== Sys2Proof/Laws/Frame/Fabric.lean ====
section
/-!
SUPPORT. Sys2Proof/Laws/Frame/Fabric.lean: what Machine/Fabric.lean leaves alone: the queue, the fuses and the debug mode.
-/

set_option Elab.async false

namespace Sys2Proof.Machine

@[simp] theorem kept_modLock (s f) : kept (modLock s f) = kept s := by unfold modLock; simp
@[simp] theorem kept_drawEphemeral (s) : kept (drawEphemeral s).2 = kept s := by unfold drawEphemeral; simp
@[simp] theorem kept_noteAgreed (ok s) : kept (noteAgreed ok s) = kept s := by unfold noteAgreed; simp
@[simp] theorem kept_doPortsEnable (ports s) : kept (doPortsEnable ports s).2 = kept s := by unfold doPortsEnable; simp
@[simp] theorem kept_agreeLink (k o s) : kept (agreeLink k o s).2 = kept s := by unfold agreeLink; (repeat' split) <;> simp
@[simp] theorem kept_trainPort (o k s) : kept (trainPort o k s) = kept s := by unfold trainPort; simp; (repeat' split) <;> simp
@[simp] theorem kept_finishPorts (ports o s) : kept (finishPorts ports o s).2 = kept s := by unfold finishPorts; simp
@[simp] theorem kept_doFrame (k tag s) : kept (doFrame k tag s) = kept s := by unfold doFrame; simp; (repeat' split) <;> simp
@[simp] theorem kept_doRekey (k offer s) : kept (doRekey k offer s) = kept s := by unfold doRekey; (repeat' split) <;> simp
@[simp] theorem kept_doPortLoss (k loss s) : kept (doPortLoss k loss s) = kept s := by unfold doPortLoss; simp; (repeat' split) <;> simp
@[simp] theorem kept_doWindowOpen (w access remote kind g j addr len peer s) : kept (doWindowOpen w access remote kind g j addr len peer s).2 = kept s := by unfold doWindowOpen; simp; (repeat' split) <;> simp
@[simp] theorem kept_doWindowClose (w s) : kept (doWindowClose w s).2 = kept s := by unfold doWindowClose; (repeat' split) <;> simp
@[simp] theorem kept_doAnnounce (a s) : kept (doAnnounce a s) = kept s := by unfold doAnnounce; simp; (repeat' split) <;> simp
@[simp] theorem kept_answerPacket (p st data s) : kept (answerPacket p st data s) = kept s := by unfold answerPacket; simp
@[simp] theorem kept_countLanded (w p serial length n setReady s) : kept (countLanded w p serial length n setReady s) = kept s := by unfold countLanded; simp; (repeat' split) <;> simp
@[simp] theorem kept_reduceAll (op n f a bs st s) : kept (reduceAll op n f a bs st s).2 = kept s := by
  induction f generalizing a bs st s with
  | zero => rfl
  | succ f ih => simp only [reduceAll]; split <;> simp [ih]
@[simp] theorem kept_serveCabinet (w p deferred s) : kept (serveCabinet w p deferred s).2 = kept s := by
  unfold serveCabinet
  dsimp only
  split
  · rename_i n _
    have e := kept_cabRead w.gallery.toNat w.region.toNat (w.addr + p.offset) n deferred s
    split <;> simp_all
  · split <;> simp
  · rfl
@[simp] theorem kept_serveHbm (w p s) : kept (serveHbm w p s) = kept s := by unfold serveHbm; simp; (repeat' split) <;> simp
theorem kept_packetSlots (s w p r) (h : packetSlots s w p = some r) : kept r = kept s := by
  unfold packetSlots at h
  split at h
  · exact kept_placeRange _ _ _ _ _ h
  · exact kept_placeRange _ _ _ _ _ h
  · cases h; rfl
@[simp] theorem kept_dropHops (s) : kept (dropHops s) = kept s := by unfold dropHops; simp
theorem kept_packetDrop (p s r) (h : packetDrop p s = some r) : kept r = kept s := by
  unfold packetDrop at h
  dsimp only at h
  (repeat' split at h) <;> cases h <;> simp
@[simp] theorem kept_servePacket (p w deferred s) : kept (servePacket p w deferred s).2 = kept s := by
  unfold servePacket
  dsimp only
  (repeat' split) <;> (try simp)
  exact kept_packetSlots _ _ _ _ ‹_›
@[simp] theorem kept_doArrival (p s) : kept (doArrival p s) = kept s := by
  unfold doArrival
  dsimp only
  (repeat' split) <;> (try simp)
  exact kept_packetDrop _ _ _ ‹_›
@[simp] theorem kept_doForward (p s) : kept (doForward p s) = kept s := by unfold doForward; (repeat' split) <;> simp
@[simp] theorem kept_doGroupForm (groupId slot self parties members idKeysAddr s) : kept (doGroupForm groupId slot self parties members idKeysAddr s).2 = kept s := by unfold doGroupForm; simp; (repeat' split) <;> simp
@[simp] theorem kept_agreeChannel (self base keys o n r) : kept (agreeChannel self base keys o n r).2 = kept r.2 := by
  unfold agreeChannel; dsimp only; split <;> simp
@[simp] theorem kept_channelKeys (self parties base keys o s) : kept (channelKeys self parties base keys o s).2 = kept s := by
  unfold channelKeys; rw [kept_foldlPair _ (fun r n => kept_agreeChannel _ _ _ _ n r)]
@[simp] theorem kept_finishGroup (slot groupId self parties members keys o s) :
    kept (finishGroup slot groupId self parties members keys o s).2 = kept s := by
  unfold finishGroup
  have h := kept_channelKeys self parties 0 keys o s
  rcases hc : channelKeys self parties 0 keys o s with ⟨c, t⟩
  rw [hc] at h
  (repeat' split) <;> simp_all
@[simp] theorem kept_doGroupDissolve (slot s) : kept (doGroupDissolve slot s).2 = kept s := by unfold doGroupDissolve; (repeat' split) <;> simp
@[simp] theorem kept_doGroupRegister (slot g j s) : kept (doGroupRegister slot g j s).2 = kept s := by unfold doGroupRegister; simp; (repeat' split) <;> simp
@[simp] theorem kept_doGroupRemove (slot g j s) : kept (doGroupRemove slot g j s).2 = kept s := by unfold doGroupRemove; simp; (repeat' split) <;> simp
@[simp] theorem kept_refuseOpening (slot m s) : kept (refuseOpening slot m s) = kept s := by unfold refuseOpening; simp
@[simp] theorem kept_serveOpening (m deferred s) : kept (serveOpening m deferred s).2 = kept s := by unfold serveOpening; simp; (repeat' split) <;> simp
@[simp] theorem kept_doOpening (m s) : kept (doOpening m s) = kept s := by unfold doOpening; simp; (repeat' split) <;> simp
@[simp] theorem kept_doTimeJoin (domain root s) : kept (doTimeJoin domain root s).2 = kept s := by unfold doTimeJoin; (repeat' split) <;> simp
@[simp] theorem kept_doTimeLeave (s) : kept (doTimeLeave s).2 = kept s := by unfold doTimeLeave; (repeat' split) <;> simp
@[simp] theorem kept_finishJoin (s) : ∀ r, finishJoin s = some r → kept r.2 = kept s := by unfold finishJoin; (repeat' split) <;> simp
@[simp] theorem kept_doTimeMessage (domain rootTick measured s) : kept (doTimeMessage domain rootTick measured s) = kept s := by unfold doTimeMessage; simp; (repeat' split) <;> simp
@[simp] theorem kept_timeExchange (s) : kept (timeExchange s) = kept s := by unfold timeExchange; simp; (repeat' split) <;> simp
@[simp] theorem kept_doHoldover (s) : kept (doHoldover s) = kept s := by unfold doHoldover; simp; (repeat' split) <;> simp
@[simp] theorem kept_doLockstepSet (partner enable peer s) : kept (doLockstepSet partner enable peer s).2 = kept s := by unfold doLockstepSet; simp; (repeat' split) <;> simp
@[simp] theorem kept_finishLockstep (partner enable heard s) : kept (finishLockstep partner enable heard s).2 = kept s := by unfold finishLockstep; (repeat' split) <;> simp
@[simp] theorem kept_recordDivergence (t ct g station s) : kept (recordDivergence t ct g station s) = kept s := by unfold recordDivergence; simp; (repeat' split) <;> simp
@[simp] theorem kept_doSummary (id w remoteTour remote s) : kept (doSummary id w remoteTour remote s) = kept s := by unfold doSummary; simp; (repeat' split) <;> simp
@[simp] theorem kept_doLockstepComplete (id s) : kept (doLockstepComplete id s) = kept s := by unfold doLockstepComplete; simp; (repeat' split) <;> simp
@[simp] theorem kept_doPartnerLost (s) : kept (doPartnerLost s) = kept s := by unfold doPartnerLost; (repeat' split) <;> simp

end Sys2Proof.Machine
end

