-- ==== Sys2Proof/Laws/Frame/Health.lean ====
section
/-!
SUPPORT. Sys2Proof/Laws/Frame/Health.lean: what Machine/Health.lean leaves alone: the queue, the fuses and the debug mode.
-/

set_option Elab.async false

namespace Sys2Proof.Machine

@[simp] theorem kept_modHealth (s f) : kept (modHealth s f) = kept s := by unfold modHealth; simp
@[simp] theorem kept_startCkpt (h kind scope target window first s) : kept (startCkpt h kind scope target window first s) = kept s := by unfold startCkpt; simp
@[simp] theorem kept_doCkptTake (h kind scope target window first peer s) : kept (doCkptTake h kind scope target window first peer s).2 = kept s := by unfold doCkptTake; simp; (repeat' split) <;> simp
@[simp] theorem kept_ckptDone (j a s) : kept (ckptDone j a s) = kept s := by unfold ckptDone; simp; (repeat' split) <;> simp
@[simp] theorem kept_failCkpt (j st s) : kept (failCkpt j st s) = kept s := by unfold failCkpt; simp
@[simp] theorem kept_copyHbm (a n s) : kept (copyHbm a n s).2 = kept s := by unfold copyHbm; simp
@[simp] theorem kept_takeCut (j s) : kept (takeCut j s) = kept s := by unfold takeCut; (repeat' split) <;> simp
theorem kept_stageSection (j x s r) (h : stageSection j x s = some r) : kept r = kept s := by
  unfold stageSection at h
  dsimp only at h
  (repeat' split at h)
  · rw [kept_storeExtents _ _ _ _ _ _ h]; simp
  · simp only [Option.some.injEq] at h; rw [← h]; simp
  · simp only [Option.some.injEq] at h; rw [← h]; simp
@[simp] theorem kept_stagedOne (j x r s) : kept (stagedOne j x r s) = kept s := by
  unfold stagedOne
  split
  · rename_i h; simp [kept_stageSection _ _ _ _ h]
  · simp
@[simp] theorem kept_cutWhenDue (j s) : kept (cutWhenDue j s) = kept s := by unfold cutWhenDue; (repeat' split) <;> simp
@[simp] theorem kept_stageNext (n s) : kept (stageNext n s) = kept s := by
  induction n generalizing s with
  | zero => rfl
  | succ n ih => unfold stageNext; (repeat' split) <;> simp [ih]
@[simp] theorem kept_stageFor (id s) : kept (stageFor id s) = kept s := by unfold stageFor; simp; (repeat' split) <;> simp
@[simp] theorem kept_doCkptStage (s) : kept (doCkptStage s) = kept s := by unfold doCkptStage; simp; (repeat' split) <;> simp
@[simp] theorem kept_sendImage (d w k t n o bs s) : kept (sendImage d w k t n o bs s).2 = kept s := by
  induction n generalizing o bs s with
  | zero => rfl
  | succ n ih => unfold sendImage; dsimp only; (repeat' split) <;> simp [ih]
@[simp] theorem kept_countStarted (s) : kept (countStarted s) = kept s := rfl
@[simp] theorem kept_countSent (r) : kept (countSent r).2 = kept r.2 := rfl
theorem kept_sendThen (f r) (h : ∀ x, kept (f x).2 = kept x) : kept (sendThen f r).2 = kept r.2 := by
  unfold sendThen; split <;> simp [h]
@[simp] theorem kept_sendParts (dst w n data head s) : kept (sendParts dst w n data head s).2 = kept s :=
  (kept_sendThen _ _ (fun _ => (kept_countSent _).trans (kept_sendImage ..))).trans (kept_sendImage ..)
@[simp] theorem kept_sendCopy (j m e s) : kept (sendCopy j m e s).2 = kept s := by
  unfold sendCopy; split <;> simp only [kept_sendParts]
@[simp] theorem kept_finishDrain (j m rest s) : kept (finishDrain j m rest s) = kept s := by unfold finishDrain; simp
@[simp] theorem kept_drainHeader (j m s) : kept (drainHeader j m s) = kept s := by
  have e1 := kept_freeBits 16 s
  have e2 := kept_freeBytes (extBytes - 64) (freeBits 16 s).2
  unfold drainHeader
  extract_lets extents n rest head r
  have e3 : kept r.2 = kept s := (kept_sendCopy ..).trans (e2.trans e1)
  split
  · rw [kept_failCkpt, e3]
  · split
    · rw [kept_failCkpt, e3]
    · rename_i h; rw [kept_finishDrain, kept_storeExtents _ _ _ _ _ _ h, e3]
@[simp] theorem kept_doDrainDone (p s) : kept (doDrainDone p s) = kept s := by
  unfold doDrainDone
  dsimp only
  split
  · rfl
  · split
    · rfl
    · split
      · rfl
      · split
        · simp
        · rename_i h
          split <;> simp [kept_storeExtents _ _ _ _ _ _ h]
@[simp] theorem kept_doCkptRestore (first s) : kept (doCkptRestore first s).2 = kept s := by unfold doCkptRestore; simp; (repeat' split) <;> simp
@[simp] theorem kept_restoreHbm (first catBase xs s) : kept (restoreHbm first catBase xs s) = kept s := by unfold restoreHbm; simp; (repeat' split) <;> (try simp) <;> (first | rw [kept_foldRange] | rw [kept_foldl]) <;> (try simp) <;> (try intros) <;> (repeat' split) <;> simp
@[simp] theorem kept_dropRegion (g j s) : kept (dropRegion g j s) = kept s := by unfold dropRegion; (repeat' split) <;> simp
@[simp] theorem kept_restoreRgn (first s x) : kept (restoreRgn first s x) = kept s := by unfold restoreRgn; (repeat' split) <;> simp
@[simp] theorem kept_restoreRegions (first xs s) : kept (restoreRegions first xs s) = kept s := by unfold restoreRegions; simp
@[simp] theorem kept_restoreCounters (cs s) : kept (restoreCounters cs s) = kept s := by unfold restoreCounters; (repeat' split) <;> simp
@[simp] theorem kept_restoreGroup (m o r k) : kept (restoreGroup m o r k).2 = kept r.2 := by
  unfold restoreGroup; dsimp only; (repeat' split) <;> simp
@[simp] theorem kept_restoreLarge (m o s) : kept (restoreLarge m o s).2 = kept s := by
  unfold restoreLarge
  dsimp only
  rw [kept_foldlPair _ (fun r k => kept_restoreGroup m o r k)]
  dsimp only
  split <;> simp [kept_ite]
@[simp] theorem kept_finishRestore (first o s) : kept (finishRestore first o s).2 = kept s := by unfold finishRestore; simp; (repeat' split) <;> simp
@[simp] theorem kept_reloadTour (bs s) : kept (reloadTour bs s).2 = kept s := by unfold reloadTour; simp; (repeat' split) <;> simp
@[simp] theorem kept_resubmitTour (x s) : kept (resubmitTour x s) = kept s := by unfold resubmitTour; simp; (repeat' split) <;> simp
@[simp] theorem kept_resubmitAll (first s) : kept (resubmitAll first s) = kept s := by unfold resubmitAll; (repeat' split) <;> simp
@[simp] theorem kept_doFence (e timeout s) : kept (doFence e timeout s).2 = kept s := by unfold doFence; (repeat' split) <;> simp
@[simp] theorem kept_fenceEntry (h op st n s) : kept (fenceEntry h op st n s) = kept s := by unfold fenceEntry; (repeat' split) <;> simp
@[simp] theorem kept_doFenceDone (s) : kept (doFenceDone s) = kept s := by unfold doFenceDone; simp; (repeat' split) <;> simp
@[simp] theorem kept_autoCkpt (s) : kept (autoCkpt s) = kept s := by unfold autoCkpt; simp; (repeat' split) <;> simp
@[simp] theorem kept_doRisk (margin s) : kept (doRisk margin s) = kept s := by unfold doRisk; simp [kept_ite]

end Sys2Proof.Machine
end

