-- ==== Sys2Proof/Laws/Frame/Security.lean ====
section
/-!
SUPPORT. Sys2Proof/Laws/Frame/Security.lean: what Machine/Security.lean leaves alone: the queue, the fuses and the debug mode.
-/

set_option Elab.async false

namespace Sys2Proof.Machine

@[simp] theorem kept_freshNonce (s) : kept (freshNonce s).2 = kept s := by unfold freshNonce; simp
theorem kept_setChallenge (r) : kept (setChallenge r) = kept r.2 := rfl
@[simp] theorem kept_newChallenge (s) : kept (newChallenge s) = kept s :=
  (kept_setChallenge _).trans (kept_freshNonce s)
@[simp] theorem kept_linkTrained (a b c s) : kept (linkTrained a b c s) = kept s := rfl
@[simp] theorem kept_trainLink (s) : kept (trainLink s) = kept s := by
  unfold trainLink; rw [kept_linkTrained, kept_freeBits, kept_freeBits, kept_freeBits]
@[simp] theorem kept_noteSlots (ra rb differ none s) : kept (noteSlots ra rb differ none s) = kept s := by unfold noteSlots; simp
theorem calm_enterImage (b h s) : Calm s (enterImage b h s) :=
  ⟨rfl, rfl, Nat.le_max_left _ _, id, id⟩
@[simp] theorem kept_bootLinks (s) : kept (bootLinks s) = kept s := by
  unfold bootLinks; dsimp only; split <;> simp only [kept_trainLink, kept_modTime]
theorem calm_bootInto (p ha hb s) : Calm s (bootInto p ha hb s) := by
  unfold bootInto
  split
  · exact calm_of_kept (by simp)
  · exact (calm_enterImage _ _ s).trans
      (calm_of_kept (by rw [kept_setPowerState, kept_newChallenge, kept_drbgStart]))
theorem calm_cutBoot (s) : Calm s (cutBoot s) := by
  unfold cutBoot
  split
  · exact .refl s
  · split
    · exact .refl s
    · have e := kept_freeBits 7 s
      dsimp only
      generalize freeBits 7 s = r at e
      obtain ⟨n, t⟩ := r
      simp only [kept, Prod.mk.injEq] at e
      obtain ⟨e1, e2, e3⟩ := e
      refine ⟨e1, ?_, ?_, ?_, ?_⟩ <;> dsimp only <;> rw [← e2]
      · exact Nat.le_max_left _ _
      · exact id
      · rw [← e3]; exact id
@[simp] theorem kept_checkCert (s) : kept (checkCert s) = kept s := by unfold checkCert; simp
theorem calm_doBoot (a b s) : Calm s (doBoot a b s) := by
  unfold doBoot
  dsimp only
  split
  · exact .refl s
  · exact (calm_of_kept (by simp)).trans (calm_bootInto _ _ _ _)
@[simp] theorem kept_doFirmwareWrite (slot addr bytes s) : kept (doFirmwareWrite slot addr bytes s).2 = kept s := by unfold doFirmwareWrite; simp; (repeat' split) <;> simp
@[simp] theorem kept_finishFirmwareWrite (slot1 img s) : kept (finishFirmwareWrite slot1 img s).2 = kept s := by unfold finishFirmwareWrite; simp
@[simp] theorem kept_badUnlock (s) : kept (badUnlock s) = kept s := by unfold badUnlock; simp
theorem calm_doDebugEnter (a s) : Calm s (doDebugEnter a s).2 := by
  unfold doDebugEnter
  dsimp only
  (repeat' split)
  · exact .refl s
  · exact calm_of_kept (by simp)
  · exact calm_of_kept (by simp)
  · rename_i h _
    have e : kept (drbgInstantiateNow (drbgZero (newChallenge s))) = kept s := by simp
    simp only [kept, Prod.mk.injEq] at e
    refine ⟨e.1, congrArg _ e.2.1, Nat.le_of_eq (congrArg _ e.2.1).symm, fun d => (congrArg _ e.2.1).trans d, fun _ _ => ?_⟩
    simp at h
    exact (congrArg _ e.2.1).trans h.1
theorem calm_doDebugLeave (s) : Calm s (doDebugLeave s).2 := by
  unfold doDebugLeave
  (repeat' split)
  · exact .refl s
  · exact .refl s
  · have h := kept_drbgInstantiateNow { s with gals := s.gals.map zeroGallery, sec := { s.sec with debug := false } }
    simp only [kept, Prod.mk.injEq] at h
    exact calm_of_reset h.1 h.2.1 h.2.2
theorem calm_doDebugDisable (s) : Calm s (doDebugDisable s).2 := by
  unfold doDebugDisable
  split
  · exact .refl s
  · rename_i h
    exact ⟨rfl, rfl, Nat.le_refl _, fun _ => rfl, fun _ d => absurd d (by simp_all)⟩
@[simp] theorem kept_pkStart (k s) : kept (pkStart k s).2 = kept s := by unfold pkStart; simp
theorem kept_pkBlock (a o f s) (h : ∀ b l x, kept (f b l x).2 = kept x) : kept (pkBlock a o f s).2 = kept s := by
  unfold pkBlock; dsimp only; (repeat' split) <;> simp only [h]
@[simp] theorem kept_doModmul (a s) : kept (doModmul a s).2 = kept s := by
  unfold doModmul; rw [kept_pkBlock]; intros; (try dsimp only); (repeat' split) <;> simp only [kept_pkStart]
@[simp] theorem kept_doModexp (a s) : kept (doModexp a s).2 = kept s := by
  unfold doModexp; rw [kept_pkBlock]; intros; (try dsimp only); (repeat' split) <;> simp only [kept_pkStart]
@[simp] theorem kept_drawScalar (s) : kept (drawScalar s).2 = kept s := by unfold drawScalar; simp
@[simp] theorem kept_doP521Keygen (a s) : kept (doP521Keygen a s).2 = kept s := by
  unfold doP521Keygen; rw [kept_pkBlock]; intros; (try dsimp only); (repeat' split) <;> simp only [kept_pkStart, kept_drawScalar]
@[simp] theorem kept_doP521Ecdh (a s) : kept (doP521Ecdh a s).2 = kept s := by
  unfold doP521Ecdh; rw [kept_pkBlock]; intros; (try dsimp only); (repeat' split) <;> simp only [kept_pkStart]
@[simp] theorem kept_doP521Sign (a s) : kept (doP521Sign a s).2 = kept s := by
  unfold doP521Sign; rw [kept_pkBlock]; intros; (try dsimp only); (repeat' split) <;> simp only [kept_pkStart, kept_drawScalar, kept_selfFailed]
@[simp] theorem kept_doP521Verify (a s) : kept (doP521Verify a s).2 = kept s := by
  unfold doP521Verify; rw [kept_pkBlock]; intros; (try dsimp only); (repeat' split) <;> simp only [kept_pkStart]
@[simp] theorem kept_finishPk (addr st res cycles s) : kept (finishPk addr st res cycles s).2 = kept s := by unfold finishPk; simp
@[simp] theorem kept_setReply (b s) : kept (setReply b s) = kept s := by unfold setReply; simp
@[simp] theorem kept_modSession (i f s) : kept (modSession i f s) = kept s := by unfold modSession; simp
@[simp] theorem kept_signedReply (b s) : kept (signedReply b s) = kept s := by unfold signedReply; simp
@[simp] theorem kept_sessionKeys (i f s) : kept (sessionKeys i f s) = kept s := by unfold sessionKeys; simp
@[simp] theorem kept_setIde (on s) : kept (setIde on s) = kept s := by unfold setIde; simp
@[simp] theorem kept_doSpdmRequest (r x1 s) : kept (doSpdmRequest r x1 s) = kept s := by unfold doSpdmRequest; (repeat' split) <;> simp
@[simp] theorem kept_doHeartbeatLoss (i s) : kept (doHeartbeatLoss i s) = kept s := by unfold doHeartbeatLoss; simp
@[simp] theorem kept_doMctpMessage (via m s) : kept (doMctpMessage via m s) = kept s := by unfold doMctpMessage; (repeat' split) <;> simp

end Sys2Proof.Machine
end

