-- ==== Sys2Proof/Laws/Frame/Done.lean ====
section
/-!
SUPPORT. Sys2Proof/Laws/Frame/Done.lean: what Machine/Done.lean leaves alone: the queue, the fuses and the debug mode.
-/

set_option Elab.async false

namespace Sys2Proof.Machine

@[simp] theorem kept_finishRestorationEnable (scratch s) : kept (finishRestorationEnable scratch s).2 = kept s := by unfold finishRestorationEnable; (repeat' split) <;> simp
@[simp] theorem kept_finishDebug (code st s) : kept (finishDebug code st s).2 = kept s := by unfold finishDebug; simp
theorem kept_finishWork (k o s r) (h : finishWork k o s = some r) : kept r.2 = kept s := by
  unfold finishWork at h
  split at h
  all_goals first
    | (cases h; rfl)
    | (injection h with h; rw [← h]; simp; done)
    | exact kept_finishVaultClose _ r h
    | exact kept_finishExtentRelease _ _ _ r h
    | exact kept_finishGeneratorFill _ _ _ _ _ _ _ _ _ r h
    | exact kept_finishJoin _ r h
    | exact kept_finishDrbgFill _ _ _ _ _ _ _ _ r h
    | exact kept_finishSnapshot _ _ _ _ r h
    | (cases h; done)
@[simp] theorem kept_afterDone (k s) : kept (afterDone k s) = kept s := by unfold afterDone; (repeat' split) <;> simp
@[simp] theorem kept_doLongDone (i o s) : kept (doLongDone i o s) = kept s := by
  unfold doLongDone
  (repeat' split)
  · rfl
  · rfl
  · rfl
  · rename_i h; rw [kept_afterDone, kept_writeDone, kept_finishWork _ _ _ _ h, kept_takeWork]

end Sys2Proof.Machine
end

