-- ==== Sys2Proof/Laws/Frame/Packets.lean ====
section
/-!
SUPPORT. Sys2Proof/Laws/Frame/Packets.lean: the meanings of the commands that a packet can hold: the queue stands, no fuse is
undone, and debug mode is not entered against a blown fuse.
-/

set_option Elab.async false

namespace Sys2Proof.Machine

theorem calm_execIdentify (x0 x1 t) (e : execIdentify x0 x1 = .next t) : Calm x1 t := by
  injection e with e; rw [← e]; exact calm_of_kept (kept_command _ _ _ _ (fun _ => by simp))
theorem calm_execGalleriesStart (x0 x1 t) (e : execGalleriesStart x0 x1 = .next t) : Calm x1 t := by
  injection e with e; rw [← e]; exact calm_of_kept (kept_command _ _ _ _ (fun _ => by simp))
theorem calm_execGalleriesStop (x0 x1 t) (e : execGalleriesStop x0 x1 = .next t) : Calm x1 t := by
  injection e with e; rw [← e]; exact calm_of_kept (kept_command _ _ _ _ (fun _ => by simp))
theorem calm_execHbmTrain (x0 x1 x2 t) (e : execHbmTrain x0 x1 x2 = .next t) : Calm x2 t := by
  injection e with e; rw [← e]; exact calm_of_kept (kept_command _ _ _ _ (fun _ => by simp))
theorem calm_execModuleResetGalleries (x0 x1 t) (e : execModuleResetGalleries x0 x1 = .next t) : Calm x1 t := by
  injection e with e; rw [← e]; exact calm_of_kept (kept_resetGalleries _ _)
theorem calm_execModuleResetDevice (x0 x1 t) (e : execModuleResetDevice x0 x1 = .next t) : Calm x1 t := by
  injection e with e; rw [← e]; exact calm_resetDevice _ _
theorem calm_execCatalogueCreate (x0 x1 x2 t) (e : execCatalogueCreate x0 x1 x2 = .next t) : Calm x2 t := by
  injection e with e; rw [← e]; exact calm_of_kept (kept_command _ _ _ _ (fun _ => by simp))
theorem calm_execRegionDeclare (x0 x1 x2 x3 x4 x5 x6 x7 x8 x9 t) (e : execRegionDeclare x0 x1 x2 x3 x4 x5 x6 x7 x8 x9 = .next t) : Calm x9 t := by
  injection e with e; rw [← e]; exact calm_of_kept (kept_command _ _ _ _ (fun _ => by simp))
theorem calm_execRegionRelease (x0 x1 x2 x3 t) (e : execRegionRelease x0 x1 x2 x3 = .next t) : Calm x3 t := by
  injection e with e; rw [← e]; exact calm_of_kept (kept_command _ _ _ _ (fun _ => by simp))
theorem calm_execRegionFill (x0 x1 x2 x3 x4 t) (e : execRegionFill x0 x1 x2 x3 x4 = .next t) : Calm x4 t := by
  injection e with e; rw [← e]; exact calm_of_kept (kept_command _ _ _ _ (fun _ => by simp))
theorem calm_execObjectRegister (x0 x1 x2 x3 x4 x5 t) (e : execObjectRegister x0 x1 x2 x3 x4 x5 = .next t) : Calm x5 t := by
  injection e with e; rw [← e]; exact calm_of_kept (kept_command _ _ _ _ (fun _ => by simp))
theorem calm_execObjectUpdate (x0 x1 x2 x3 t) (e : execObjectUpdate x0 x1 x2 x3 = .next t) : Calm x3 t := by
  injection e with e; rw [← e]; exact calm_of_kept (kept_command _ _ _ _ (fun _ => by simp))
theorem calm_execObjectRelease (x0 x1 x2 x3 t) (e : execObjectRelease x0 x1 x2 x3 = .next t) : Calm x3 t := by
  injection e with e; rw [← e]; exact calm_of_kept (kept_command _ _ _ _ (fun _ => by simp))
theorem calm_execCostTableLoad (x0 x1 x2 t) (e : execCostTableLoad x0 x1 x2 = .next t) : Calm x2 t := by
  injection e with e; rw [← e]; exact calm_of_kept (kept_command _ _ _ _ (fun _ => by simp))
theorem calm_execRestorationEnable (x0 x1 x2 t) (e : execRestorationEnable x0 x1 x2 = .next t) : Calm x2 t := by
  injection e with e; rw [← e]; exact calm_of_kept (kept_command _ _ _ _ (fun _ => by simp))
theorem calm_execRestorationDisable (x0 x1 t) (e : execRestorationDisable x0 x1 = .next t) : Calm x1 t := by
  injection e with e; rw [← e]; exact calm_of_kept (kept_command _ _ _ _ (fun _ => by simp))
theorem calm_execAtomicOpen (x0 x1 x2 x3 x4 t) (e : execAtomicOpen x0 x1 x2 x3 x4 = .next t) : Calm x4 t := by
  injection e with e; rw [← e]; exact calm_of_kept (kept_command _ _ _ _ (fun _ => by simp))
theorem calm_execAtomicClose (x0 x1 x2 x3 t) (e : execAtomicClose x0 x1 x2 x3 = .next t) : Calm x3 t := by
  injection e with e; rw [← e]; exact calm_of_kept (kept_command _ _ _ _ (fun _ => by simp))
theorem calm_execGeneratorFill (x0 x1 x2 x3 x4 x5 x6 x7 x8 x9 t) (e : execGeneratorFill x0 x1 x2 x3 x4 x5 x6 x7 x8 x9 = .next t) : Calm x9 t := by
  injection e with e; rw [← e]; exact calm_of_kept (kept_command _ _ _ _ (fun _ => by simp))
theorem calm_execTourLoad (x0 x1 x2 x3 x4 t) (e : execTourLoad x0 x1 x2 x3 x4 = .next t) : Calm x4 t := by
  injection e with e; rw [← e]; exact calm_of_kept (kept_command _ _ _ _ (fun _ => by simp))
theorem calm_execTourUnload (x0 x1 x2 t) (e : execTourUnload x0 x1 x2 = .next t) : Calm x2 t := by
  injection e with e; rw [← e]; exact calm_of_kept (kept_command _ _ _ _ (fun _ => by simp))
theorem calm_execTourSubmit (x0 x1 x2 x3 x4 t) (e : execTourSubmit x0 x1 x2 x3 x4 = .next t) : Calm x4 t := by
  injection e with e; rw [← e]; exact calm_of_kept (kept_command _ _ _ _ (fun _ => by simp))
theorem calm_execRestoreSubmit (x0 x1 x2 x3 x4 x5 x6 x7 x8 x9 x10 x11 x12 t) (e : execRestoreSubmit x0 x1 x2 x3 x4 x5 x6 x7 x8 x9 x10 x11 x12 = .next t) : Calm x12 t := by
  injection e with e; rw [← e]; exact calm_of_kept (kept_command _ _ _ _ (fun _ => by simp))
theorem calm_execTourQuery (x0 x1 x2 t) (e : execTourQuery x0 x1 x2 = .next t) : Calm x2 t := by
  injection e with e; rw [← e]; exact calm_of_kept (kept_command _ _ _ _ (fun _ => by simp))
theorem calm_execKeyRegister (x0 x1 x2 x3 x4 x5 x6 t) (e : execKeyRegister x0 x1 x2 x3 x4 x5 x6 = .next t) : Calm x6 t := by
  injection e with e; rw [← e]; exact calm_of_kept (kept_command _ _ _ _ (fun _ => by simp))
theorem calm_execVaultOpen (x0 x1 t) (e : execVaultOpen x0 x1 = .next t) : Calm x1 t := by
  injection e with e; rw [← e]; exact calm_of_kept (kept_command _ _ _ _ (fun _ => by simp))
theorem calm_execVaultClose (x0 x1 t) (e : execVaultClose x0 x1 = .next t) : Calm x1 t := by
  injection e with e; rw [← e]; exact calm_of_kept (kept_command _ _ _ _ (fun _ => by simp))
theorem calm_execExtentRelease (x0 x1 x2 x3 t) (e : execExtentRelease x0 x1 x2 x3 = .next t) : Calm x3 t := by
  injection e with e; rw [← e]; exact calm_of_kept (kept_command _ _ _ _ (fun _ => by simp))
theorem calm_execExtentQuery (x0 x1 x2 x3 x4 t) (e : execExtentQuery x0 x1 x2 x3 x4 = .next t) : Calm x4 t := by
  injection e with e; rw [← e]; exact calm_of_kept (kept_command _ _ _ _ (fun _ => by simp))
theorem calm_execVaultSanitize (x0 x1 t) (e : execVaultSanitize x0 x1 = .next t) : Calm x1 t := by
  injection e with e; rw [← e]; exact calm_of_kept (kept_command _ _ _ _ (fun _ => by simp))
theorem calm_execPatrolSet (x0 x1 x2 x3 t) (e : execPatrolSet x0 x1 x2 x3 = .next t) : Calm x3 t := by
  injection e with e; rw [← e]; exact calm_of_kept (kept_command _ _ _ _ (fun _ => by simp))
theorem calm_execPortsEnable (x0 x1 x2 t) (e : execPortsEnable x0 x1 x2 = .next t) : Calm x2 t := by
  injection e with e; rw [← e]; exact calm_of_kept (kept_command _ _ _ _ (fun _ => by simp))
theorem calm_execTimeJoin (x0 x1 x2 x3 t) (e : execTimeJoin x0 x1 x2 x3 = .next t) : Calm x3 t := by
  injection e with e; rw [← e]; exact calm_of_kept (kept_command _ _ _ _ (fun _ => by simp))
theorem calm_execTimeLeave (x0 x1 t) (e : execTimeLeave x0 x1 = .next t) : Calm x1 t := by
  injection e with e; rw [← e]; exact calm_of_kept (kept_command _ _ _ _ (fun _ => by simp))
theorem calm_execWindowOpen (x0 x1 x2 x3 x4 x5 x6 x7 x8 x9 x10 t) (e : execWindowOpen x0 x1 x2 x3 x4 x5 x6 x7 x8 x9 x10 = .next t) : Calm x10 t := by
  injection e with e; rw [← e]; exact calm_of_kept (kept_command _ _ _ _ (fun _ => by simp))
theorem calm_execWindowClose (x0 x1 x2 t) (e : execWindowClose x0 x1 x2 = .next t) : Calm x2 t := by
  injection e with e; rw [← e]; exact calm_of_kept (kept_command _ _ _ _ (fun _ => by simp))
theorem calm_execGroupForm (x0 x1 x2 x3 x4 x5 x6 x7 t) (e : execGroupForm x0 x1 x2 x3 x4 x5 x6 x7 = .next t) : Calm x7 t := by
  injection e with e; rw [← e]; exact calm_of_kept (kept_command _ _ _ _ (fun _ => by simp))
theorem calm_execGroupDissolve (x0 x1 x2 t) (e : execGroupDissolve x0 x1 x2 = .next t) : Calm x2 t := by
  injection e with e; rw [← e]; exact calm_of_kept (kept_command _ _ _ _ (fun _ => by simp))
theorem calm_execGroupRegionRegister (x0 x1 x2 x3 x4 t) (e : execGroupRegionRegister x0 x1 x2 x3 x4 = .next t) : Calm x4 t := by
  injection e with e; rw [← e]; exact calm_of_kept (kept_command _ _ _ _ (fun _ => by simp))
theorem calm_execGroupRegionRemove (x0 x1 x2 x3 x4 t) (e : execGroupRegionRemove x0 x1 x2 x3 x4 = .next t) : Calm x4 t := by
  injection e with e; rw [← e]; exact calm_of_kept (kept_command _ _ _ _ (fun _ => by simp))
theorem calm_execLockstepSet (x0 x1 x2 x3 x4 t) (e : execLockstepSet x0 x1 x2 x3 x4 = .next t) : Calm x4 t := by
  injection e with e; rw [← e]; exact calm_of_kept (kept_command _ _ _ _ (fun _ => by simp))
theorem calm_execCheckpointTake (x0 x1 x2 x3 x4 x5 x6 x7 t) (e : execCheckpointTake x0 x1 x2 x3 x4 x5 x6 x7 = .next t) : Calm x7 t := by
  injection e with e; rw [← e]; exact calm_of_kept (kept_command _ _ _ _ (fun _ => by simp))
theorem calm_execCheckpointRestore (x0 x1 x2 t) (e : execCheckpointRestore x0 x1 x2 = .next t) : Calm x2 t := by
  injection e with e; rw [← e]; exact calm_of_kept (kept_command _ _ _ _ (fun _ => by simp))
theorem calm_execMigrateFence (x0 x1 x2 x3 t) (e : execMigrateFence x0 x1 x2 x3 = .next t) : Calm x3 t := by
  injection e with e; rw [← e]; exact calm_of_kept (kept_command _ _ _ _ (fun _ => by simp))
theorem calm_execDrbgInstantiate (x0 x1 t) (e : execDrbgInstantiate x0 x1 = .next t) : Calm x1 t := by
  injection e with e; rw [← e]; exact calm_of_kept (kept_command _ _ _ _ (fun _ => by simp))
theorem calm_execDrbgFill (x0 x1 x2 x3 x4 x5 x6 x7 t) (e : execDrbgFill x0 x1 x2 x3 x4 x5 x6 x7 = .next t) : Calm x7 t := by
  injection e with e; rw [← e]; exact calm_of_kept (kept_command _ _ _ _ (fun _ => by simp))
theorem calm_execDebugEnter (x0 x1 x2 t) (e : execDebugEnter x0 x1 x2 = .next t) : Calm x2 t := by
  injection e with e; rw [← e]; exact calm_command _ _ _ _ (fun _ => calm_doDebugEnter _ _)
theorem calm_execDebugLeave (x0 x1 x2 t) (e : execDebugLeave x0 x1 x2 = .next t) : Calm x2 t := by
  injection e with e; rw [← e]; exact calm_command _ _ _ _ (fun _ => calm_doDebugLeave _)
theorem calm_execDebugDisable (x0 x1 x2 t) (e : execDebugDisable x0 x1 x2 = .next t) : Calm x2 t := by
  injection e with e; rw [← e]; exact calm_command _ _ _ _ (fun _ => calm_doDebugDisable _)
theorem calm_execFirmwareWrite (x0 x1 x2 x3 x4 t) (e : execFirmwareWrite x0 x1 x2 x3 x4 = .next t) : Calm x4 t := by
  injection e with e; rw [← e]; exact calm_of_kept (kept_command _ _ _ _ (fun _ => by simp))
theorem calm_execModmul (x0 x1 x2 t) (e : execModmul x0 x1 x2 = .next t) : Calm x2 t := by
  injection e with e; rw [← e]; exact calm_of_kept (kept_command _ _ _ _ (fun _ => by simp))
theorem calm_execModexp (x0 x1 x2 t) (e : execModexp x0 x1 x2 = .next t) : Calm x2 t := by
  injection e with e; rw [← e]; exact calm_of_kept (kept_command _ _ _ _ (fun _ => by simp))
theorem calm_execP521Keygen (x0 x1 x2 t) (e : execP521Keygen x0 x1 x2 = .next t) : Calm x2 t := by
  injection e with e; rw [← e]; exact calm_of_kept (kept_command _ _ _ _ (fun _ => by simp))
theorem calm_execP521Ecdh (x0 x1 x2 t) (e : execP521Ecdh x0 x1 x2 = .next t) : Calm x2 t := by
  injection e with e; rw [← e]; exact calm_of_kept (kept_command _ _ _ _ (fun _ => by simp))
theorem calm_execP521Sign (x0 x1 x2 t) (e : execP521Sign x0 x1 x2 = .next t) : Calm x2 t := by
  injection e with e; rw [← e]; exact calm_of_kept (kept_command _ _ _ _ (fun _ => by simp))
theorem calm_execP521Verify (x0 x1 x2 t) (e : execP521Verify x0 x1 x2 = .next t) : Calm x2 t := by
  injection e with e; rw [← e]; exact calm_of_kept (kept_command _ _ _ _ (fun _ => by simp))
theorem calm_execMonitorConfig (x0 x1 x2 x3 x4 x5 t) (e : execMonitorConfig x0 x1 x2 x3 x4 x5 = .next t) : Calm x5 t := by
  injection e with e; rw [← e]; exact calm_of_kept (kept_command _ _ _ _ (fun _ => by simp))
theorem calm_execMonitorSnapshot (x0 x1 x2 x3 t) (e : execMonitorSnapshot x0 x1 x2 x3 = .next t) : Calm x3 t := by
  injection e with e; rw [← e]; exact calm_of_kept (kept_command _ _ _ _ (fun _ => by simp))

theorem calm_packetMeaning (c s t) (e : packetMeaning c s = .next t) : Calm s t := by
  cases c with
  | identify y0 => exact calm_execIdentify y0 s t e
  | galleriesStart y0 => exact calm_execGalleriesStart y0 s t e
  | galleriesStop y0 => exact calm_execGalleriesStop y0 s t e
  | hbmTrain y0 y1 => exact calm_execHbmTrain y0 y1 s t e
  | moduleResetGalleries y0 => exact calm_execModuleResetGalleries y0 s t e
  | moduleResetDevice y0 => exact calm_execModuleResetDevice y0 s t e
  | catalogueCreate y0 y1 => exact calm_execCatalogueCreate y0 y1 s t e
  | regionDeclare y0 y1 y2 y3 y4 y5 y6 y7 y8 => exact calm_execRegionDeclare y0 y1 y2 y3 y4 y5 y6 y7 y8 s t e
  | regionRelease y0 y1 y2 => exact calm_execRegionRelease y0 y1 y2 s t e
  | regionFill y0 y1 y2 y3 => exact calm_execRegionFill y0 y1 y2 y3 s t e
  | objectRegister y0 y1 y2 y3 y4 => exact calm_execObjectRegister y0 y1 y2 y3 y4 s t e
  | objectUpdate y0 y1 y2 => exact calm_execObjectUpdate y0 y1 y2 s t e
  | objectRelease y0 y1 y2 => exact calm_execObjectRelease y0 y1 y2 s t e
  | costTableLoad y0 y1 => exact calm_execCostTableLoad y0 y1 s t e
  | restorationEnable y0 y1 => exact calm_execRestorationEnable y0 y1 s t e
  | restorationDisable y0 => exact calm_execRestorationDisable y0 s t e
  | atomicOpen y0 y1 y2 y3 => exact calm_execAtomicOpen y0 y1 y2 y3 s t e
  | atomicClose y0 y1 y2 => exact calm_execAtomicClose y0 y1 y2 s t e
  | generatorFill y0 y1 y2 y3 y4 y5 y6 y7 y8 => exact calm_execGeneratorFill y0 y1 y2 y3 y4 y5 y6 y7 y8 s t e
  | tourLoad y0 y1 y2 y3 => exact calm_execTourLoad y0 y1 y2 y3 s t e
  | tourUnload y0 y1 => exact calm_execTourUnload y0 y1 s t e
  | tourSubmit y0 y1 y2 y3 => exact calm_execTourSubmit y0 y1 y2 y3 s t e
  | restoreSubmit y0 y1 y2 y3 y4 y5 y6 y7 y8 y9 y10 y11 => exact calm_execRestoreSubmit y0 y1 y2 y3 y4 y5 y6 y7 y8 y9 y10 y11 s t e
  | tourQuery y0 y1 => exact calm_execTourQuery y0 y1 s t e
  | keyRegister y0 y1 y2 y3 y4 y5 => exact calm_execKeyRegister y0 y1 y2 y3 y4 y5 s t e
  | vaultOpen y0 => exact calm_execVaultOpen y0 s t e
  | vaultClose y0 => exact calm_execVaultClose y0 s t e
  | extentRelease y0 y1 y2 => exact calm_execExtentRelease y0 y1 y2 s t e
  | extentQuery y0 y1 y2 y3 => exact calm_execExtentQuery y0 y1 y2 y3 s t e
  | vaultSanitize y0 => exact calm_execVaultSanitize y0 s t e
  | patrolSet y0 y1 y2 => exact calm_execPatrolSet y0 y1 y2 s t e
  | portsEnable y0 y1 => exact calm_execPortsEnable y0 y1 s t e
  | timeJoin y0 y1 y2 => exact calm_execTimeJoin y0 y1 y2 s t e
  | timeLeave y0 => exact calm_execTimeLeave y0 s t e
  | windowOpen y0 y1 y2 y3 y4 y5 y6 y7 y8 y9 => exact calm_execWindowOpen y0 y1 y2 y3 y4 y5 y6 y7 y8 y9 s t e
  | windowClose y0 y1 => exact calm_execWindowClose y0 y1 s t e
  | groupForm y0 y1 y2 y3 y4 y5 y6 => exact calm_execGroupForm y0 y1 y2 y3 y4 y5 y6 s t e
  | groupDissolve y0 y1 => exact calm_execGroupDissolve y0 y1 s t e
  | groupRegionRegister y0 y1 y2 y3 => exact calm_execGroupRegionRegister y0 y1 y2 y3 s t e
  | groupRegionRemove y0 y1 y2 y3 => exact calm_execGroupRegionRemove y0 y1 y2 y3 s t e
  | lockstepSet y0 y1 y2 y3 => exact calm_execLockstepSet y0 y1 y2 y3 s t e
  | checkpointTake y0 y1 y2 y3 y4 y5 y6 => exact calm_execCheckpointTake y0 y1 y2 y3 y4 y5 y6 s t e
  | checkpointRestore y0 y1 => exact calm_execCheckpointRestore y0 y1 s t e
  | migrateFence y0 y1 y2 => exact calm_execMigrateFence y0 y1 y2 s t e
  | drbgInstantiate y0 => exact calm_execDrbgInstantiate y0 s t e
  | drbgFill y0 y1 y2 y3 y4 y5 y6 => exact calm_execDrbgFill y0 y1 y2 y3 y4 y5 y6 s t e
  | debugEnter y0 y1 => exact calm_execDebugEnter y0 y1 s t e
  | debugLeave y0 y1 => exact calm_execDebugLeave y0 y1 s t e
  | debugDisable y0 y1 => exact calm_execDebugDisable y0 y1 s t e
  | firmwareWrite y0 y1 y2 y3 => exact calm_execFirmwareWrite y0 y1 y2 y3 s t e
  | modmul y0 y1 => exact calm_execModmul y0 y1 s t e
  | modexp y0 y1 => exact calm_execModexp y0 y1 s t e
  | p521Keygen y0 y1 => exact calm_execP521Keygen y0 y1 s t e
  | p521Ecdh y0 y1 => exact calm_execP521Ecdh y0 y1 s t e
  | p521Sign y0 y1 => exact calm_execP521Sign y0 y1 s t e
  | p521Verify y0 y1 => exact calm_execP521Verify y0 y1 s t e
  | monitorConfig y0 y1 y2 y3 y4 => exact calm_execMonitorConfig y0 y1 y2 y3 y4 s t e
  | monitorSnapshot y0 y1 y2 => exact calm_execMonitorSnapshot y0 y1 y2 s t e
  | _ => injection e with e; rw [← e]; exact .refl s

theorem calm_runPacket (c s) : Calm s (runPacket c s) := by
  unfold runPacket stateOf
  split
  · rename_i h; exact calm_packetMeaning c s _ h
  · exact .refl s

end Sys2Proof.Machine
end

