-- ==== Sys2Proof/Laws/Frame/Power.lean ====
section
/-!
SUPPORT. Sys2Proof/Laws/Frame/Power.lean: what Machine/Power.lean leaves alone: the queue, the fuses and the debug mode.
-/

set_option Elab.async false

namespace Sys2Proof.Machine

theorem calm_loseVolatile (p s) : Calm s (loseVolatile p s) :=
  (calm_cutBoot s).trans ((calm_deviceReset 0 (cutBoot s)).trans (calm_of_kept rfl))
theorem calm_doInputLoss (s) : Calm s (doInputLoss s) := by
  unfold doInputLoss
  dsimp only
  (repeat' split)
  · exact (calm_of_kept (kept_freeBits 1 s)).trans (calm_loseVolatile _ _)
  · exact calm_of_kept (kept_freeBits 1 s)
  · exact calm_loseVolatile _ s
theorem calm_doInputRise (b s) : Calm s (doInputRise b s) := by
  unfold doInputRise
  dsimp only
  (repeat' split)
  · exact .refl s
  · exact calm_of_kept (by simp)
  · exact (calm_loseVolatile .boot s).trans
      (calm_of_kept ((kept_modPower _ _).trans (kept_freeBits 16 (loseVolatile .boot s))))
theorem calm_doSense (c s) : Calm s (doSense c s) := by
  unfold doSense
  cases c
  · exact (calm_doInputLoss s).trans (calm_of_kept rfl)
  · exact calm_of_kept (by simp)
theorem calm_doPerst (a s) : Calm s (doPerst a s) := by
  unfold doPerst
  dsimp only
  split
  · exact calm_of_kept (by simp)
  · exact (calm_cutBoot s).trans ((calm_of_kept (kept_modPower _ (fun p => { p with perst := a }))).trans
      ((calm_deviceReset 1 _).trans (calm_of_kept (by simp))))
theorem calm_doFlr (s) : Calm s (doFlr s) := calm_ite _ ((calm_cutBoot s).trans (calm_deviceReset 4 _)) (.refl s)
theorem calm_doShutdown (s) : Calm s (doShutdown s) := calm_ite _ (calm_loseVolatile _ s) (.refl s)
@[simp] theorem kept_emergency (st s) : kept (emergency st s) = kept s := by unfold emergency; simp
@[simp] theorem kept_doThermalAbort (s) : kept (doThermalAbort s) = kept s := by unfold doThermalAbort; (repeat' split) <;> simp
@[simp] theorem kept_doPowerFault (s) : kept (doPowerFault s) = kept s := by unfold doPowerFault; (repeat' split) <;> simp
@[simp] theorem kept_doEmergencyClear (s) : kept (doEmergencyClear s) = kept s := by unfold doEmergencyClear; (repeat' split) <;> simp
@[simp] theorem kept_doDroop (s) : kept (doDroop s) = kept s := by unfold doDroop; (repeat' split) <;> simp
@[simp] theorem kept_doThermWarn (s) : kept (doThermWarn s) = kept s := by unfold doThermWarn; (repeat' split) <;> simp
@[simp] theorem kept_doProfileExcess (watts s) : kept (doProfileExcess watts s) = kept s := by unfold doProfileExcess; simp; (repeat' split) <;> simp
@[simp] theorem kept_doLinkRetrain (s) : kept (doLinkRetrain s) = kept s := by unfold doLinkRetrain; (repeat' split) <;> simp

end Sys2Proof.Machine
end

