-- ==== Sys2Proof/Laws/Frame/Take.lean ====
section
/-!
SUPPORT. Sys2Proof/Laws/Frame/Take.lean: what Machine/Take.lean leaves alone: the queue, the fuses and the debug mode.
-/

set_option Elab.async false

namespace Sys2Proof.Machine

@[simp] theorem kept_doQpDoorbell (q tail writes s) : kept (doQpDoorbell q tail writes s) = kept s := by unfold doQpDoorbell; simp; (repeat' split) <;> simp
@[simp] theorem kept_doQpCtrl (q v s) : kept (doQpCtrl q v s) = kept s := by unfold doQpCtrl; (repeat' split) <;> simp
@[simp] theorem kept_qpPacket (s q) : kept (qpPacket s q).2 = kept s := by unfold qpPacket; simp

end Sys2Proof.Machine
end

