-- ==== Sys2Proof/Laws/Frame/RegRead.lean ====
section
/-!
SUPPORT. Sys2Proof/Laws/Frame/RegRead.lean: what Machine/RegRead.lean leaves alone: the queue, the fuses and the debug mode.
-/

set_option Elab.async false

namespace Sys2Proof.Machine

@[simp] theorem kept_clearGal (k o s) : kept (clearGal k o s) = kept s := by unfold clearGal; (repeat' split) <;> simp
@[simp] theorem kept_clearFab (o s) : kept (clearFab o s) = kept s := by unfold clearFab; (repeat' split) <;> simp
@[simp] theorem kept_clearFixed (o s) : kept (clearFixed o s) = kept s := by unfold clearFixed; (repeat' split) <;> simp
@[simp] theorem kept_readEffect (o s) : kept (readEffect o s) = kept s := by unfold readEffect; (repeat' split) <;> simp
@[simp] theorem kept_readWord (o s) : kept (readWord o s).2 = kept s := by unfold readWord; simp; (repeat' split) <;> simp
@[simp] theorem kept_doRegisterRead (o size s) : kept (doRegisterRead o size s) = kept s := by unfold doRegisterRead; simp; (repeat' split) <;> simp

end Sys2Proof.Machine
end

