-- ==== Sys2Proof/Laws/Frame/Registers.lean ====
section
/-!
SUPPORT. Sys2Proof/Laws/Frame/Registers.lean: what Machine/Registers.lean leaves alone: the queue, the fuses and the debug mode.
-/

set_option Elab.async false

namespace Sys2Proof.Machine

@[simp] theorem kept_setTime (v s) : kept (setTime v s) = kept s := by unfold setTime; (repeat' split) <;> simp
@[simp] theorem kept_doTimeSet (w s) : kept (doTimeSet w s) = kept s := by unfold doTimeSet; (repeat' split) <;> simp
@[simp] theorem kept_doInjectArm (g v s) : kept (doInjectArm g v s) = kept s := by unfold doInjectArm; (repeat' split) <;> simp
@[simp] theorem kept_doInvCtrl (g v s) : kept (doInvCtrl g v s) = kept s := by unfold doInvCtrl; (repeat' split) <;> simp
@[simp] theorem kept_doAdmitLimit (v s) : kept (doAdmitLimit v s) = kept s := by unfold doAdmitLimit; simp; (repeat' split) <;> simp
theorem kept_mon (s : State) (m : Monitors) : kept { s with mon := m } = kept s := rfl
theorem kept_health (s : State) (h : Health) : kept { s with health := h } = kept s := rfl

@[simp] theorem kept_writeHub (o v s) : kept (writeHub o v s) = kept s := by
  unfold writeHub
  dsimp only
  (repeat' split) <;> first
    | exact kept_mon s _
    | exact kept_health s _
    | simp
theorem kept_fab (s : State) (f : Fabric) : kept { s with fab := f } = kept s := rfl

@[simp] theorem kept_writeFab (o v s) : kept (writeFab o v s) = kept s := by
  unfold writeFab
  split
  · exact kept_fab s _
  · split
    · exact kept_fab s _
    · split
      · exact kept_fab s _
      · rfl
@[simp] theorem kept_writePwr (o v s) : kept (writePwr o v s) = kept s := by unfold writePwr; (repeat' split) <;> simp
@[simp] theorem kept_writeChan (n o v s) : kept (writeChan n o v s) = kept s := by unfold writeChan; (repeat' split) <;> simp
@[simp] theorem kept_writeDma (o v s) : kept (writeDma o v s) = kept s := by unfold writeDma; (repeat' split) <;> simp
@[simp] theorem kept_writeHbm (o v s) : kept (writeHbm o v s) = kept s := by unfold writeHbm; (repeat' split) <;> simp
@[simp] theorem kept_writeVault (o v s) : kept (writeVault o v s) = kept s := by unfold writeVault; (repeat' split) <;> simp
@[simp] theorem kept_writeQp (q o v s) : kept (writeQp q o v s) = kept s := by
  unfold writeQp; (repeat' split) <;> simp

@[simp] theorem kept_writeMsix (o v s) : kept (writeMsix o v s) = kept s := by unfold writeMsix; simp; (repeat' split) <;> simp
@[simp] theorem kept_writeGal (g o v s) : kept (writeGal g o v s) = kept s := by unfold writeGal; (repeat' split) <;> simp
@[simp] theorem kept_writeCfg (o v s) : kept (writeCfg o v s) = kept s := by unfold writeCfg; (repeat' split) <;> simp


@[simp] theorem kept_bar2Read (g o size deferred s) : kept (bar2Read g o size deferred s).2 = kept s := by unfold bar2Read; simp; (repeat' split) <;> simp
@[simp] theorem kept_bar2Store (g o size v deferred s) : kept (bar2Store g o size v deferred s).2 = kept s := by unfold bar2Store; simp; (repeat' split) <;> simp
@[simp] theorem kept_bar2Try (g o size acc deferred s) : kept (bar2Try g o size acc deferred s).2 = kept s := by unfold bar2Try; (repeat' split) <;> simp
@[simp] theorem kept_doBar2 (o size acc s) : kept (doBar2 o size acc s) = kept s := by unfold doBar2; simp; (repeat' split) <;> simp

end Sys2Proof.Machine
end

