-- ==== Sys2Proof/Laws/Frame/Tick.lean ====
section
/-!
SUPPORT. Sys2Proof/Laws/Frame/Tick.lean: what Machine/Tick.lean leaves alone: the queue, the fuses and the debug mode.
-/

set_option Elab.async false

namespace Sys2Proof.Machine

@[simp] theorem kept_countWaits (s) : kept (countWaits s) = kept s := by unfold countWaits; simp
@[simp] theorem kept_haltTours (s) : kept (haltTours s) = kept s := by unfold haltTours; simp
@[simp] theorem kept_tryHeld (h s) : kept (tryHeld h s).2 = kept s := by
  unfold tryHeld; (repeat' split) <;> (try simp)
  exact kept_cxlSlot _ _ _ _ ‹_›
@[simp] theorem kept_serveHeldFrom (l q s) : kept (serveHeldFrom l q s) = kept s := by
  induction l generalizing q s with
  | nil => rfl
  | cons a l ih =>
    simp only [serveHeldFrom]
    split
    · exact ih _ _
    · have h := kept_tryHeld a s
      split <;> rw [ih] <;> exact h
@[simp] theorem kept_serveHeld (s) : kept (serveHeld s) = kept s := by unfold serveHeld; (repeat' split) <;> simp
@[simp] theorem kept_idleTick (s) : kept (idleTick s) = kept s := by unfold idleTick; (repeat' split) <;> simp

end Sys2Proof.Machine
end

