-- ==== Sys2Proof/Laws/Frame/Meanings.lean ====
section
/-!
SUPPORT. Sys2Proof/Laws/Frame/Meanings.lean: the meanings of the other commands: the queue stands, no fuse is undone, and
debug mode is not entered against a blown fuse.
-/

set_option Elab.async false

namespace Sys2Proof.Machine

theorem calm_doQpTake (q p s) : Calm s (doQpTake q p s) := by
  unfold doQpTake
  dsimp only
  (repeat' split)
  · exact .refl s
  · exact calm_of_kept (by simp)
  · exact (calm_of_kept ((kept_modQp _ _ _).trans (kept_qpPacket s _))).trans (calm_runPacket _ _)

theorem calm_doMboxGo (v p s) : Calm s (doMboxGo v p s) := by
  unfold doMboxGo
  dsimp only
  split
  · exact .refl s
  · split
    · exact calm_of_kept (by simp)
    · exact (calm_of_kept (kept_modHost s _)).trans (calm_runPacket _ _)

theorem calm_writeCxl (o v s) : Calm s (writeCxl o v s) := by
  unfold writeCxl
  split
  · exact calm_of_kept (by split <;> simp)
  · split
    · exact calm_doMboxGo _ _ s
    · exact calm_of_kept (by (repeat' split) <;> simp)

theorem calm_writeWord (o v s) : Calm s (writeWord o v s) := by
  unfold writeWord
  refine calm_ite _ (calm_of_kept (kept_writeHub _ _ s)) ?_
  refine calm_ite _ (calm_of_kept (kept_writeFab _ _ s)) ?_
  refine calm_ite _ (calm_of_kept (kept_writePwr _ _ s)) ?_
  refine calm_ite _ (calm_of_kept (kept_writeDma _ _ s)) ?_
  refine calm_ite _ (calm_of_kept (kept_writeHbm _ _ s)) ?_
  refine calm_ite _ (calm_of_kept (kept_writeVault _ _ s)) ?_
  refine calm_ite _ (calm_writeCxl _ _ s) ?_
  refine calm_ite _ (calm_of_kept (kept_writeMsix _ _ s)) ?_
  refine calm_ite _ (calm_ite _ (calm_of_kept (kept_writeGal _ _ _ s)) (.refl s)) ?_
  exact calm_ite _ (calm_of_kept (kept_writeCfg _ _ s)) (.refl s)

theorem calm_doRegisterWrite (o n v s) : Calm s (doRegisterWrite o n v s) := by
  unfold doRegisterWrite
  (repeat' split)
  · exact .refl s
  · exact calm_writeWord _ _ s
  · exact calm_of_kept (by simp)
  · exact (calm_writeWord _ _ s).trans (calm_writeWord _ _ _)
  · exact .refl s

theorem calm_execRegionFillDone (x0 x1 t) (e : execRegionFillDone x0 x1 = .next t) : Calm x1 t := by
  injection e with e; rw [← e]; exact calm_of_kept (by simp)
theorem calm_execTourLoadDone (x0 x1 t) (e : execTourLoadDone x0 x1 = .next t) : Calm x1 t := by
  injection e with e; rw [← e]; exact calm_of_kept (by simp)
theorem calm_execWindowAnnounce (x0 x1 x2 x3 x4 x5 t) (e : execWindowAnnounce x0 x1 x2 x3 x4 x5 = .next t) : Calm x5 t := by
  injection e with e; rw [← e]; exact calm_of_kept (by simp)
theorem calm_execCheckpointStage (x0 t) (e : execCheckpointStage x0 = .next t) : Calm x0 t := by
  injection e with e; rw [← e]; exact calm_of_kept (by simp)
theorem calm_execCheckpointDrainDone (x0 x1 t) (e : execCheckpointDrainDone x0 x1 = .next t) : Calm x1 t := by
  injection e with e; rw [← e]; exact calm_of_kept (by simp)
theorem calm_execFenceDone (x0 t) (e : execFenceDone x0 = .next t) : Calm x0 t := by
  injection e with e; rw [← e]; exact calm_of_kept (by simp)
theorem calm_execLongCommandDone (x0 x1 x2 t) (e : execLongCommandDone x0 x1 x2 = .next t) : Calm x2 t := by
  injection e with e; rw [← e]; exact calm_of_kept (by simp)
theorem calm_execQpDoorbell (x0 x1 x2 x3 t) (e : execQpDoorbell x0 x1 x2 x3 = .next t) : Calm x3 t := by
  injection e with e; rw [← e]; exact calm_of_kept (by simp)
theorem calm_execQpCommandTake (x0 x1 x2 t) (e : execQpCommandTake x0 x1 x2 = .next t) : Calm x2 t := by
  injection e with e; rw [← e]; exact calm_doQpTake _ _ _
theorem calm_execQpEnable (x0 x1 x2 t) (e : execQpEnable x0 x1 x2 = .next t) : Calm x2 t := by
  injection e with e; rw [← e]; exact calm_of_kept (by simp)
theorem calm_execMboxGo (x0 x1 x2 t) (e : execMboxGo x0 x1 x2 = .next t) : Calm x2 t := by
  injection e with e; rw [← e]; exact calm_doMboxGo _ _ _
theorem calm_execTimeSet (x0 x1 t) (e : execTimeSet x0 x1 = .next t) : Calm x1 t := by
  injection e with e; rw [← e]; exact calm_of_kept (by simp)
theorem calm_execHubShareWrite (x0 x1 t) (e : execHubShareWrite x0 x1 = .next t) : Calm x1 t := by
  injection e with e; rw [← e]; exact calm_of_kept (by simp)
theorem calm_execTgStart (x0 x1 x2 t) (e : execTgStart x0 x1 x2 = .next t) : Calm x2 t := by
  injection e with e; rw [← e]; exact calm_of_kept (by simp)
theorem calm_execTgDone (x0 x1 x2 t) (e : execTgDone x0 x1 x2 = .next t) : Calm x2 t := by
  injection e with e; rw [← e]; exact calm_of_kept (by simp)
theorem calm_execArithInjectArm (x0 x1 x2 t) (e : execArithInjectArm x0 x1 x2 = .next t) : Calm x2 t := by
  injection e with e; rw [← e]; exact calm_of_kept (by simp)
theorem calm_execInvigilatorEnable (x0 x1 x2 t) (e : execInvigilatorEnable x0 x1 x2 = .next t) : Calm x2 t := by
  injection e with e; rw [← e]; exact calm_of_kept (by simp)
theorem calm_execAdmitLimitWrite (x0 x1 t) (e : execAdmitLimitWrite x0 x1 = .next t) : Calm x1 t := by
  injection e with e; rw [← e]; exact calm_of_kept (by simp)
theorem calm_execDmaDoorbell (x0 x1 x2 x3 t) (e : execDmaDoorbell x0 x1 x2 x3 = .next t) : Calm x3 t := by
  injection e with e; rw [← e]; exact calm_of_kept (by simp)
theorem calm_execDmaChEnable (x0 x1 x2 t) (e : execDmaChEnable x0 x1 x2 = .next t) : Calm x2 t := by
  injection e with e; rw [← e]; exact calm_of_kept (by simp)
theorem calm_execDmaAbort (x0 x1 x2 t) (e : execDmaAbort x0 x1 x2 = .next t) : Calm x2 t := by
  injection e with e; rw [← e]; exact calm_of_kept (by simp)
theorem calm_execCreditAdd (x0 x1 x2 t) (e : execCreditAdd x0 x1 x2 = .next t) : Calm x2 t := by
  injection e with e; rw [← e]; exact calm_of_kept (by simp)
theorem calm_execEngineResume (x0 x1 t) (e : execEngineResume x0 x1 = .next t) : Calm x1 t := by
  injection e with e; rw [← e]; exact calm_of_kept (by simp)
theorem calm_execDmaCopy (x0 x1 t) (e : execDmaCopy x0 x1 = .next t) : Calm x1 t := by
  injection e with e; rw [← e]; exact calm_of_kept (by simp)
theorem calm_execDmaReduce (x0 x1 t) (e : execDmaReduce x0 x1 = .next t) : Calm x1 t := by
  injection e with e; rw [← e]; exact calm_of_kept (by simp)
theorem calm_execDmaRequest (x0 x1 x2 t) (e : execDmaRequest x0 x1 x2 = .next t) : Calm x2 t := by
  injection e with e; rw [← e]; exact calm_of_kept (by simp)
theorem calm_execDmaBurst (x0 x1 x2 t) (e : execDmaBurst x0 x1 x2 = .next t) : Calm x2 t := by
  injection e with e; rw [← e]; exact calm_of_kept (by simp)
theorem calm_execDmaCompletion (x0 x1 t) (e : execDmaCompletion x0 x1 = .next t) : Calm x1 t := by
  injection e with e; rw [← e]; exact calm_of_kept (by simp)
theorem calm_execEngineStop (x0 x1 x2 t) (e : execEngineStop x0 x1 x2 = .next t) : Calm x2 t := by
  injection e with e; rw [← e]; exact calm_of_kept (by simp)
theorem calm_execHubPortAccess (x0 x1 x2 x3 x4 t) (e : execHubPortAccess x0 x1 x2 x3 x4 = .next t) : Calm x4 t := by
  injection e with e; rw [← e]; exact calm_of_kept (by simp)
theorem calm_execHubBurst (x0 x1 x2 x3 t) (e : execHubBurst x0 x1 x2 x3 = .next t) : Calm x3 t := by
  injection e with e; rw [← e]; exact calm_of_kept (by simp)
theorem calm_execBar2Access (x0 x1 x2 x3 t) (e : execBar2Access x0 x1 x2 x3 = .next t) : Calm x3 t := by
  injection e with e; rw [← e]; exact calm_of_kept (by simp)
theorem calm_execRegisterWrite (x0 x1 x2 x3 t) (e : execRegisterWrite x0 x1 x2 x3 = .next t) : Calm x3 t := by
  injection e with e; rw [← e]; exact calm_doRegisterWrite _ _ _ _
theorem calm_execRegisterReadClear (x0 x1 x2 t) (e : execRegisterReadClear x0 x1 x2 = .next t) : Calm x2 t := by
  injection e with e; rw [← e]; exact calm_of_kept (by simp)
theorem calm_execTourStart (x0 x1 t) (e : execTourStart x0 x1 = .next t) : Calm x1 t := by
  injection e with e; rw [← e]; exact calm_of_kept (by simp)
theorem calm_execReadinessSample (x0 x1 t) (e : execReadinessSample x0 x1 = .next t) : Calm x1 t := by
  injection e with e; rw [← e]; exact calm_of_kept (by simp)
theorem calm_execStepLaunch (x0 x1 t) (e : execStepLaunch x0 x1 = .next t) : Calm x1 t := by
  injection e with e; rw [← e]; exact calm_of_kept (by simp)
theorem calm_execLateArrivalDiscard (x0 x1 t) (e : execLateArrivalDiscard x0 x1 = .next t) : Calm x1 t := by
  injection e with e; rw [← e]; exact calm_of_kept (by simp)
theorem calm_execStepEnd (x0 x1 t) (e : execStepEnd x0 x1 = .next t) : Calm x1 t := by
  injection e with e; rw [← e]; exact calm_of_kept (by simp)
theorem calm_execTourOverrun (x0 x1 t) (e : execTourOverrun x0 x1 = .next t) : Calm x1 t := by
  injection e with e; rw [← e]; exact calm_of_kept (by simp)
theorem calm_execHoldLimitExceeded (x0 x1 t) (e : execHoldLimitExceeded x0 x1 = .next t) : Calm x1 t := by
  injection e with e; rw [← e]; exact calm_of_kept (by simp)
theorem calm_execTourEnd (x0 x1 t) (e : execTourEnd x0 x1 = .next t) : Calm x1 t := by
  injection e with e; rw [← e]; exact calm_of_kept (by simp)
theorem calm_execIslandLockLoss (x0 x1 t) (e : execIslandLockLoss x0 x1 = .next t) : Calm x1 t := by
  injection e with e; rw [← e]; exact calm_of_kept (by simp)
theorem calm_execBridgeFlitLoss (x0 x1 x2 t) (e : execBridgeFlitLoss x0 x1 x2 = .next t) : Calm x2 t := by
  injection e with e; rw [← e]; exact calm_of_kept (by simp)
theorem calm_execBridgeRetrain (x0 x1 t) (e : execBridgeRetrain x0 x1 = .next t) : Calm x1 t := by
  injection e with e; rw [← e]; exact calm_of_kept (by simp)
theorem calm_execLineRewrite (x0 x1 t) (e : execLineRewrite x0 x1 = .next t) : Calm x1 t := by
  injection e with e; rw [← e]; exact calm_of_kept (by simp)
theorem calm_execAtomicUpdate (x0 x1 x2 x3 x4 t) (e : execAtomicUpdate x0 x1 x2 x3 x4 = .next t) : Calm x4 t := by
  injection e with e; rw [← e]; exact calm_of_kept (by simp)
theorem calm_execExtentCommit (x0 x1 t) (e : execExtentCommit x0 x1 = .next t) : Calm x1 t := by
  injection e with e; rw [← e]; exact calm_of_kept (by simp)
theorem calm_execProgramFail (x0 x1 t) (e : execProgramFail x0 x1 = .next t) : Calm x1 t := by
  injection e with e; rw [← e]; exact calm_of_kept (by simp)
theorem calm_execPatrolRead (x0 x1 x2 x3 t) (e : execPatrolRead x0 x1 x2 x3 = .next t) : Calm x3 t := by
  injection e with e; rw [← e]; exact calm_of_kept (by simp)
theorem calm_execExtentRelocate (x0 x1 x2 t) (e : execExtentRelocate x0 x1 x2 = .next t) : Calm x2 t := by
  injection e with e; rw [← e]; exact calm_of_kept (by simp)
theorem calm_execOpenPassDone (x0 t) (e : execOpenPassDone x0 = .next t) : Calm x0 t := by
  injection e with e; rw [← e]; exact calm_of_kept (by simp)
theorem calm_execFrameReceive (x0 x1 x2 t) (e : execFrameReceive x0 x1 x2 = .next t) : Calm x2 t := by
  injection e with e; rw [← e]; exact calm_of_kept (by simp)
theorem calm_execLinkRekey (x0 x1 x2 t) (e : execLinkRekey x0 x1 x2 = .next t) : Calm x2 t := by
  injection e with e; rw [← e]; exact calm_of_kept (by simp)
theorem calm_execPacketArrival (x0 x1 t) (e : execPacketArrival x0 x1 = .next t) : Calm x1 t := by
  injection e with e; rw [← e]; exact calm_of_kept (by simp)
theorem calm_execPacketForward (x0 x1 t) (e : execPacketForward x0 x1 = .next t) : Calm x1 t := by
  injection e with e; rw [← e]; exact calm_of_kept (by simp)
theorem calm_execOpeningMessage (x0 x1 t) (e : execOpeningMessage x0 x1 = .next t) : Calm x1 t := by
  injection e with e; rw [← e]; exact calm_of_kept (by simp)
theorem calm_execTimeMessage (x0 x1 x2 x3 t) (e : execTimeMessage x0 x1 x2 x3 = .next t) : Calm x3 t := by
  injection e with e; rw [← e]; exact calm_of_kept (by simp)
theorem calm_execTimeHoldover (x0 t) (e : execTimeHoldover x0 = .next t) : Calm x0 t := by
  injection e with e; rw [← e]; exact calm_of_kept (by simp)
theorem calm_execLockstepSummary (x0 x1 x2 x3 x4 t) (e : execLockstepSummary x0 x1 x2 x3 x4 = .next t) : Calm x4 t := by
  injection e with e; rw [← e]; exact calm_of_kept (by simp)
theorem calm_execLockstepComplete (x0 x1 t) (e : execLockstepComplete x0 x1 = .next t) : Calm x1 t := by
  injection e with e; rw [← e]; exact calm_of_kept (by simp)
theorem calm_execPartnerLost (x0 t) (e : execPartnerLost x0 = .next t) : Calm x0 t := by
  injection e with e; rw [← e]; exact calm_of_kept (by simp)
theorem calm_execEsHealthFail (x0 x1 t) (e : execEsHealthFail x0 x1 = .next t) : Calm x1 t := by
  injection e with e; rw [← e]; exact calm_of_kept (by simp)
theorem calm_execRiskEvaluation (x0 x1 t) (e : execRiskEvaluation x0 x1 = .next t) : Calm x1 t := by
  injection e with e; rw [← e]; exact calm_of_kept (by simp)
theorem calm_execProfileExcess (x0 x1 t) (e : execProfileExcess x0 x1 = .next t) : Calm x1 t := by
  injection e with e; rw [← e]; exact calm_of_kept (by simp)
theorem calm_execPowerInputRise (x0 x1 t) (e : execPowerInputRise x0 x1 = .next t) : Calm x1 t := by
  injection e with e; rw [← e]; exact calm_doInputRise _ _
theorem calm_execPowerInputLoss (x0 t) (e : execPowerInputLoss x0 = .next t) : Calm x0 t := by
  injection e with e; rw [← e]; exact calm_doInputLoss _
theorem calm_execPwrSense (x0 x1 t) (e : execPwrSense x0 x1 = .next t) : Calm x1 t := by
  injection e with e; rw [← e]; exact calm_doSense _ _
theorem calm_execBoot (x0 x1 x2 t) (e : execBoot x0 x1 x2 = .next t) : Calm x2 t := by
  injection e with e; rw [← e]; exact calm_doBoot _ _ _
theorem calm_execPerst (x0 x1 t) (e : execPerst x0 x1 = .next t) : Calm x1 t := by
  injection e with e; rw [← e]; exact calm_doPerst _ _
theorem calm_execFunctionLevelReset (x0 t) (e : execFunctionLevelReset x0 = .next t) : Calm x0 t := by
  injection e with e; rw [← e]; exact calm_doFlr _
theorem calm_execThermalAbort (x0 t) (e : execThermalAbort x0 = .next t) : Calm x0 t := by
  injection e with e; rw [← e]; exact calm_of_kept (by simp)
theorem calm_execPowerFault (x0 t) (e : execPowerFault x0 = .next t) : Calm x0 t := by
  injection e with e; rw [← e]; exact calm_of_kept (by simp)
theorem calm_execEmergencyClear (x0 t) (e : execEmergencyClear x0 = .next t) : Calm x0 t := by
  injection e with e; rw [← e]; exact calm_of_kept (by simp)
theorem calm_execDroop (x0 x1 t) (e : execDroop x0 x1 = .next t) : Calm x1 t := by
  injection e with e; rw [← e]; exact calm_of_kept (by simp)
theorem calm_execThermWarn (x0 t) (e : execThermWarn x0 = .next t) : Calm x0 t := by
  injection e with e; rw [← e]; exact calm_of_kept (by simp)
theorem calm_execShutdown (x0 t) (e : execShutdown x0 = .next t) : Calm x0 t := by
  injection e with e; rw [← e]; exact calm_doShutdown _
theorem calm_execSpdmRequest (x0 x1 x2 t) (e : execSpdmRequest x0 x1 x2 = .next t) : Calm x2 t := by
  injection e with e; rw [← e]; exact calm_of_kept (by simp)
theorem calm_execMctpMessage (x0 x1 x2 t) (e : execMctpMessage x0 x1 x2 = .next t) : Calm x2 t := by
  injection e with e; rw [← e]; exact calm_of_kept (by simp)
theorem calm_execCaptureSample (x0 x1 x2 t) (e : execCaptureSample x0 x1 x2 = .next t) : Calm x2 t := by
  injection e with e; rw [← e]; exact calm_ite _ (calm_of_kept (by simp)) (.refl _)
theorem calm_execCxlMemAccess (x0 x1 x2 x3 t) (e : execCxlMemAccess x0 x1 x2 x3 = .next t) : Calm x3 t := by
  injection e with e; rw [← e]; exact calm_of_kept (by simp)
theorem calm_execBridgeRetrainDone (x0 t) (e : execBridgeRetrainDone x0 = .next t) : Calm x0 t := by
  injection e with e; rw [← e]; exact calm_of_kept (by simp)
theorem calm_execSpdmHeartbeatLoss (x0 x1 t) (e : execSpdmHeartbeatLoss x0 x1 = .next t) : Calm x1 t := by
  injection e with e; rw [← e]; exact calm_of_kept (by simp)
theorem calm_execFabricPortDown (x0 x1 x2 t) (e : execFabricPortDown x0 x1 x2 = .next t) : Calm x2 t := by
  injection e with e; rw [← e]; exact calm_of_kept (by simp)
theorem calm_execCxlLinkRetrain (x0 t) (e : execCxlLinkRetrain x0 = .next t) : Calm x0 t := by
  injection e with e; rw [← e]; exact calm_of_kept (by simp)
theorem calm_execRefreshRateChange (x0 x1 x2 t) (e : execRefreshRateChange x0 x1 x2 = .next t) : Calm x2 t := by
  injection e with e; rw [← e]; exact calm_of_kept (by simp)

end Sys2Proof.Machine
end

