-- ==== Sys2Proof/Laws/Memory.lean ====
section
/-!
SUPPORT. Sys2Proof/Laws/Memory.lean: a sparse memory reads what was written last, keeps every other key, and stays in its
canonical form under every write.
-/

set_option Elab.async false

namespace Sys2Proof.Machine

variable {α : Type}

/-! ### Reading a key -/

/-- A key below every key listed reads as the default. -/
theorem smGet_low (d : α) (k : Nat) (m : SMem α) (h : ∀ p ∈ m, k < p.1) : smGet d k m = d := by
  induction m with
  | nil => rfl
  | cons p m ih =>
    have hp := h p (List.mem_cons_self ..)
    rw [smGet, if_neg (by omega)]
    exact ih (fun q hq => h q (List.mem_cons_of_mem _ hq))

theorem smGet_absent (d : α) (k : Nat) (m : SMem α) (h : ∀ p ∈ m, p.1 ≠ k) : smGet d k m = d := by
  induction m with
  | nil => rfl
  | cons p m ih =>
    rw [smGet, if_neg (h p (List.mem_cons_self ..))]
    exact ih (fun q hq => h q (List.mem_cons_of_mem _ hq))

theorem smGet_append_absent (d : α) (k : Nat) (a b : SMem α) (h : ∀ p ∈ a, p.1 ≠ k) :
    smGet d k (a ++ b) = smGet d k b := by
  induction a with
  | nil => rfl
  | cons p a ih =>
    rw [List.cons_append, smGet, if_neg (h p (List.mem_cons_self ..))]
    exact ih (fun q hq => h q (List.mem_cons_of_mem _ hq))

theorem smGet_append_left (d : α) (k : Nat) (a b : SMem α) (h : ∀ p ∈ b, p.1 ≠ k) :
    smGet d k (a ++ b) = smGet d k a := by
  induction a with
  | nil => exact smGet_absent d k b h
  | cons p a ih => rw [List.cons_append, smGet, smGet, ih]

/-- A filter on keys that keeps `k` does not change what `k` reads. -/
theorem smGet_filter (d : α) (k : Nat) (f : Nat → Bool) (hk : f k = true) (m : SMem α) :
    smGet d k (m.filter (fun p => f p.1)) = smGet d k m := by
  induction m with
  | nil => rfl
  | cons p m ih =>
    by_cases hp : f p.1 = true
    · rw [List.filter_cons_of_pos (by exact hp), smGet, smGet, ih]
    · rw [List.filter_cons_of_neg (by exact hp), smGet, ih, if_neg]
      intro e; rw [e] at hp; exact hp hk

/-! ### Writing one key -/

section
variable [DecidableEq α]

theorem smGet_smSet_same (d : α) (k : Nat) (v : α) (m : SMem α) (h : SmWf d m) : smGet d k (smSet d k v m) = v := by
  induction m with
  | nil => unfold smSet; split <;> simp [smGet, *]
  | cons p m ih =>
    obtain ⟨hs, hd⟩ := h
    rw [List.pairwise_cons] at hs
    unfold smSet
    split
    · split
      · rename_i h1 h2
        rw [h2]; refine smGet_low d k _ (fun q hq => ?_)
        rcases List.mem_cons.1 hq with rfl | hq
        · exact h1
        · exact Nat.lt_trans h1 (hs.1 q hq)
      · rw [smGet, if_pos rfl]
    · split
      · split
        · rename_i h2 h3
          rw [h3]; exact smGet_low d k _ (fun q hq => h2 ▸ hs.1 q hq)
        · rw [smGet, if_pos rfl]
      · rename_i h1 h2
        rw [smGet, if_neg (fun e => h2 e.symm)]
        exact ih ⟨hs.2, fun q hq => hd q (List.mem_cons_of_mem _ hq)⟩

theorem smGet_smSet_other (d : α) (k j : Nat) (v : α) (m : SMem α) (hj : j ≠ k) :
    smGet d j (smSet d k v m) = smGet d j m := by
  induction m with
  | nil => unfold smSet; split <;> simp [smGet, Ne.symm hj]
  | cons p m ih =>
    unfold smSet
    split
    · split
      · rfl
      · rw [smGet, if_neg (Ne.symm hj)]
    · split
      · rename_i h2
        split <;> simp [smGet, h2 ▸ Ne.symm hj, Ne.symm hj]
      · rw [smGet, smGet, ih]

theorem smSet_mem (d : α) (k : Nat) (v : α) (m : SMem α) (p) (h : p ∈ smSet d k v m) :
    p ∈ m ∨ (p = (k, v) ∧ v ≠ d) := by
  induction m with
  | nil =>
    unfold smSet at h; split at h
    · exact absurd h (List.not_mem_nil)
    · rename_i hv; exact .inr ⟨List.mem_singleton.1 h, hv⟩
  | cons q m ih =>
    unfold smSet at h
    (repeat' split at h) <;> simp only [List.mem_cons] at h ⊢
    · exact .inl h
    · rename_i hv
      rcases h with h | h
      · exact .inr ⟨h, hv⟩
      · exact .inl h
    · exact .inl (.inr h)
    · rename_i hv
      rcases h with h | h
      · exact .inr ⟨h, hv⟩
      · exact .inl (.inr h)
    · rcases h with h | h
      · exact .inl (.inl h)
      · rcases ih h with h | h
        · exact .inl (.inr h)
        · exact .inr h

/-- Writing a key keeps the canonical form. -/
theorem smSet_wf (d : α) (k : Nat) (v : α) (m : SMem α) (h : SmWf d m) : SmWf d (smSet d k v m) := by
  refine ⟨?_, fun p hp => ?_⟩
  · induction m with
    | nil => unfold smSet; split <;> simp
    | cons p m ih =>
      obtain ⟨hs, hd⟩ := h
      have hs' := List.pairwise_cons.1 hs
      unfold smSet
      split
      · split
        · exact hs
        · rename_i h1 _
          refine List.pairwise_cons.2 ⟨fun q hq => ?_, hs⟩
          rcases List.mem_cons.1 hq with rfl | hq
          · exact h1
          · exact Nat.lt_trans h1 (hs'.1 q hq)
      · split
        · rename_i h2
          split
          · exact hs'.2
          · exact List.pairwise_cons.2 ⟨fun q hq => h2 ▸ hs'.1 q hq, hs'.2⟩
        · rename_i h1 h2
          refine List.pairwise_cons.2 ⟨fun q hq => ?_, ih ⟨hs'.2, fun q hq => hd q (List.mem_cons_of_mem _ hq)⟩⟩
          rcases smSet_mem d k v m q hq with hq | ⟨rfl, -⟩
          · exact hs'.1 q hq
          · show p.1 < k; omega
  · rcases smSet_mem d k v m p hp with hp | ⟨rfl, hv⟩
    · exact h.2 p hp
    · exact hv

/-! ### Writing a run of keys -/

theorem smCells_mem (d : α) (k : Nat) (vs : List α) (p) (h : p ∈ smCells d k vs) :
    k ≤ p.1 ∧ p.1 < k + vs.length ∧ p.2 ≠ d := by
  induction vs generalizing k with
  | nil => exact absurd h List.not_mem_nil
  | cons v vs ih =>
    unfold smCells at h
    split at h
    · obtain ⟨a, b, c⟩ := ih (k + 1) h; rw [List.length_cons]; exact ⟨by omega, by omega, c⟩
    · rename_i hv
      rcases List.mem_cons.1 h with rfl | h
      · exact ⟨Nat.le_refl _, by rw [List.length_cons]; show k < _; omega, hv⟩
      · obtain ⟨a, b, c⟩ := ih (k + 1) h; rw [List.length_cons]; exact ⟨by omega, by omega, c⟩

theorem smGet_smCells (d : α) (k i : Nat) (vs : List α) (hi : i < vs.length) :
    smGet d (k + i) (smCells d k vs) = vs[i] := by
  induction vs generalizing k i with
  | nil => exact absurd hi (Nat.not_lt_zero _)
  | cons v vs ih =>
    cases i with
    | zero =>
      unfold smCells
      split
      · rename_i hv
        rw [smGet_low d _ _ (fun p hp => by have := smCells_mem d (k + 1) vs p hp; omega)]; exact hv.symm
      · simp [smGet]
    | succ i =>
      have e : k + (i + 1) = (k + 1) + i := by omega
      have hi' : i < vs.length := by simpa using hi
      unfold smCells
      split
      · rw [e, ih (k + 1) i hi']; rfl
      · rw [smGet, if_neg (by show k ≠ _; omega), e, ih (k + 1) i hi']; rfl

theorem smCells_sorted (d : α) (k : Nat) (vs : List α) : (smCells d k vs).Pairwise (fun a b => a.1 < b.1) := by
  induction vs generalizing k with
  | nil => exact .nil
  | cons v vs ih =>
    unfold smCells
    split
    · exact ih (k + 1)
    · refine List.pairwise_cons.2 ⟨fun p hp => ?_, ih (k + 1)⟩
      have := smCells_mem d (k + 1) vs p hp
      show k < p.1; omega

omit [DecidableEq α] in
/-- A canonical middle, between what lies below `k` and what lies from `k + n` on, makes a canonical whole. -/
theorem splice_wf (d : α) (k n : Nat) (mid m : SMem α) (hm : SmWf d m)
    (hs : mid.Pairwise (fun a b => a.1 < b.1)) (hr : ∀ p ∈ mid, k ≤ p.1 ∧ p.1 < k + n ∧ p.2 ≠ d) :
    SmWf d (m.filter (fun p => decide (p.1 < k)) ++ (mid ++ m.filter (fun p => decide (k + n ≤ p.1)))) := by
  refine ⟨?_, fun p hp => ?_⟩
  · rw [List.pairwise_append, List.pairwise_append]
    refine ⟨hm.1.filter _, ⟨hs, hm.1.filter _, fun a ha b hb => ?_⟩, fun a ha b hb => ?_⟩
    · have := hr a ha
      have := of_decide_eq_true (List.mem_filter.1 hb).2
      omega
    · have h1 := of_decide_eq_true (List.mem_filter.1 ha).2
      rcases List.mem_append.1 hb with hb | hb
      · have := hr b hb; omega
      · have := of_decide_eq_true (List.mem_filter.1 hb).2; omega
  · rcases List.mem_append.1 hp with hp | hp
    · exact hm.2 p (List.mem_filter.1 hp).1
    · rcases List.mem_append.1 hp with hp | hp
      · exact (hr p hp).2.2
      · exact hm.2 p (List.mem_filter.1 hp).1

/-- Writing a run of keys keeps the canonical form. -/
theorem smPut_wf (d : α) (k : Nat) (vs : List α) (m : SMem α) (h : SmWf d m) : SmWf d (smPut d k vs m) :=
  splice_wf d k vs.length _ m h (smCells_sorted d k vs) (smCells_mem d k vs)

theorem smGet_smPut_in (d : α) (k i : Nat) (vs : List α) (m : SMem α) (hi : i < vs.length) :
    smGet d (k + i) (smPut d k vs m) = vs[i] := by
  unfold smPut
  rw [smGet_append_absent d _ _ _ (fun p hp => by have := of_decide_eq_true (List.mem_filter.1 hp).2; omega),
    smGet_append_left d _ _ _ (fun p hp => by have := of_decide_eq_true (List.mem_filter.1 hp).2; omega),
    smGet_smCells d k i vs hi]

theorem smGet_smPut_out (d : α) (k j : Nat) (vs : List α) (m : SMem α) (hj : j < k ∨ k + vs.length ≤ j) :
    smGet d j (smPut d k vs m) = smGet d j m := by
  unfold smPut
  rcases hj with hj | hj
  · rw [smGet_append_left d j _ _ (fun p hp => ?_)]
    · exact smGet_filter d j (fun x => decide (x < k)) (decide_eq_true hj) m
    · rcases List.mem_append.1 hp with hp | hp
      · have := smCells_mem d k vs p hp; omega
      · have := of_decide_eq_true (List.mem_filter.1 hp).2; omega
  · rw [smGet_append_absent d j _ _ (fun p hp => by have := of_decide_eq_true (List.mem_filter.1 hp).2; omega),
      smGet_append_absent d j _ _ (fun p hp => by have := smCells_mem d k vs p hp; omega)]
    exact smGet_filter d j (fun x => decide (k + vs.length ≤ x)) (decide_eq_true hj) m

/-! ### Filling a run of keys -/

theorem fillCells_mem (d : α) (k n : Nat) (v : α) (p)
    (h : p ∈ (if v = d then ([] : SMem α) else (List.range n).map (fun i => (k + i, v)))) :
    k ≤ p.1 ∧ p.1 < k + n ∧ p.2 ≠ d := by
  split at h
  · exact absurd h List.not_mem_nil
  · rename_i hv
    obtain ⟨i, hi, rfl⟩ := List.mem_map.1 h
    have := List.mem_range.1 hi
    exact ⟨by show k ≤ k + i; omega, by show k + i < k + n; omega, hv⟩

/-- Filling a run of keys keeps the canonical form. -/
theorem smFill_wf (d : α) (k n : Nat) (v : α) (m : SMem α) (h : SmWf d m) : SmWf d (smFill d k n v m) := by
  refine splice_wf d k n _ m h ?_ (fillCells_mem d k n v)
  split
  · exact .nil
  · rw [List.pairwise_map]
    exact List.pairwise_lt_range.imp (fun {a b} hab => by show k + a < k + b; omega)

theorem smGet_smFill_out (d : α) (k n j : Nat) (v : α) (m : SMem α) (hj : j < k ∨ k + n ≤ j) :
    smGet d j (smFill d k n v m) = smGet d j m := by
  unfold smFill
  rcases hj with hj | hj
  · rw [smGet_append_left d j _ _ (fun p hp => ?_)]
    · exact smGet_filter d j (fun x => decide (x < k)) (decide_eq_true hj) m
    · rcases List.mem_append.1 hp with hp | hp
      · have := fillCells_mem d k n v p hp; omega
      · have := of_decide_eq_true (List.mem_filter.1 hp).2; omega
  · rw [smGet_append_absent d j _ _ (fun p hp => by have := of_decide_eq_true (List.mem_filter.1 hp).2; omega),
      smGet_append_absent d j _ _ (fun p hp => by have := fillCells_mem d k n v p hp; omega)]
    exact smGet_filter d j (fun x => decide (k + n ≤ x)) (decide_eq_true hj) m

omit [DecidableEq α] in
theorem smGet_map_range (d : α) (k n i : Nat) (v : α) (hi : i < n) :
    smGet d (k + i) ((List.range n).map (fun j => (k + j, v))) = v := by
  have key : ∀ l : List Nat, i ∈ l → smGet d (k + i) (l.map (fun j => (k + j, v))) = v := by
    intro l
    induction l with
    | nil => intro h; exact absurd h List.not_mem_nil
    | cons a l ih =>
      intro h
      rw [List.map_cons, smGet]
      split
      · rfl
      · rename_i ha
        rcases List.mem_cons.1 h with rfl | h
        · exact absurd rfl ha
        · exact ih h
  exact key _ (List.mem_range.2 hi)

theorem smGet_smFill_in (d : α) (k n i : Nat) (v : α) (m : SMem α) (hi : i < n) :
    smGet d (k + i) (smFill d k n v m) = v := by
  unfold smFill
  rw [smGet_append_absent d _ _ _ (fun p hp => by have := of_decide_eq_true (List.mem_filter.1 hp).2; omega),
    smGet_append_left d _ _ _ (fun p hp => by have := of_decide_eq_true (List.mem_filter.1 hp).2; omega)]
  split
  · rename_i hv; rw [hv]; rfl
  · exact smGet_map_range d k n i v hi

end

/-! ### Reading a run of keys -/

theorem smRead_length (d : α) (k n : Nat) (m : SMem α) : (smRead d k n m).length = n := by simp [smRead]

theorem smRead_get (d : α) (k n i : Nat) (m : SMem α) (hi : i < n) :
    (smRead d k n m)[i]'(by rw [smRead_length]; exact hi) = smGet d (k + i) m := by
  simp only [smRead, List.getElem_map, List.getElem_range, smSpan]
  exact smGet_filter d (k + i) (fun x => decide (k ≤ x ∧ x < k + n)) (decide_eq_true ⟨by omega, by omega⟩) m

/-- A run of keys reads back what was written to it. -/
theorem smRead_smPut [DecidableEq α] (d : α) (k : Nat) (vs : List α) (m : SMem α) :
    smRead d k vs.length (smPut d k vs m) = vs := by
  refine List.ext_getElem (smRead_length ..) (fun i h1 h2 => ?_)
  rw [smRead_get d k _ i _ h2, smGet_smPut_in d k i vs m h2]

end Sys2Proof.Machine
end

