-- ==== Sys2Proof/Laws/Vectors.lean ====
section
/-!
SUPPORT. Sys2Proof/Laws/Vectors.lean: reads after writes of the state's fixed groups (galleries, regions, channels, queue pairs,
windows, ports, units), what raising a vector leaves alone, and the canonical form of the memories that reset leaves and that writes
of host and device memory keep.
-/

set_option Elab.async false

namespace Sys2Proof.Machine

/-! ### Vectors -/

section
variable {α : Type} {n : Nat}

theorem vget_vset_same (v : Vector α n) (i : Nat) (d x : α) (h : i < n) : vget (vset v i x) i d = x := by
  simp [vget, vset, h]

theorem vget_vset_other (v : Vector α n) (i j : Nat) (d x : α) (h : j ≠ i) : vget (vset v i x) j d = vget v j d := by
  simp [vget, vset, Ne.symm h]

theorem vget_vmod_same (v : Vector α n) (i : Nat) (d : α) (f : α → α) (h : i < n) :
    vget (vmod v i d f) i d = f (vget v i d) := vget_vset_same v i d _ h

theorem vget_vmod_other (v : Vector α n) (i j : Nat) (d : α) (f : α → α) (h : j ≠ i) :
    vget (vmod v i d f) j d = vget v j d := vget_vset_other v i j d _ h

theorem vget_map (v : Vector α n) (i : Nat) (d : α) (f : α → α) (h : i < n) : vget (v.map f) i d = f (vget v i d) := by
  simp [vget, h]

end

/-! ### Galleries and regions -/

theorem galOf_modGal_same (s : State) (g : Nat) (f : Gallery → Gallery) (h : g < 32) :
    galOf (modGal s g f) g = f (galOf s g) := by
  simp [galOf, modGal, setGal, vget_vset_same _ _ _ _ h]

theorem galOf_modGal_other (s : State) (g k : Nat) (f : Gallery → Gallery) (h : k ≠ g) :
    galOf (modGal s g f) k = galOf s k := by
  simp [galOf, modGal, setGal, vget_vset_other _ _ _ _ _ h]

theorem rgnOf_setRgn_same (s : State) (g j : Nat) (x : Region) (h : g < 32) (hj : j < 64) :
    rgnOf (setRgn s g j x) g j = x := by
  simp [rgnOf, setRgn, galOf_modGal_same _ _ _ h, vget_vset_same _ _ _ _ hj]

theorem rgnOf_setRgn_other (s : State) (g j k m : Nat) (x : Region) (h : (k, m) ≠ (g, j)) (hg : g < 32) :
    rgnOf (setRgn s g j x) k m = rgnOf s k m := by
  by_cases hk : k = g
  · subst hk
    have hm : m ≠ j := by rintro rfl; exact h rfl
    simp [rgnOf, setRgn, galOf_modGal_same _ _ _ hg, vget_vset_other _ _ _ _ _ hm]
  · simp [rgnOf, setRgn, galOf_modGal_other _ _ _ _ hk]

theorem chanOf_modChan_same (s : State) (i : Nat) (f : Channel → Channel) (h : i < 64) :
    chanOf (modChan s i f) i = f (chanOf s i) := by
  simp [chanOf, modChan, vget_vmod_same _ _ _ _ h]

theorem chanOf_modChan_other (s : State) (i k : Nat) (f : Channel → Channel) (h : k ≠ i) :
    chanOf (modChan s i f) k = chanOf s k := by
  simp [chanOf, modChan, vget_vmod_other _ _ _ _ _ h]

theorem qpOf_modQp_same (s : State) (i : Nat) (f : Qp → Qp) (h : i < 64) : qpOf (modQp s i f) i = f (qpOf s i) := by
  simp [qpOf, modQp, vget_vmod_same _ _ _ _ h]

theorem qpOf_modQp_other (s : State) (i k : Nat) (f : Qp → Qp) (h : k ≠ i) : qpOf (modQp s i f) k = qpOf s k := by
  simp [qpOf, modQp, vget_vmod_other _ _ _ _ _ h]

theorem winOf_modWin_same (s : State) (i : Nat) (f : LoanWindow → LoanWindow) (h : i < 64) :
    winOf (modWin s i f) i = f (winOf s i) := by
  simp [winOf, modWin, vget_vmod_same _ _ _ _ h]

theorem winOf_modWin_other (s : State) (i k : Nat) (f : LoanWindow → LoanWindow) (h : k ≠ i) :
    winOf (modWin s i f) k = winOf s k := by
  simp [winOf, modWin, vget_vmod_other _ _ _ _ _ h]

theorem portOf_modPort_same (s : State) (i : Nat) (f : Port → Port) (h : i < 8) : portOf (modPort s i f) i = f (portOf s i) := by
  simp [portOf, modPort, vget_vmod_same _ _ _ _ h]

theorem portOf_modPort_other (s : State) (i k : Nat) (f : Port → Port) (h : k ≠ i) : portOf (modPort s i f) k = portOf s k := by
  simp [portOf, modPort, vget_vmod_other _ _ _ _ _ h]

theorem groupOf_modGroup_same (s : State) (i : Nat) (f : Group → Group) (h : i < 4) :
    groupOf (modGroup s i f) i = f (groupOf s i) := by
  simp [groupOf, modGroup, vget_vmod_same _ _ _ _ h]

theorem groupOf_modGroup_other (s : State) (i k : Nat) (f : Group → Group) (h : k ≠ i) :
    groupOf (modGroup s i f) k = groupOf s k := by
  simp [groupOf, modGroup, vget_vmod_other _ _ _ _ _ h]

theorem stkOf_modStk_same (s : State) (i : Nat) (f : Stack → Stack) (h : i < 8) : stkOf (modStk s i f) i = f (stkOf s i) := by
  simp [stkOf, modStk, vget_vmod_same _ _ _ _ h]

theorem stkOf_modStk_other (s : State) (i k : Nat) (f : Stack → Stack) (h : k ≠ i) : stkOf (modStk s i f) k = stkOf s k := by
  simp [stkOf, modStk, vget_vmod_other _ _ _ _ _ h]

theorem unitOf_modUnit_same (s : State) (i : Nat) (f : Unit16 → Unit16) (h : i < 16) :
    unitOf (modUnit s i f) i = f (unitOf s i) := by
  simp [unitOf, modUnit, vget_vmod_same _ _ _ _ h]

theorem unitOf_modUnit_other (s : State) (i k : Nat) (f : Unit16 → Unit16) (h : k ≠ i) :
    unitOf (modUnit s i f) k = unitOf s k := by
  simp [unitOf, modUnit, vget_vmod_other _ _ _ _ _ h]

/-! ### Raising a vector (16 R357) -/

/-- Raising a vector changes the vectors raised and pending, and nothing else. -/
theorem raiseVec_frame (s : State) (v : BitVec 6) : ∃ r p, raiseVec s v =
    { s with host := { s.host with raised := r, msixPending := p } } := by
  unfold raiseVec modHost
  split
  · exact ⟨s.host.raised, s.host.msixPending, rfl⟩
  · split
    · exact ⟨s.host.raised, _, rfl⟩
    · exact ⟨_, s.host.msixPending, rfl⟩

/-! ### Canonical memories -/

theorem hostPut_wf (s : State) (a : Nat) (bs : List Byte) (h : SmWf 0 s.hostMem) : SmWf 0 (hostPut s a bs).hostMem :=
  smPut_wf 0 a bs s.hostMem h

theorem hostPutAll_wf (ws : HostWrites) (s : State) (h : SmWf 0 s.hostMem) : SmWf 0 (hostPutAll s ws).hostMem := by
  induction ws generalizing s with
  | nil => exact h
  | cons w ws ih => exact ih _ (hostPut_wf s w.1 w.2 h)

/-- The memories of the state after reset are in canonical form. -/
theorem reset_memories_wf : SmWf 0 State.reset.hostMem ∧ SmWf 0 State.reset.flash ∧ SmWf 0 State.reset.hbm.mem ∧
    (∀ g, SmWf 0 (galOf State.reset g).cab) ∧ SmWf 0 State.reset.vault.medium.data := by
  have nil : ∀ {α : Type} (d : α), SmWf d ([] : SMem α) := fun d => ⟨List.Pairwise.nil, by simp⟩
  refine ⟨nil _, nil _, nil _, fun g => ?_, nil _⟩
  by_cases h : g < 32
  · have e : (galOf State.reset g).cab = [] := by simp [galOf, vget, State.reset, h, Gallery.reset]
    rw [e]; exact nil _
  · have e : (galOf State.reset g).cab = [] := by simp [galOf, vget, h, Gallery.reset]
    rw [e]; exact nil _

end Sys2Proof.Machine
end

