-- ==== Sys2Proof/WellFormed.lean ====
section
/-!
DEFINITION. Sys2Proof/WellFormed.lean: what a command's operands must be to be an event of the Korez: addresses and
sizes of accesses, lengths of carried data, numbers of parts. A field that a bit vector already bounds needs no check.
-/

set_option Elab.async false

namespace Sys2Proof

/-- Host writes lie in the 52-bit host address space (16 Table 16-9). -/
def hostWritesWf (ws : HostWrites) : Bool := ws.all (fun w => decide (w.1 + w.2.length ≤ 2 ^ 52))

/-- An access moves 1, 2, 4 or 8 bytes and is naturally aligned (00 R9, R10). -/
def accessWf (offset size : Nat) : Bool := [1, 2, 4, 8].contains size && offset % size == 0

/-- BAR0 is 64 MiB (16 R337); the configuration space stands at 2^32 (log entry 38). -/
def regAccessWf (offset size : Nat) : Bool :=
  accessWf offset size &&
    (decide (offset + size ≤ 2 ^ 26) || (decide (2 ^ 32 ≤ offset) && decide (offset + size ≤ 2 ^ 32 + 4096)))

/-- BAR2 is 256 MiB (16 R337). -/
def bar2Wf (offset size : Nat) : Bool := accessWf offset size && decide (offset + size ≤ 2 ^ 28)

/-- Device memory ends at 576 GiB (14 R291). -/
def hbmRangeWf (addr n : Nat) : Bool := decide (addr + n ≤ 618475290624)

/-- The bytes an access moves. -/
def accessBytes : Access (List Byte) → Nat
  | .read => 64
  | .write bs => bs.length

/-- A CXL.mem access or a hub burst stays in one 64-byte line and moves at least one byte (14 R291). -/
def cxlWf (addr : Nat) (acc : Access (List Byte)) : Bool :=
  match acc with
  | .read => addr % 64 == 0 && hbmRangeWf addr 64
  | .write bs => decide (0 < bs.length) && decide (addr % 64 + bs.length ≤ 64) && hbmRangeWf addr bs.length

/-- A cabinet holds 3,145,728 words (04 R69); a tick has 100 cycles (02 R22). -/
def hubPortWf (pa cycle : Nat) : Bool := decide (pa < 3145728) && decide (cycle < 100)

/-- A packet carries a burst of at most 4,096 bytes (13 Table 13-1 BURST_LOG); a hop count of 64 is dropped on arrival, so none
is larger (17 R366). -/
def packetWf (p : Packet) : Bool :=
  decide (p.hops ≤ 64) && decide (p.offset < 2 ^ 40) &&
    (match p.kind with
     | .read n => decide (0 < n) && decide (n ≤ 4096)
     | .write bs _ _ _ => decide (bs.length ≤ 4096)
     | .swap _ _ _ => true)

/-- An opening message carries whole word sets of 256 words (12 R264). -/
def openingWf (m : Opening) : Bool :=
  decide (0 < m.data.length) && m.data.all (fun w => w.length == 256)

/-- An extent number is below 1,048,576 (15 R317); a NAND slot below 1,310,720 (15 R314). -/
def slotWf (slot : BitVec 21) : Bool := decide (slot.toNat < 1310720)

/-- A rail of 20 Table 20-1. -/
def railWf (r : RailNo) : Bool := decide (r < 10)

/-- The well-formed commands. -/
def Instr.wf : Instr → Bool
  | .qpDoorbell _ _ ws => hostWritesWf ws
  | .dmaDoorbell _ _ ws => hostWritesWf ws
  | .registerWrite o n _ => regAccessWf o n
  | .registerReadClear o n => regAccessWf o n
  | .bar2Access o n _ => bar2Wf o n
  | .cxlMemAccess a _ acc => cxlWf a acc
  | .hubBurst a _ acc => cxlWf a acc
  | .hubPortAccess _ pa c _ => hubPortWf pa c
  | .packetArrival p => packetWf p
  | .packetForward p => packetWf p
  | .openingMessage m => openingWf m
  | .extentRelocate _ slot => slotWf slot
  | .droop r => railWf r
  | .powerInputRise rs => rs.all railWf
  | _ => true

end Sys2Proof
end

