-- ==== Sys2Proof/Tests/Slice0.lean ====
section
/-!
SUPPORT. Sys2Proof/Tests/Slice0.lean: small tests. Ill-formed operands are refused; for every hypothesis of a statement a
concrete state and operands meet it; a few single steps and worked examples of the spec.
-/

set_option Elab.async false

open Sys2Proof Sys2Proof.Machine

namespace Sys2Proof.Tests

/-! ### Well-formedness: one ill-formed term for each check -/

theorem test_wf_host_write : Instr.wf (.qpDoorbell 0 1 [(2 ^ 52 - 1, [0, 0])]) = false := by decide
theorem test_wf_dma_write : Instr.wf (.dmaDoorbell 0 1 [(2 ^ 52, [0])]) = false := by decide
theorem test_wf_access_size : Instr.wf (.registerWrite 0x100 3 0) = false := by decide
theorem test_wf_access_aligned : Instr.wf (.registerReadClear 0x102 4) = false := by decide
theorem test_wf_bar0 : Instr.wf (.registerReadClear (2 ^ 26) 4) = false := by decide
theorem test_wf_config : Instr.wf (.registerWrite (2 ^ 32 + 4096) 4 0) = false := by decide
theorem test_wf_bar2 : Instr.wf (.bar2Access (2 ^ 28) 4 .read) = false := by decide
theorem test_wf_cxl_line : Instr.wf (.cxlMemAccess 32 false (.write (List.replicate 33 0))) = false := by decide
theorem test_wf_cxl_end : Instr.wf (.cxlMemAccess 618475290624 false .read) = false := by decide
theorem test_wf_hub_burst : Instr.wf (.hubBurst 0 8 (.write [])) = false := by decide
theorem test_wf_hub_port : Instr.wf (.hubPortAccess 0 3145728 0 .read) = false := by decide
theorem test_wf_hub_cycle : Instr.wf (.hubPortAccess 0 0 100 .read) = false := by decide
theorem test_wf_opening : Instr.wf (.openingMessage
    { groupId := 0, sender := 0, seq := 0, tourId := 0, gallery := 0, region := 0, offset := 0, data := [], tagOk := true }) = false := by decide
theorem test_wf_packet : Instr.wf (.packetArrival
    { dst := 0, src := 0, epoch := 0, hops := 65, window := 0, offset := 0, kind := .read 4 }) = false := by decide
theorem test_wf_forward : Instr.wf (.packetForward
    { dst := 1, src := 0, epoch := 0, hops := 0, window := 0, offset := 0, kind := .read 4097 }) = false := by decide
theorem test_wf_slot : Instr.wf (.extentRelocate 0 1310720) = false := by decide
theorem test_wf_rail : Instr.wf (.droop 10) = false := by decide
theorem test_wf_rails : Instr.wf (.powerInputRise [3, 10]) = false := by decide
theorem test_wf_good : Instr.wf (.registerReadClear 0x100 8) = true := by decide

/-! ### States for the tests -/

/-- A command from queue pair 3, and one from the mailbox. -/
def qh : Hdr := { src := .qp 3, tag := 7, irq := false, fence := false }
def mh : Hdr := { src := .mbox, tag := 7, irq := false, fence := false }
/-- Nothing failed outside. -/
def fine : WorkOutcome := { failed := 0, groups := 0, heard := true, offers := [] }
/-- A module that answers, like this one, in no time domain. -/
def peer : Peer := { answers := true, windowsFull := false, galleries := 32, busy := false, aligned := true, domain := 0 }

/-- A running gallery. -/
def galUp : Gallery := { Gallery.reset with regs := { GalRegs.reset with clockOn := true } }

/-- The module after bring-up at tick 1,000: every island locked, every stack trained, galleries running, bus mastering on. -/
def up : State :=
  { State.reset with
    power := { Power.reset with state := .active }, time := { TimeSt.reset with now := 1000, refLock := true, islandLock := 0x7FFFFFFFFFF },
    hbm := { Hbm.reset with trained := 0xFF }, host := { HostPort.reset with busMaster := true, hdmEnabled := true, link := { Link.reset with up := true } },
    gals := Vector.replicate 32 galUp, bridge := { Bridge.reset with dir10Up := true, dir01Up := true },
    cat := { Catalogue.reset with enabled := true, base := 0x1000000 } }

/-- The same in debug mode. -/
def dbg : State := { up with sec := { Security.reset with debug := true } }

/-- `up` with a long command whose work is under way. -/
def working (k : LongKind) : State := { up with host := { up.host with longWork := [{ hdr := qh, opcode := 0, kind := k }] } }

/-! ### Witnesses: the step -/

theorem witness_front : ({ up with pending := [.thermWarn, .powerFault] } : State).pending = .thermWarn :: [.powerFault] := rfl
theorem witness_idle : up.pending = [] ∧ hubRuns up = true ∧ up.time.islandLock.getLsbD 42 = true ∧ up.held = [] ∧
    (∀ g < 32, (galOf up g).run = .none) ∧ up.tours = [] ∧ filling up = false ∧ up.useLog = [] ∧ watching up = false := by decide +kernel
theorem witness_exchange : let s : State :=
      { up with time := { up.time with joined := true, root := 9, lastExchange := 745 },
                fab := { up.fab with routes := [(9, { valid := true, minimal := 0, dport := 7 })] } }
    let s := modPort s 7 (fun p => { p with up := true })
    s.time.joined = true ∧ s.time.isRoot = false ∧ s.time.lastExchange + 256 ≤ 1001 ∧ (routeOf s 9).valid = true ∧
      (portOf s 7).up = true := by decide
theorem witness_fuses : step { dbg with pending := [.debugDisable qh 0] } =
    exec (.debugDisable qh 0) dbg ∧ (dbg.sec.debug = true → dbg.fuses.debugDisabled = false) := ⟨rfl, by decide⟩
theorem witness_recovery : Claims.opcodeOf (.vaultOpen mh) = some (mh, 0x0410) ∧
    ({ up with power := { Power.reset with state := .recovery } } : State).power.state = .recovery ∧ mh.src = .mbox := by decide
theorem witness_reply : (qpOf up 3).rqLoc = false := by decide
theorem witness_mailbox : ansOk.work = .none ∧ (ansLong .vaultOpen).work = some .vaultOpen := by decide

/-! ### Witnesses: module commands -/

theorem witness_module : docentUp up = true ∧ up.hbm.trained = 0xFF ∧ anyLive up = false ∧ hubRuns up = true ∧
    up.health.stage = .idle := by decide
theorem witness_train : (working (.hbmTrain 1)).host.longWork[0]? = some { hdr := qh, opcode := 0, kind := .hbmTrain 1 } := rfl
theorem witness_start : let s : State := { working (.galleriesStart true) with power := { Power.reset with state := .idle } }
    docentUp s = true ∧ s.host.longWork[0]? = some { hdr := qh, opcode := 0, kind := .galleriesStart true } ∧ fine.failed = 0 ∧
      s.power.state = .idle ∧ (working (.galleriesStart false)).host.longWork[0]?.map (·.kind) = some (.galleriesStart false) ∧
      (working (.galleriesStart true)).power.state = .active := by decide
set_option maxRecDepth 100000 in
theorem witness_long_kinds : ∀ k ∈ ([.regionFill 31 63 5, .tourLoad 0x77 stOk 0, .checkpointTake, .migrateFence 1 2, .restorationEnable 0, .atomicOpen 7 15,
      .atomicClose 7 15, .generatorFill .hbm true 31 63 2 618475290616 1 (2 ^ 64 - 1), .vaultSanitize, .timeJoin 5 9, .lockstepSet 9 true,
      .drbgInstantiate, .firmwareWrite true [1], .pkOperation 0x3000 stPkFail [0] 8, .monitorSnapshot false 0x1000 [],
      .monitorSnapshot false 0x1000 [1]] : List LongKind), (working k).host.longWork[0]?.map (·.kind) = some k := by decide
theorem witness_restoration_done : (rgnOf (setRgn (working (.restorationEnable 0)) 0 60 { Region.none with valid := true }) 0 60).valid = true := by
  decide +kernel
theorem witness_join_done : let s := working (.timeJoin 5 9)
    s.time.aligned = false ∧ s.time.now < s.time.lastMessage + 1024 ∧
      ({ s with time := { s.time with now := 1024 } } : State).time.lastMessage + 1024 ≤ 1024 ∧
      ({ s with time := { s.time with aligned := true } } : State).time.aligned = true := by decide
theorem witness_drbg_failed : ({ fine with failed := 1 } : WorkOutcome).failed.getLsbD 0 = true ∧
    ({ fine with failed := 2 } : WorkOutcome).failed.getLsbD 1 = true := by decide
/-- In LATCHED_OFF, and in BOOT with an image being written. -/
theorem witness_power_lost : ({ up with power := { up.power with state := .latchedOff } } : State).power.state = .latchedOff ∧
    firmwareRunning (working (.firmwareWrite true [])) = true ∧ firmwareRunning up = false := by decide
theorem witness_create : (working (.catalogueCreate 0)).host.longWork[0]?.map (·.kind) = some (.catalogueCreate 0) := rfl
theorem witness_close : (working .vaultClose).host.longWork[0]?.map (·.kind) = some .vaultClose ∧
    vaultMoving (working .vaultClose) = false := ⟨rfl, by decide⟩
theorem witness_debug_done : (working (.debugState 1 stOk)).host.longWork[0]?.map (·.kind) = some (.debugState 1 stOk) := rfl
theorem witness_window_kinds : let s := modWin up 63 (fun w => { w with isOpen := true, cabinet := true })
    (winOf s 63).cabinet = true ∧ (winOf s 0).cabinet = false := by decide

/-! ### Witnesses: regions and Restoration -/

/-- `up` with region 63 of gallery 31 declared: outside-fed, 8 rows from row 0. -/
def withRgn (isSealed clock : Bool) : State :=
  modRegs (setRgn up 31 63 { Region.none with rows := 8, feed := 1, isSealed := isSealed, valid := true }) 31
    (fun r => { r with clockOn := clock })

theorem witness_declare : let s := up
    docentUp s = true ∧ 31 < numGal s ∧ reservedRegion s 63 = false ∧ regionNamed s 31 63 = false ∧
      holdsRows (rgnOf s 31 63) = false ∧ rowsTaken s 31 0 12288 = false ∧ s.sec.debug = false ∧
      ((1 : BitVec 8) = 1 → 0 < 512 ∧ 512 ≤ 512 ∧ 12288 % 512 = 0) := by decide
theorem witness_release_plain : let s := withRgn false true
    31 < numGal s ∧ reservedRegion s 63 = false ∧ regionNamed s 31 63 = false ∧ (rgnOf s 31 63).valid = true ∧
      (rgnOf s 31 63).isSealed = false ∧ (galOf s 31).regs.clockOn = true := by decide
theorem witness_release_sealed : (rgnOf (withRgn true true) 31 63).isSealed = true ∧
    (galOf (withRgn true true) 31).regs.clockOn = true := by decide
theorem witness_release_gated : (rgnOf (withRgn true false) 31 63).valid = true ∧
    (galOf (withRgn true false) 31).regs.clockOn = false := by decide
/-- A fill of that region with 5 under way, `chunk` rows landed. -/
def fillOf (chunk : Nat) (release : Bool) : CabFill := { region := 63, value := 5, rows := 8, chunk := chunk, release := release }
def withFill (chunk : Nat) (release : Bool) : State :=
  let s := modGal (withRgn false true) 31 (fun x => { x with fills := [fillOf chunk release] })
  { s with host := (working (.regionFill 31 63 5)).host }
theorem witness_fill : let s := withFill 0 false
    s.pending = [] ∧ hubRuns s = true ∧ s.time.islandLock.getLsbD 42 = true ∧ s.held = [] ∧ s.time.cycle = 0 ∧ s.useLog = [] ∧
      watching s = false ∧ (∀ k < 32, (galOf s k).run = .none) ∧ s.tours = [] ∧ (galOf s 31).fills = [fillOf 0 false] ∧
      (∀ k < 31, (galOf s k).fills = []) ∧ (galOf s 31).regs.clockOn = true ∧ (fillOf 0 true).chunk < (fillOf 0 true).rows := by
  decide +kernel
/-- A region of 101 rows outlasts a tick. -/
theorem witness_fill_long : min 100 (101 - 0) + 0 < 101 := by decide
theorem witness_fill_done :
    (galOf (withFill 7 false) 31).fills.find? (fun f => f.region == 63 && f.value == (5 : Word) && !f.release) = some (fillOf 7 false) ∧
      (fillOf 7 false).chunk < 8 ∧ 8 ≤ (fillOf 8 false).chunk ∧
      (galOf (withFill 7 true) 31).fills.find? (fun f => f.region == 63 && f.value == (5 : Word) && !f.release) = .none := by decide +kernel
theorem test_fill_lands : (match step (withFill 0 false) with
    | .next t => (cabWord t 31 0, cabWord t 31 2047, cabWord t 31 2048, (galOf t 31).fills) | _ => (0, 0, 0, [])) =
      (5, 5, 0, [fillOf 8 false]) := by decide +kernel
theorem witness_restoration : let a : Quad := 0x100000000
    docentUp up = true ∧ a.toNat % 2 ^ 32 = 0 ∧ a.toNat + 2 ^ 32 ≤ 618475290624 ∧ up.cat.base + 2 ^ 24 ≤ a.toNat ∧
      restorationHolds up = false ∧ anyLive up = false ∧ hbmUsable up a.toNat (2 ^ 32) = true ∧
      (∀ g < numGal up, rowsTaken up g 8192 4096 = false ∧ ∀ i < 4, holdsRows (rgnOf up g (60 + i)) = false) ∧
      restorationLive up = false := by decide

/-! ### Witnesses: the Catalogue -/

/-- `up` without a Catalogue. -/
def bare : State := { up with cat := Catalogue.reset }

/-- A ciphertext of 2^12 coefficients and one limb in exact mode modulo 17, at byte 0x4000000 of device memory. -/
def cipher : CatEnt :=
  { freeEnt with kind := 1, addr := 0x4000000, bytes := 32768, components := 2, limbs := 1, logN := 12, ptMod := 17 }
/-- A tensor. -/
def tensor : CatEnt := { freeEnt with kind := 4, addr := 0x4000000, bytes := 64 }
/-- A parameter block: N = 2^12, exact mode, one data modulus, no special one, one digit, t = 17. -/
def block : List Byte := [12, 0, 1, 0, 1, 0, 0, 0, 17, 0, 0, 0, 0, 0, 0, 0] ++ List.replicate 20 0
/-- `up` with a template at 0x1000 of host memory and the block at 0x2000. -/
def templated (x : CatEnt) : State := hostPut (hostPut up 0x1000 (entBytes x)) 0x2000 block
/-- `up` with an entry 5. -/
def listed (x : CatEnt) : State := putEnt 5 x (templated x)

theorem witness_catalogue_create : docentUp bare = true ∧ catExists bare = false ∧ hbmUsable bare 0 (2 ^ 24) = true ∧
    ((0 : Quad).toNat + 2 ^ 24 ≤ 618475290624) := by decide
theorem witness_no_ranges : Claims.noRanges up ∧ Claims.noRanges bare := by
  unfold Claims.noRanges; decide
theorem witness_register_plain : let s := templated tensor
    let e := leNat (hostGet s 0x1000 64)
    docentUp s = true ∧ catExists s = true ∧ s.host.busMaster = true ∧ (catEnt s 262143).kind = 0 ∧ (catEnt s 262143).locked = false ∧
      templateOk (numGal s) e = true ∧ objectOk (readEnt e) = true ∧ (readEnt e).kind = 4 := by decide +kernel
theorem witness_register_block : let s := templated cipher
    let e := leNat (hostGet s 0x1000 64)
    templateOk (numGal s) e = true ∧ objectOk (readEnt e) = true ∧ (readEnt e).kind = 1 ∧ pbOk (hostGet s 0x2000 36) = true ∧
      agrees (readEnt e) (hostGet s 0x2000 36) = true := by decide +kernel
theorem witness_update : let s := listed cipher
    let e := leNat (hostGet s 0x1000 64)
    (catEnt s 5).locked = false ∧ (catEnt s 5).kind ≠ 0 ∧ (catEnt s 5).kind ≠ 3 ∧ (readEnt e).kind = (catEnt s 5).kind ∧
      templateOk (numGal s) e = true ∧ objectOk (readEnt e) = true ∧ (catEnt s 5).tag = 0 := by decide +kernel
/-- The same under a provenance tag, whose block agrees; and one that disagrees. -/
theorem witness_update_tagged : let s := keepBlock 0x55 block (listed { cipher with tag := 0x55 })
    let e := leNat (hostGet s 0x1000 64)
    (catEnt s 5).tag = 0x55 ∧ blockOf s 0x55 = some block ∧ agrees (readEnt e) block = true ∧
      agrees { readEnt e with ptMod := 19 } block = false := by decide +kernel
/-- A key object. -/
theorem witness_update_key : let k := { cipher with kind := 3, keyKind := 0x10, dnum := 1 }
    let s := listed k
    let e := leNat (hostGet s 0x1000 64)
    (catEnt s 5).kind = 3 ∧ (readEnt e).kind = 3 ∧ (readEnt e).keyKind = (catEnt s 5).keyKind ∧ (readEnt e).dnum = (catEnt s 5).dnum ∧
      (readEnt e).autoA = (catEnt s 5).autoA ∧ (readEnt e).levelMin = (catEnt s 5).levelMin ∧
      (readEnt e).levelMax = (catEnt s 5).levelMax ∧ (catEnt s 5).tag = 0 := by decide +kernel
theorem witness_object_release : catExists up = true ∧ 5 + 2 ≤ 262144 ∧ ∀ i < 2, (catEnt up (5 + i)).locked = false := by
  decide +kernel
theorem witness_cost : up.host.busMaster = true ∧ anyLive up = false := by decide
theorem witness_key : let s := templated cipher
    (catEnt s 0).kind = 0 ∧ (catEnt s 0).locked = false ∧ pbOk (hostGet s 0x2000 36) = true ∧
      (keyBytes 0 0x4000000 0 s).1.1 = stOk ∧ khKind (keyBytes 0 0x4000000 0 s).1.2 = 0 := by decide +kernel

/-- A refresh key (kind 0x12) whose descriptor lies in HBM, and a key object that starts extent 1,048,575 of the Vault. -/
theorem witness_key_refresh : let s := hbmPutBytes 0x4000006 [0x12] (templated cipher)
    (keyBytes 0 0x4000000 0 s).1.1 = stOk ∧ khKind (keyBytes 0 0x4000000 0 s).1.2 = 0x12 ∧
      (keyBytes 0 0x4000000 1024 (keyBytes 0 0x4000000 0 s).2).1.1 = stOk := by decide +kernel
theorem witness_key_vault : let u := templated cipher
    let e : MapEntry := { seq := 1, isSealed := false, state := .written, slot := 1310719 }
    let s : State := { u with vault := { u.vault with isOpen := true, map := [(1048575, e)] } }
    docentUp s = true ∧ catExists s = true ∧ (catEnt s 0).kind = 0 ∧ (keyBytes 2 1048575 0 s).1.1 = stOk ∧
      khKind (keyBytes 2 1048575 0 s).1.2 = 0 := by decide +kernel

/-! ### Witnesses: monitors, HBM -/

theorem witness_monitor : (15 : BitVec 8).toNat < 16 ∧ sourceOk 0x6C = true ∧ (31 : BitVec 8).toNat < 32 ∧ up.host.busMaster = true ∧
    hbmUsable up (618475290624 - 5232) 5232 = true := by decide
theorem witness_sample : let s := modUnit up 15 (fun u => { u with source := 0x10 })
    hubRuns s = true ∧ (unitOf s 15).source = 0x10 ∧ (unitOf s 0).source ≠ 0x10 := by decide

/-- An open range of one line, Q the smallest modulus of 05 R97 that fits. -/
def openRange : AtomRange := { base := 0, length := 64, q := 0x20000003, sram := [(0, 5)], poisoned := [] }
def withRange : State := modStk up 0 (fun st => { st with ranges := vset st.ranges 15 (some openRange) })

theorem witness_atomic_open : rangeBad up 0x48000000 64 0x20000003 = false ∧ hbmUsable up 0x48000000 64 = true ∧
    halfClaimed up (stackOf 0x48000000) (halfOf 0x48000000) = false ∧ up.hbm.dead = [] ∧ up.hbm.weak = [] ∧ lockstepOn up = false ∧
    vget (stkOf up (stackOf 0x48000000)).ranges 0 .none = .none := by decide
theorem witness_atomic_close : vget (stkOf withRange 0).ranges 15 .none = some openRange := by decide
theorem witness_atomic_update : hubRuns withRange = true ∧ findRange withRange 60 = some (15, openRange) ∧
    findRange withRange 56 = some (15, openRange) ∧ openRange.poisoned.contains 0 = false := by decide
theorem witness_cxl : hubRuns up = true ∧ up.host.hdmEnabled = true ∧ 64 * 9663676415 + 64 ≤ 618475290624 ∧
    up.hbm.trained = 0xFF ∧ lineHeld up 9663676415 = false ∧ (cxlSlot up (64 * 9663676415) (.write [])).isSome = true ∧
    (cxlSlot up (64 * 9663676415) .read).isSome = true := by decide +kernel
/-- Bursts of another row of a line's bank in every slot of this tick and the next leave it none. -/
def jammed : State :=
  { up with hbm := { up.hbm with bursts := (List.range 128).map (fun i => (64000 + i, 9663676415, true)) } }
theorem witness_slot_none : (cxlSlot jammed (64 * 9663676415) .read).isNone = true ∧
    (slotFor jammed (nearLine jammed 9663676415) 9663676415 true).isNone = true ∧ (slotFor up (nearLine up 9) 9 true).isSome = true := by
  decide +kernel
/-- A held access to the line goes before. -/
theorem witness_cxl_held : lineHeld { up with held := [.cxl 128 false .read] } 2 = true := by decide

/-- `up` with its decoders disabled and no Catalogue. -/
def quiet : State := { bare with host := { up.host with hdmEnabled := false } }
theorem witness_share : (1 : Word).getLsbD 0 ≠ up.hbm.hubEighth := by decide
theorem witness_tg_start : (stkOf quiet 7).tgBusy = false ∧ quiet.host.hdmEnabled = false ∧ catExists quiet = false ∧
    (0x09 : Word).getLsbD 0 = true ∧ fieldAt (0x09 : Word).toNat 4 2 = 0 ∧ fieldAt (0x09 : Word).toNat 2 2 = 2 ∧
    up.host.hdmEnabled = true := by decide
theorem witness_tg_scan : let s := modStk up 7 (fun st => { st with tgBusy := true, runMode := 1 })
    (stkOf s 7).tgBusy = true ∧ (stkOf s 7).runMode = 1 ∧ s.hbm.dead = [] ∧ s.hbm.weak = [] := by decide
theorem witness_rewrite : let s : State := { up with hbm := { up.hbm with fixes := [(9, 0), (9, 0)], weak := [9] } }
    correctedTwice s 9 = true ∧ halfClaimed s (stackOf (9 * 64)) (halfOf (9 * 64)) = false ∧ s.hbm.dead.contains 9 = false := by
  decide
theorem witness_burst : 64 * 0 + 64 ≤ 618475290624 ∧ hbmTrained up 0 64 = true ∧ burstFits up (nearLine up 0) 0 64056 false = true ∧
    burstFits up (nearLine up 0) 0 64000 false = false := by decide +kernel

/-! ### Witnesses: randomness -/

theorem witness_drbg_fill : let s : State := { withRgn true true with drbg := { Drbg.reset with instantiated := true, esOk := true } }
    (3 : BitVec 8).toNat < 4 ∧ noiseOk 0 0 = true ∧ s.sec.debug = false ∧ (rgnOf s 31 63).valid = true ∧ (rgnOf s 31 63).isSealed = true ∧
      (rgnOf s 31 63).feed ≠ 0 ∧ s.drbg.error = false ∧ drbgDue s = true ∧ reservedRegion s 63 = false ∧
        2048 ≤ rgnWords (rgnOf s 31 63) := by decide
theorem witness_generator_fill : hbmUsable up (618475290624 - 4) 4 = true ∧ reservedRegion (withRgn false true) 63 = false ∧
      declared (withRgn false true) 31 63 = true ∧
    (rgnOf (withRgn false true) 31 63).isSealed = false ∧ (rgnOf (withRgn false true) 31 63).feed ≠ 0 ∧
    2048 ≤ rgnWords (rgnOf (withRgn false true) 31 63) := by decide
theorem witness_health_fail : ∀ w ∈ up.host.longWork, ∀ g j a b n q c, w.kind ≠ .drbgFill g j a b n q c := fun _ h => nomatch h

/-! ### Witnesses: tours -/

/-- A manifest without bindings for gallery `g`: budget 1 tick, one profile window of 500 W, its image at byte 1,024. -/
def manifest (g : Nat) : List Byte :=
  let offs := leBytes 8 1024 ++ (leBytes 2 500 ++ List.replicate 6 0)
  let head := leBytes 4 0x4B5A544D ++ leBytes 2 1 ++ [0, 0] ++ leBytes 8 0x77 ++ leBytes 4 (2 ^ g) ++ leBytes 4 1 ++ leBytes 4 0 ++
    leBytes 4 0 ++ leBytes 2 0 ++ leBytes 2 0 ++ leBytes 4 1 ++ List.replicate 8 0 ++ leBytes 4 80 ++ leBytes 4 (crc32c offs) ++
    leBytes 4 0
  head ++ (leBytes 4 (crc32c head) ++ offs)
/-- An image of one idle step of 100 cycles at launch tick 0. -/
def image (g : Nat) : List Byte :=
  let steps := leBytes 8 (100 * 2 ^ 32) ++ List.replicate 24 0
  let head := leBytes 4 0x4B5A5449 ++ leBytes 2 1 ++ [0, BitVec.ofNat 8 g] ++ leBytes 8 0x77 ++ leBytes 4 96 ++ leBytes 4 1 ++
    leBytes 4 96 ++ leBytes 4 0 ++ leBytes 4 0 ++ leBytes 4 (crc32c steps) ++ List.replicate 20 0
  head ++ (leBytes 4 (crc32c head) ++ steps)
/-- The package for gallery `g` (10 R211): manifest, zeros, image. -/
def package (g : Nat) : List Byte := manifest g ++ (List.replicate 944 0 ++ image g)

/-- `up` with the package for G31 at 0x1000 of host memory. -/
def packaged : State := hostPut up 0x1000 (package 31)

theorem witness_tour_load : let bs := hostGet packaged 0x1000 1120
    docentUp packaged = true ∧ packaged.host.busMaster = true ∧ checkManifest packaged (pkgOf bs) = .none ∧
      pkBindings (pkgOf bs).rd = 0 ∧ (∀ g ∈ (pkgOf bs).gals, bankBusy packaged g = false) ∧ packaged.tours = [] ∧
      checkPackage packaged (pkgOf bs) = .none := by decide +kernel
/-- A package whose image has no steps fails the checks of the package alone. -/
theorem witness_tour_load_fails : let bs := manifest 31 ++ List.replicate 1040 0
    checkManifest packaged (pkgOf bs) = .none ∧ (checkPackage packaged (pkgOf bs)).isSome = true := by decide +kernel

/-! ### Witnesses: tours in progress -/

/-- An image of one step at launch tick 2 of 100 cycles, with its masks, that reads region 63 of gallery 31, outside-fed by the
host; and one whose masks say so. -/
def imageWith (masks : Nat) : List Byte :=
  let step := leBytes 32 (2 + 100 * 2 ^ 32 + 4 * 2 ^ 54 + masks) ++ leBytes 32 (srcCab + 31 * 2 ^ 16 + 63 * 2 ^ 32)
  let tables := leBytes 4 (2 + 2 ^ 8) ++ (leBytes 4 0x88 ++ leBytes 4 (63 + 2 ^ 8))
  let head := leBytes 4 0x4B5A5449 ++ leBytes 2 1 ++ [0, 31] ++ leBytes 8 0x77 ++ leBytes 4 140 ++ leBytes 4 1 ++
    leBytes 4 128 ++ leBytes 4 0 ++ [0, 0, 1, 0] ++ leBytes 4 (crc32c step) ++ List.replicate 20 0
  head ++ (leBytes 4 (crc32c head) ++ (step ++ tables))
def readerImage : List Byte := imageWith (2 ^ 127 + 2 ^ 255)

/-- The tour of a package, its load done. -/
def tourFor (bs : List Byte) : Tour := { newTour (pkgOf bs) with tourId := 0x77, mask := 0x80000000, loading := false, hdr := qh }
/-- The tour of `image 31`, and that of `readerImage`. -/
def idleTour : Tour := tourFor (package 31)
def readTour : Tour := tourFor (manifest 31 ++ (List.replicate 944 0 ++ readerImage))

/-- Bytes as a tour store holds them. -/
def storeOf (bs : List Byte) : SMem Byte := (bs.zipIdx.filter (fun x => x.1 != 0)).map (fun x => (x.2, x.1))

/-- `up` with a tour whose image stands in both banks of gallery 31; region 63 is outside-fed. -/
def withTour (im : List Byte) (t : Tour) : State :=
  let u : State := { up with tours := [t] }
  let u := setRgn u 31 63 { Region.none with rows := 8, feed := 1, valid := true }
  modGal u 31 (fun x => { x with bank0 := { x.bank0 with store := storeOf im }, bank1 := { x.bank1 with store := storeOf im } })

theorem withTour_tourOf (im : List Byte) (t : Tour) (h : t.tourId = 0x77) : tourOf (withTour im t) 0x77 = some t := by
  have : (withTour im t).tours = [t] := rfl
  simp [tourOf, this, h]

theorem witness_tour_loaded : let s := withTour (image 31) idleTour
    docentUp s = true ∧ tourOf s 0x77 = some idleTour ∧ idleTour.state = .loaded ∧ idleTour.loading = false ∧
      tourOf s 0x78 = .none :=
  ⟨by decide, withTour_tourOf _ _ rfl, rfl, rfl, rfl⟩
theorem witness_tour_load_done : let s : State := { withTour (image 31) { idleTour with loading := true } with
      host := { up.host with longWork := [{ hdr := qh, opcode := 0x0300, kind := .tourLoad 0x77 stOk 0 }] } }
    s.host.longWork[0]?.map (·.kind) = some (.tourLoad 0x77 stOk 0) ∧
      s.tours.find? (fun x => x.tourId == 0x77 && x.loading) = some { idleTour with loading := true } := ⟨rfl, rfl⟩

/-- A submit that starts as soon as it can: 256 ticks from now. -/
theorem witness_tour_submit : let s := withTour (image 31) idleTour
    qh.src = .qp 3 ∧ s.power.emergency = false ∧ walkWithRestores s idleTour (idleTour.bindings.length + 1) [] = .inr ([], []) ∧
      poisonedUnused s idleTour = false ∧
      (findStart { idleTour with walk := [], waitFor := [] } 0 0 s).1 = some (max 0 (s.time.now + 256)) := by decide +kernel
set_option maxRecDepth 100000 in
theorem witness_tour_submit_reads : readBound ((idleTour.bindings.map (·.cat)).eraseDups) (withTour (image 31) idleTour) =
    withTour (image 31) idleTour := rfl
/-- One that is deferred: an accepted tour of the same gallery ends at 5,000. -/
theorem witness_tour_submit_deferred : let s := withTour (image 31) idleTour
    let s : State := { s with tours := [idleTour, { idleTour with tourId := 0x78, state := .accepted, start := 4999, deadline := 5000 }] }
    (findStart { idleTour with walk := [], waitFor := [] } 0 0 s).1.any (fun k => decide (max 0 (s.time.now + 256) < k)) = true := by
  decide +kernel

/-- Bytes in device memory from an address on. -/
def placed (a : Nat) (bs : List Byte) : SMem Byte := (storeOf bs).map (fun x => (a + x.1, x.2))
/-- The lookup table of Table 07-5a with IN_BITS 1 and OUT_BITS 1, every entry 0. -/
def lutBytes : List Byte :=
  let head := leBytes 4 0x4B5A4C54 ++ ([1, 1] ++ List.replicate 54 0)
  head ++ (leBytes 4 (crc32c (head ++ List.replicate 64 0)) ++ List.replicate 64 0)
/-- The entries of a Restoration from Catalogue index 10 on: input, output, lookup table and the three keys. -/
def restoreEnts : List CatEnt :=
  let key := fun (k a : Nat) =>
    ({ freeEnt with kind := 3, addr := a, bytes := 64, tag := 0x55, keyKind := k, logN := 12, limbs := 1, special := 1 } : CatEnt)
  [{ cipher with tag := 0x55, ptMod := 4 }, freeEnt, { tensor with addr := 0x6000000, bytes := 128 }, key 0x10 0x7000000,
    key 0x11 0x7100000, key 0x12 0x7200000]
/-- Their bytes in a Catalogue at 0x1000000, and those of `lutBytes`, from 0x1000280 on. -/
def restoreCells : SMem Byte :=
  let ents : SMem Byte :=
    [(3, 4), (6, 16), (9, 128), (16, 12), (17, 1), (21, 2), (24, 4), (32, 85), (60, 111), (61, 48), (62, 230), (63, 64),
     (124, 49), (125, 5), (126, 11), (127, 90), (131, 6), (134, 64), (136, 128), (188, 115), (189, 38), (190, 49), (191,
     229), (195, 7), (198, 48), (200, 64), (208, 12), (209, 1), (210, 1), (224, 85), (236, 4), (252, 229), (253, 167), (254,
     110), (255, 86), (258, 16), (259, 7), (262, 48), (264, 64), (272, 12), (273, 1), (274, 1), (288, 85), (299, 64), (300,
     4), (316, 57), (317, 92), (318, 17), (319, 158), (322, 32), (323, 7), (326, 48), (328, 64), (336, 12), (337, 1), (338,
     1), (352, 85), (363, 128), (364, 4), (380, 172), (381, 38), (382, 125), (383, 195)]
  let lut : SMem Byte :=
    [(83885440, 84), (83885441, 76), (83885442, 90), (83885443, 75), (83885444, 1), (83885445, 1), (83885500, 37), (83885501,
     92), (83885502, 170), (83885503, 203)]
  (ents ++ lut).map (fun p => (0x1000280 + p.1, p.2))
/-- `up` with Restoration enabled, the cost table loaded, and those entries. -/
def restorable : State :=
  { up with
    rst := { up.rst with enabled := true, scratch := 0x100000000 }, cat := { up.cat with costLoaded := true },
    hbm := { up.hbm with mem := restoreCells } }

set_option maxRecDepth 100000 in
theorem test_restore_cells : restoreCells =
    restoreEnts.zipIdx.flatMap (fun x => placed (0x1000280 + 64 * x.2) (entBytes x.1)) ++ placed 0x6000000 lutBytes := by decide +kernel
/-- The Restoration of those entries. -/
def restoreReq : RestoreReq :=
  { input := 10, output := 11, keyR := 13, keyX := 14, keyP := 15, slotsLog := 12, outLimbs := 1, policy := 2, inBits := 1,
    outBits := 1, lut := List.replicate 64 0, lutIndex := some 12, autoIns := .none }
set_option maxRecDepth 100000 in
theorem witness_restore_read :
    docentRead 0x6000000 128 restorable = (hbmGet restorable 0x6000000 128, restorable) := by
  have h : rangePoisoned restorable 0x6000000 128 = false := by decide +kernel
  simp only [docentRead, h, Bool.false_eq_true, if_false]
  rfl
set_option maxRecDepth 100000 in
theorem restorable_input : catEnt restorable 10 = { restoreEnts.getD 0 freeEnt with crc := 1088827503 } := by decide +kernel
set_option maxRecDepth 100000 in
theorem restorable_lut : catEnt restorable 12 = { restoreEnts.getD 2 freeEnt with crc := 3845203571 } := by decide +kernel
set_option maxRecDepth 100000 in
theorem restorable_keyR : catEnt restorable 13 = { restoreEnts.getD 3 freeEnt with crc := 1450092517 } := by decide +kernel
set_option maxRecDepth 100000 in
theorem restorable_keyX : catEnt restorable 14 = { restoreEnts.getD 4 freeEnt with crc := 2651937849 } := by decide +kernel
set_option maxRecDepth 100000 in
theorem restorable_keyP : catEnt restorable 15 = { restoreEnts.getD 5 freeEnt with crc := 3279759020 } := by decide +kernel
set_option maxRecDepth 100000 in
theorem restorable_keys : descriptorsEqual restorable restoreReq = true := by decide +kernel
set_option maxRecDepth 100000 in
theorem restorable_on : restorationOn restorable = true ∧ catExists restorable = true ∧ restorable.cat.costLoaded = true ∧
    (List.range (numGal restorable)).any (fun g => bankBusy restorable g) = false := by decide +kernel
set_option maxRecDepth 100000 in
theorem restorable_check : restoreCheck restorable restoreReq = stOk := by
  obtain ⟨ho, hc, hl, hb⟩ := restorable_on
  have hk := restorable_keys
  have hn : (List.range (numGal restorable)).any (fun g => bankBusy restorable g &&
      !restorable.tours.any (fun t => some t.tourId == restoreReq.autoIns && t.mask.getLsbD g)) = false :=
    List.any_eq_false.mpr fun g hg => by simp [List.any_eq_false.mp hb g hg]
  simp only [restoreCheck, ho, hc, hl, hk, hn, show restoreReq.input = 10 from rfl, show restoreReq.keyR = 13 from rfl,
    show restoreReq.keyX = 14 from rfl, show restoreReq.keyP = 15 from rfl, show restoreReq.lutIndex = some 12 from rfl, List.map,
    Option.map, restorable_input, restorable_lut, restorable_keyR, restorable_keyX, restorable_keyP]
  decide +kernel
set_option maxRecDepth 100000 in
theorem witness_restore_check : (catEnt restorable 12).addr = 0x6000000 ∧
    readLut (hbmGet restorable 0x6000000 128) = some (1, 1, List.replicate 64 0) ∧ restoreCheck restorable restoreReq = stOk :=
  ⟨by rw [restorable_lut]; decide +kernel, by decide +kernel, restorable_check⟩
set_option maxRecDepth 100000 in
theorem witness_restore_bound : restoreBound restorable restoreReq = true := by decide +kernel
set_option maxRecDepth 100000 in
theorem witness_restore_submit : docentUp restorable = true ∧ restorable.power.emergency = false ∧ catExists restorable = true ∧
    (catEnt restorable 12).space = 0 ∧ (2 : BitVec 8).toNat ≤ 2 ∧ (∀ i ∈ ([10, 11, 12, 13, 14, 15] : List Word), i.toNat < 2 ^ 18) := by
  exact ⟨by decide +kernel, rfl, restorable_on.2.1, by rw [restorable_lut]; decide +kernel, by decide +kernel, by simp⟩

/-- The reads of those entries, keys and headers meet no line that counts. -/
theorem witness_restore_reads : readBound [10, 11, 12, 13, 14, 15] restorable = restorable := by
  have hr : ∀ (x : State) (e : CatEnt), x = restorable → (if e.kind = kindKey ∧
    e.space = 0 then noteRange 2 e.addr 2048 x else x) = restorable := by
    intro x e h; subst h; split <;> rfl
  have hs : readEnts [10, 11, 12, 13, 14, 15] restorable = restorable := rfl
  simp only [readBound, hs, List.foldl, hr]
theorem endAwaited_alone (s : State) (id : Quad) (t : Tour) (h : tourOf s id = some t) (hw : t.waitFor = []) : endAwaited id s = s := by
  simp [endAwaited, h, hw]
theorem stageFor_none (s : State) (id : Quad) (h : s.health.job = .none) : stageFor id s = s := by
  unfold stageFor; rw [h]; cases tourOf s id <;> rfl
/-- No checkpoint stages anything, and the Restoration that the tour waits for has faulted. -/
theorem witness_tour_start_staged : (withTour (image 31) idleTour).health.job = .none := rfl
theorem witness_tour_start_awaited : let t := { idleTour with state := .accepted, start := 1000, waitFor := [0x78] }
    let o := { idleTour with tourId := 0x78, state := .completed, status := some stKeyMismatch, endTick := 900 }
    awaitedFault { up with tours := [t, o] } t = some (stKeyMismatch, o.faultAt, 900) := by decide +kernel
theorem witness_tour_start : let t := { idleTour with state := .accepted, start := 1000 }
    let s := withTour (image 31) t
    endAwaited 0x77 s = s ∧ hubRuns s = true ∧ tourOf s 0x77 = some t ∧ t.status = .none ∧ t.start = s.time.now ∧
      s.power.emergency = false ∧ lostIsland s t = .none ∧ insertedRestore t = false ∧ t.mask.getLsbD 31 = true :=
  ⟨endAwaited_alone _ _ _ (withTour_tourOf _ _ rfl) rfl, by decide, withTour_tourOf _ _ rfl, rfl, rfl, rfl, by decide +kernel, rfl, rfl⟩
/-- Its Restoration ended it. -/
theorem witness_tour_start_ended : let t := { idleTour with state := .accepted, start := 1000, status := some stKeyMismatch }
    t.status ≠ .none := by decide +kernel
theorem witness_tour_start_emergency : let s : State := { up with power := { up.power with emergency := true } }
    hubRuns s = true ∧ s.power.emergency = true := by decide
theorem witness_tour_start_unlocked : let t := { idleTour with state := .accepted, start := 1000 }
    let s := withTour (image 31) t
    let s : State := { s with time := { s.time with islandLock := 0x7FF7FFFFFFF } }
    lostIsland s t = some 31 := by decide +kernel

theorem witness_slip_none : let t := { idleTour with state := .accepted, start := 1002 }
    let s := withTour (image 31) t
    tourAccepted t = true ∧ tourAlive s t = true ∧
      chargedNeed (((dueSteps s t (s.time.now + 2)).flatMap (fun d => stepNeeds s t d.1 d.2.1 d.2.2)).filter (fun n => !n.isReady)) =
        .none := by decide +kernel
theorem witness_slip : let t := { readTour with state := .running, start := 1000 }
    let s := withTour readerImage t
    tourAccepted t = true ∧ tourAlive s t = true ∧
      (chargedNeed (((dueSteps s t (s.time.now + 2)).flatMap (fun d => stepNeeds s t d.1 d.2.1 d.2.2)).filter
        (fun n => !n.isReady))).map (fun n => (n.owner, n.region, n.cause)) = some (31, 63, 0) := by decide +kernel

/-- The reader's step found ready two ticks ago. -/
def readyTour : Tour :=
  { readTour with state := .running, start := 998,
                  samples := [{ gallery := 31, step := 0, owner := 31, region := 63, first := 998, last := some 998, slack := some 0 }] }
theorem witness_launch : let s := withTour readerImage readyTour
    runningOn s 31 = some readyTour ∧ (nextStep s readyTour 31).map (·.1) = some 0 ∧ mayLaunch s readyTour 31 = true ∧
      readsPoisoned s (mkCtx s 31 (galImage s readyTour 31) (imgStep (galImage s readyTour 31) 0)) = false ∧ s.time.cycle = 0 :=
  ⟨rfl, by decide +kernel, by decide +kernel, by decide +kernel, rfl⟩
theorem witness_launch_poisoned : let s := modRgn (withTour readerImage readyTour) 31 63 (fun r => { r with poisoned := true })
    mayLaunch s readyTour 31 = true ∧ readsPoisoned s (mkCtx s 31 (galImage s readyTour 31) (imgStep (galImage s readyTour 31) 0)) = true ∧
      readyTour.status = .none ∧ tourOf s 0x77 = some readyTour :=
  ⟨by decide +kernel, by decide +kernel, rfl, rfl⟩

/-- A running tour whose step of 100 cycles was launched at a tick. -/
def inStep (t : Tour) (k : Nat) : State :=
  let r : RunStep :=
    { tourId := 0x77, index := 0, launched := k, duration := 100, base := k, stopped := .none, engine := .none, secret := false,
      sign := false, pipe := Pipe.empty }
  modGal (withTour readerImage t) 31 (fun x => { x with run := some r })
theorem inStep_tourOf (t : Tour) (k : Nat) (h : t.tourId = 0x77) : tourOf (inStep t k) 0x77 = some t := by
  have : (inStep t k).tours = [t] := rfl
  simp [tourOf, this, h]
/-- An image with one modulus entry, that of 05's worked product; and a step of every station, a modular one when `md`. -/
def entryRd : Rd := fun o _ =>
  if o = 0x22 then 1 else if o = 0x18 then 0x40 else if o = 0x40 then 3 + 2 ^ 8 + 0x48 * 2 ^ 32
  else if o = 0x48 then 0x7FFFC001 + 0x80003FFF * 2 ^ 32 + 0x1FFF0002 * 2 ^ 64 + 31 * 2 ^ 96 else 0
def allStations (md : Bool) (acc vec : Nat) : StepV :=
  { launch := 0, dur := 100, blocks := 0, rdMask := 0, wrMask := 0, relMask := 0,
    loop := some (0xFFFF * 2 ^ 96 + if md then 2 ^ 112 else 0), key := .none, intake := .none,
    xform := some (2 ^ 9 + 0xFFFF * 2 ^ 32), mul := some (3 * 2 ^ 4 + 3 * 2 ^ 8 + 0xFFFF * 2 ^ 32 + 0xFFFF * 2 ^ 48),
    acc := some (acc + 0xFFFF * 2 ^ 32), vec := some vec,
    out := some (31 * 2 ^ 8 + 63 * 2 ^ 13 + 255 * 2 ^ 19 + 15 * 2 ^ 27), engine := .none, offset := 0 }
def stepOn (md : Bool) (acc vec : Nat) : Exe :=
  { c := { g := 31, per := 16, rd := entryRd, st := allStations md acc vec, native := !false, counts := [1, 1, 1, 1, 1, 1], longs := [],
           rgn := rgnOf (withRgn false true) },
    tour := idleTour, index := 0, launch := 1000, base := 1000, tw := fun _ => 1, secret := false, watch := false, sign := false }
def stepSim : Sim := { toPipe := Pipe.empty, s := withRgn false true }
def setOf (a b : Nat) : Flight :=
  { k := 0, enter := 10, ws := List.replicate 256 a, b := List.replicate 256 b, valid := List.replicate 256 true, fp := false }
theorem witness_tick_steps : let s := inStep readyTour 1000
    s.pending = [] ∧ s.held = [] ∧ timeRuns s = true ∧ s.time.cycle < 100 ∧ (lanesOfTick (countWaits s)).length = 1 := by decide +kernel
theorem witness_alone : let m : Sim := { stepSim with fly := [setOf 3 5], nA := 1, nB := 1 }
    m.dels = [] ∧ m.wbacks = [] ∧ cxK (stepOn true 0 1).c ≤ m.nA := by decide +kernel
theorem witness_stations : let e := stepOn true 0 1
    let x := cxEntry e.c 0
    (setOf 3 5).ws.length = 256 ∧ injectHit e stepSim 0 = .none ∧ injectHit e stepSim 1 = .none ∧ injectHit e stepSim 2 = .none ∧
      injectHit e stepSim 3 = .none ∧ 2 ^ 29 < x.q ∧ x.q < 2 ^ 31 ∧ 2 ^ (x.k - 1) ≤ x.q ∧ x.q < 2 ^ x.k ∧ x.mu = 2 ^ (2 * x.k) / x.q ∧
      x.fold = 2 ^ 63 % x.q ∧ (∀ w ∈ (setOf 0x7FFFC000 0).ws, w < x.q) ∧ (cxBlk e.c 0 slX).isSome = true ∧
      (cxBlk e.c 0 slM).isSome = true ∧ cxModular e.c = true ∧ cxModular (stepOn false 0 1).c = false ∧ pairScaled 3 3 = false ∧
      otherView (galX e stepSim).work true 0 = false ∧ otherView (galX e stepSim).work false 0 = false ∧
      accFlag 1 = true ∧ accFlag 0 = false ∧ accWrap 3 = true ∧ accWrap 1 = false ∧ vecOp 1 = 1 ∧ vecOp (2 + 2 ^ 11) = 2 ∧
      vecY (2 + 2 ^ 11) = 1 ∧ vecTranspose 1 = false ∧ laneValid e.c 0 1 255 = true := by decide +kernel
theorem witness_outlet : let b := 31 * 2 ^ 8 + 63 * 2 ^ 13 + 255 * 2 ^ 19 + 15 * 2 ^ 27
    storesCab b = true ∧ outNarrows b = false ∧ outLanes b = 255 ∧ cxStoreAddr (stepOn true 0 1).c 0 b 255 = some 255 := by decide +kernel
/-- 05 R103: the greatest residue times itself is 1. -/
theorem test_red : ((advance (stepOn true 0 1) 24 (setOf 0x7FFFC000 0x7FFFC000) stepSim).1.map (fun f => f.ws.getD 255 0)) = some 1 := by
  decide +kernel
/-- 05 R105: 2^61 is added to a row of zeros. -/
theorem test_accumulate : ((advance (stepOn true 1 1) 34 (setOf (2 ^ 61) 0) stepSim).1.map (fun f => f.ws.getD 255 0)) = some (2 ^ 61) := by
  decide +kernel
/-- 09 R193: MRED of 2^63. -/
theorem test_mred : ((advance (stepOn true 1 1) 36 (setOf (2 ^ 63) 0) stepSim).1.map (fun f => f.ws.getD 255 0)) = some 0x1FFF0002 := by
  decide +kernel
/-- 03 R60: own cabinets, landing 3 cyc after the set enters Outlet. -/
theorem test_outlet : (advance (stepOn true 1 1) 40 (setOf 7 0) stepSim).2.lands.map (fun d => (d.cycle, d.words.getD 255 (0, 0))) =
    [(43, (255, 7))] := by decide +kernel
theorem test_land : cabWord (doLand (stepOn true 0 1)
    { cycle := 43, dest := .cab 31 false, words := [(255, 7), (3, 8)], pads := [], k := 0, last := false, sig := .none } stepSim).s 31 255 = 7 := by
  decide +kernel
/-- A write-back to tile register 0, with lane 255 invalid. -/
theorem witness_write_back : let w : WBack :=
      { cycle := 50, k := 0, b := 2 ^ 24 + 0xFFFF * 2 ^ 176, ws := List.replicate 256 9, valid := List.replicate 255 true ++ [false], taps := [], q := 0 }
    vecRacc w.b = false ∧ vecWb w.b = 1 ∧ w.valid.length = 256 ∧ w.valid.getD 255 false = false := by decide +kernel
theorem witness_landing : (stepSim.s.useLog = []) ∧ ([(255, 7), (3, 8)] : List (Nat × Nat)).map (·.1) = [255, 3] := ⟨rfl, rfl⟩
theorem witness_step_end : let s := inStep { readyTour with next := vset readyTour.next 31 1, endTick := 1000 } 999
    (galOf s 31).run.isSome = true ∧ stepDone s 31 s.time.now = true ∧
      bitAt (imgStep (fetchedImage s 31) 0).relMask 63 = true := by decide +kernel
theorem witness_overrun : let t := { readyTour with start := 900, budget := 100 }
    let s := inStep t 1000
    tourOf s 0x77 = some t ∧ t.status = .none ∧ tourBase t + t.budget ≤ s.time.now ∧
      (∀ k < 31, t.mask.getLsbD k = false) ∧
      ((galOf s 31).run.map (fun r => decide (r.tourId = 0x77 ∧ s.time.now < runEnds r))) = some true :=
  ⟨inStep_tourOf _ _ rfl, rfl, by decide +kernel, by decide +kernel, by decide +kernel⟩
theorem witness_hold : let t := { readyTour with hold := 5, slips := #v[3, 1, 1, 1] }
    tourAccepted t = true ∧ (if t.hold = 0 then 2 ^ 24 else t.hold) < slipOf t := by decide +kernel
theorem witness_hold_poisons : let s := withTour (imageWith (2 ^ 191)) readyTour
    readyTour.halted = false ∧ maskList readyTour.mask = [31] ∧ (galOf s 31).run = .none ∧
      writesFrom s readyTour 31 (vget readyTour.next 31 0) = [(31, 63)] ∧ (rgnOf s 31 63).valid = true := by decide +kernel
theorem witness_idle_tours : ({ up with tours := [{ readyTour with status := some stKeyMismatch, stopAt := 1002 }] } : State).tours.all
    (fun x => tourAccepted x && decide (x.status = .none ∨ x.halted = true ∨ 1001 < x.stopAt)) = true := by decide +kernel
theorem test_tick_halts :
    (match step (withTour (imageWith (2 ^ 191)) { readyTour with status := some stDeadlineMissed, stopAt := 1001 }) with
     | .next u => (u.tours.map (·.halted), (rgnOf u 31 63).poisonCode) | _ => ([], 0)) = ([true], stDeadlineMissed) := by decide +kernel
theorem witness_hold_zero : let t := { readyTour with slips := #v[0, 0, 0, 16777217] }
    t.hold = 0 ∧ (if t.hold = 0 then 2 ^ 24 else t.hold) < slipOf t := by decide +kernel
theorem witness_island : let s := withTour readerImage readyTour
    s.time.islandLock.getLsbD 42 = true ∧ s.time.islandLock.getLsbD 31 = true ∧ tourOver s readyTour = false ∧
      usesIsland s readyTour 31 = true ∧ usesIsland s readyTour 42 = true := by decide +kernel
theorem witness_island_accepted : let t := { readyTour with state := .accepted }
    let s := withTour readerImage t
    s.time.islandLock.getLsbD 42 = true ∧ usesIsland s t 42 = true ∧ t.status = .none := by decide +kernel
/-- A write from the other die on its way into gallery 0. -/
theorem witness_in_flight : dieOf up 0 = 0 ∧ stackDie (stackOf 618475290560) ≠ 0 := by decide +kernel
theorem witness_late : ((galOf (inStep readyTour 1000) 31).run.map (fun r => decide (r.stopped = .none))) = some true := by
  decide +kernel
theorem witness_bridge : up.bridge.dir10Up = true ∧ up.bridge.dir01Up = true ∧
    4 ≤ (recentLosses 1000 [1000, 999, 998, 1]).length ∧ (galOf up 31).regs.clockOn = true ∧ 31 < numGal up := by decide
theorem witness_bridge_done : ({ up with bridge := { up.bridge with retraining := true } } : State).bridge.retraining = true := rfl
theorem witness_tour_end : let t := { idleTour with state := .running, start := 999, next := vset idleTour.next 31 1, endTick := 1000 }
    let s := withTour (image 31) t
    s.fab.lockstep.enabled = false ∧ t.hdr.src = .qp 3 ∧
      tourEnded ((maskList t.mask).foldl (fun x g => settleStep g x) s) t = true := by decide +kernel

/-! ### Witnesses: the DMA engine and the hub port -/

/-- A descriptor of 100 bytes in bursts of 64: from host byte 0x5000 on, to byte `a` of an endpoint. -/
def descTo (kind : Byte) (a len : Nat) (aux : Nat) : List Byte :=
  [1, 1, 0, 6] ++ leBytes 4 0x11 ++ [0, kind, 0, 0] ++ leBytes 4 len ++ leBytes 8 0x5000 ++ leBytes 8 a ++ leBytes 4 0 ++
    leBytes 4 aux ++ List.replicate 24 0
/-- `up` with the descriptor at HEAD of channel 55, whose ring is at 0x40000 of host memory. -/
def ringed (bs : List Byte) : State :=
  let u : State := { withRgn false true with hostMem := placed 0x5000 (List.replicate 100 0xAB) ++ placed 0x40000 bs }
  modChan u 55 (fun c => { c with ringAddr := 0x1000, cqAddr := 0x2000, enable := true, tail := 1 })
theorem witness_channel : hubRuns up = true ∧ (55 : BitVec 6).toNat < 56 ∧ (0 : Word).getLsbD 2 = false ∧ (4 : Word).getLsbD 2 = true ∧
    (chanOf up 55).enable = false ∧ (chanOf (ringed []) 55).enable = true ∧ (1 : BitVec 8) ≠ 0 ∧
      (0x3F : BitVec 8).toNat < 0x20 + numGal up := by
  decide
theorem witness_fetch : let s := ringed (descTo 0 0x6000 100 0)
    mayFetch s 55 = true ∧ descCheck s 55 (descBytes s 55).1 = stOk ∧ (chanOf s 55).cqLoc = false := by decide +kernel
theorem witness_fetch_reduce :
    let bs := [2, 0, 0, 6] ++ leBytes 4 0x11 ++ [0, 1, 0, 1] ++ leBytes 4 64 ++ leBytes 8 0x5000 ++ List.replicate 40 0
    let s := modStk (ringed bs) 0 (fun st => { st with ranges := vset st.ranges 15 (some openRange) })
    (descOf (descBytes s 55).1).reduce = true ∧ mayFetch s 55 = true ∧ descCheck s 55 (descBytes s 55).1 = stOk := by decide +kernel
theorem witness_fetch_refused : let s := ringed (descTo 0 0x6000 0 0)
    mayFetch s 55 = true ∧ descCheck s 55 (descBytes s 55).1 ≠ stOk := by decide +kernel
/-- `ringed` with that descriptor in progress, some bytes written. -/
def copying (kind : Byte) (a len aux w : Nat) (ended : Bool) : State :=
  let p : Progress :=
    { desc := descOf (descTo kind a len aux), index := 0, written := w, waits := 0, lastWait := .none, status := stOk, ended := ended,
      vread := .none, serial := 0, held := false, aborted := false }
  modChan (ringed []) 55 (fun c => { c with cur := some p })
/-- To host memory, from the middle of a burst. -/
theorem witness_burst_host : let s := copying 0 0x6020 100 0 0 false
    s.dma.stopped = false ∧ ((chanOf s 55).cur.map (fun p => decide (p.ended = false ∧ p.aborted = false ∧ p.written < p.desc.length ∧
      p.desc.src = .host ∧
      p.desc.dst = .host ∧ p.desc.reqLine = 0 ∧ p.desc.credit = false ∧ burstWaits s (chanOf s 55) p = false))) = some true := by
  decide +kernel
/-- To the last bytes of a cabinet region of 8 rows. -/
theorem witness_burst_cabinet : let s := copying 2 8092 100 (31 + 63 * 2 ^ 8) 0 false
    ((chanOf s 55).cur.map (fun p => decide (p.desc.dst = .cabinet ∧ burstWaits s (chanOf s 55) p = false ∧ burstRefusal s p = stOk ∧
      anyStep s = false ∧ filling s = false ∧
      (galOf s (auxGal p.desc.dstAux)).regs.clockOn = true ∧ (min (2 ^ 6 - 8092 % 2 ^ 6) 100) % 4 = 0))) = some true := by
  decide +kernel
/-- The region has been released since. -/
theorem witness_burst_refused : let s := setRgn (copying 2 0 100 (31 + 63 * 2 ^ 8) 0 false) 31 63 Region.none
    ((chanOf s 55).cur.map (fun p => decide (burstWaits s (chanOf s 55) p = false ∧ burstRefusal s p ≠ stOk))) = some true := by
  decide +kernel
/-- A step of some gallery uses the bank's write port in every cycle of the tick. -/
theorem witness_port_busy : let u : PortUse :=
      { owner := 31, isWrite := true, cycle := 100099, requester := 30, gallery := 30, step := 0, unit := 0,
        words := [{ pa := 0, val := 1, old := 0, first := true }], launched := 1000, dropped := [] }
    portBusy { up with useLog := [u] } 31 100099 true false [0] = true := by decide +kernel
/-- The last cycle of the tick, with the port of a bank in use: no turn is left. -/
theorem witness_no_turn : ∀ w : Bool, let u : PortUse :=
      { owner := 31, isWrite := w, cycle := 100099, requester := 30, gallery := 30, step := 0, unit := 0,
        words := [{ pa := 0, val := 1, old := 0, first := true }], launched := 1000, dropped := [] }
    let s := modTime { inStep readyTour 1000 with useLog := [u] } (fun t => { t with cycle := 100 })
    anyStep s = true ∧ (hubTurn 31 w false [0] s).1 = false ∧ (galOf s 31).regs.clockOn = true := by decide +kernel
theorem witness_burst_waits : let s := modRgn (copying 2 0 100 (31 + 63 * 2 ^ 8) 0 false) 31 63 (fun r => { r with ready := true })
    ((chanOf s 55).cur.map (fun p => burstWaits s (chanOf s 55) p)) = some true := by decide +kernel
theorem witness_completion : let s := copying 2 0 100 (31 + 63 * 2 ^ 8) 100 true
    ((chanOf s 55).cur.map (fun p => decide (p.ended = true ∧ p.status = stOk ∧ p.written = p.desc.length ∧ p.desc.dst = .cabinet ∧
      p.desc.reduce = false ∧ p.desc.setReady = true ∧ (cabRgn s p.desc.dstAux).valid = true))) = some true := by decide +kernel
theorem witness_completion_aborted : let s := modChan (copying 0 0x6000 100 0 64 false) 55 (fun c =>
      { c with cur := c.cur.map (fun p => { p with aborted := true }) })
    ((chanOf s 55).cur.map (fun p => decide (p.aborted = true ∧ p.ended = false ∧ (chanOf s 55).cqLoc = false))) = some true := by
  decide +kernel
theorem witness_completion_host : let s := copying 0 0x6000 100 0 100 true
    ((chanOf s 55).cur.map (fun p => decide (p.desc.dst ≠ .vault ∧ p.desc.dst ≠ .cabinet))) = some true := by decide +kernel
theorem witness_engine_stop : hubRuns up = true ∧ up.dma.errValid = false := by decide
/-- The engine's vector 5 is enabled, with its mask set and clear. -/
theorem witness_engine_vector : let s := modHost up (fun h => { h with msixEnable := true, irq := { h.irq with engineEn := true, engineVec := 5 } })
    s.host.irq.engineEn = true ∧ s.host.msixEnable = true ∧ vectorMasked s 5 = true ∧
      vectorMasked (modHost s (fun h => { h with msixTable := [(23, 1)] })) 5 = false := by decide +kernel
theorem witness_hub_port : (31 : BitVec 5).toNat < numGal up ∧ (galOf up 31).regs.clockOn = true ∧ anyStep up = false ∧
    ((rgnAt (withRgn true true) 31 0).map (rgnOf (withRgn true true) 31)).any (·.isSealed) = true ∧
    ((rgnAt (withRgn false true) 31 2047).map (rgnOf (withRgn false true) 31)).any (fun r => r.feed != 0 && !r.isSealed && !r.ready) = true ∧
    rgnAt (withRgn false true) 31 2048 = .none := by decide +kernel

/-! ### Witnesses: the Vault -/

/-- `up` with the Vault open, extent 1,048,575 in slot 1,310,719. -/
def vaulted (st : ExtState) : State :=
  let e : MapEntry := { seq := 1, isSealed := false, state := st, slot := 1310719 }
  { up with vault := { up.vault with isOpen := true, patrolEn := true, map := [(1048575, e)] } }
theorem witness_vault : let s := vaulted .written
    docentUp s = true ∧ vaultNamed s = false ∧ s.vault.isOpen = true ∧ s.vault.readOnly = false ∧ 1048512 + 64 ≤ 1048576 ∧
      618475290112 + 8 * 64 ≤ 618475290624 ∧ hbmUsable s 618475290112 512 = true ∧ s.hbm.dead = [] ∧ s.hbm.weak = [] ∧
      anyLive s = false ∧ (∀ k < 64, (chanOf s k).cur = .none) ∧ s.health.stage = .idle ∧ (144 : BitVec 8).toNat ≤ 144 := by decide
theorem witness_commit : let w : ExtWrite := { extent := 1048575, slot := 7, isSealed := true, channel := 55 }
    let u := copying 3 8796084633600 8388608 0 8388608 false
    let s : State := { u with vault := { u.vault with isOpen := true, inFlight := [w] } }
    nextCommit s 1048575 = some w ∧ staleSlots s 1048575 = [] := by
  decide +kernel
theorem witness_program_fail : let w : ExtWrite := { extent := 5, slot := 7, isSealed := false, channel := 55 }
    ([w] : List ExtWrite).find? (fun w => w.extent == 5) = some w := by decide
theorem witness_patrol : let s := vaulted .written
    s.vault.patrolEn = true ∧ (mapOf s 1048575).state = .written ∧ (mapOf s 1048575).slot = 1310719 ∧ (mapOf s 1048575).slot ≠ 0 ∧
      (mapOf s 1048575).isSealed = false ∧ s.vault.passLeft = [] ∧ (mapOf (vaulted .damaged) 1048575).state = .damaged ∧
      (mapOf (vaulted .conflict) 1048575).state = .conflict := by decide

/-- A sealed slot is being read, so neither a commit nor a relocation of its extent takes place yet. -/
theorem witness_read_holds : let u := copying 0 0 64 0 0 false
    let e : MapEntry := { seq := 1, isSealed := true, state := .written, slot := 1310719 }
    let s : State := { u with vault := { u.vault with map := [(1048575, e)] } }
    let s := modChan s 55 (fun c => { c with cur := c.cur.map (fun p => { p with
      desc := { p.desc with src := .vault, srcAddr := 1048575 * 8388608 }, vread := some { extent := 1048575, slot := 1310719, lost := false, data := [], bad := [] } }) })
    readHolds s 1048575 = true := by decide +kernel
/-- The erase counts of two stripes differ by 201. -/
theorem witness_wear : 200 < wearSpread { up.vault.medium with erases := [(3, 201)] } := by decide +kernel

/-! ### Witnesses: fabric, links, packets -/

/-- `up` with a route to module 9 by port 7 and that port up; loan window 63 of 64 bytes from the last line of HBM, for module 9. -/
def linked : State :=
  let r : Route := { valid := true, minimal := 0, dport := 7 }
  let u : State := { up with fab := { up.fab with routes := [(9, r)] } }
  let u := modPort u 7 (fun p => { p with up := true, lanes := 2, keyed := true, enabled := true, credits := 64 })
  modWin u 63 (fun w => { w with isOpen := true, remote := 9, access := 3, addr := 618475290560, length := 64 })
/-- Its party group in slot 3 with a registered region. -/
def grouped : State :=
  let u := modRgn (withRgn false true) 31 63 (fun r => { r with feed := 3 })
  modGroup u 3 (fun _ =>
    { Group.empty with groupId := 0xAB, formed := true, parties := 3, self := 2, expectSeq := [4, 0, 0], regions := [(31, 63)] })
theorem witness_fabric : let s := linked
    docentUp s = true ∧ (16383 : BitVec 16).toNat < 2 ^ 14 ∧ anyAccepted s = false ∧ (winOf s 63).isOpen = true ∧
      windowCheck 0 0x03 9 1 0 0 618475290560 64 peer s = stOk ∧ s.sec.debug = false ∧ (groupOf s 3).formed = false ∧
      lockstepCheck 16383 0 peer s = stOk ∧ (2 : BitVec 8).toNat < (3 : BitVec 8).toNat ∧
      (∀ i < 3, fieldAt (0x3FFF00010000 : BitVec 48).toNat (16 * i) 16 < 2 ^ 14) := by decide +kernel
theorem witness_lockstep_on : let s : State := { linked with time := { linked.time with aligned := true } }
    lockstepCheck 9 1 peer s = stOk := by decide +kernel
theorem witness_group : let s := grouped
    (groupOf s 3).formed = true ∧ declared s 31 63 = true ∧ (rgnOf s 31 63).isSealed = false ∧ (rgnOf s 31 63).feed = 3 ∧
      regionNamed s 31 63 = false ∧ (∀ k < 4, k ≠ 3 → (31, 63) ∉ (groupOf s k).regions) := by decide +kernel
/-- What the neighbour offers: the base point, with a chain that verifies. -/
def offer : KeyOffer :=
  { key := keyBytesOf p521G, signature := [], chainOk := true }
theorem witness_offer : (offer.chainOk && offeredKeyOk offer) = true ∧
    (({ offer with key := [] } : KeyOffer).chainOk && offeredKeyOk { offer with key := [] }) = false := by decide +kernel
theorem witness_frames : let s := modPort linked 7 (fun p => { p with tagFails := List.replicate 15 999 })
    (portOf s 7).up = true ∧ (portOf s 7).frameRx + 1 < 2 ^ 32 ∧ 15 ≤ (recentTags s.time.now (portOf s 7).tagFails).length ∧
      (recentTags linked.time.now (portOf linked 7).tagFails).length < 15 := by decide +kernel
theorem witness_announce : (linked.fab.announced.filter (fun x => !(x.owner == 9 && x.window == 63))).length < 1024 := by decide
theorem witness_time_message : let s : State := { linked with time := { up.time with joined := true, domain := 5 } }
    anyPortUp s = true ∧ s.time.joined = true ∧ s.time.isRoot = false ∧ s.time.domain = 5 ∧ anyAccepted s = false := by decide
theorem witness_holdover : let s : State := { up with time := { up.time with joined := true, disciplined := true, now := 1024 } }
    s.time.disciplined = true ∧ s.time.isRoot = false ∧ s.time.holdover = false ∧ s.time.lastMessage + 1024 ≤ s.time.now := by decide

/-- A packet from module 9 to window 63. -/
def pkt (k : PacketKind) (e : BitVec 8) (dst : BitVec 14) (hops : Nat) : Packet :=
  { dst := dst, src := 9, epoch := e, hops := hops, window := 63, offset := 0, kind := k }
theorem witness_packet : let s := linked
    anyPortUp s = true ∧ s.held = [] ∧ (packetSlots s (winOf s 63) (pkt (.read 64) 0 0 63)).isSome = true ∧
      packetFits (winOf s 63) (pkt (.read 64) 0 0 63) = true ∧ packetFits (winOf s 63) (pkt (.read 65) 0 0 63) = false ∧
      packetFits (winOf s 63) (pkt (.write (List.replicate 64 7) 0 64 false) 0 0 63) = true ∧ (winOf s 63).epoch = 0 ∧
      (1 : BitVec 8) ≠ (winOf s 63).epoch ∧ (winOf s 63).cabinet = false ∧ (winOf s 63).reduce = false ∧
        s.fab.module = 0 := by decide +kernel
/-- The stack has no slot left for it. -/
theorem witness_packet_waits : (packetSlots { linked with hbm := jammed.hbm } (winOf linked 63) (pkt (.read 64) 0 0 63)).isNone = true := by
  decide +kernel
/-- A write to a region that is READY is held. -/
theorem witness_packet_held : let s := modWin (modRgn (withRgn false true) 31 63 (fun r => { r with ready := true })) 63 (fun w =>
      { w with isOpen := true, remote := 9, access := 3, cabinet := true, gallery := 31, region := 63, length := 64 })
    let p := pkt (.write (List.replicate 64 7) 0 64 false) 0 0 0
    packetFits (winOf s 63) p = true ∧ packetRefusal s (winOf s 63) p = stOk ∧ packetHeld s (winOf s 63) p.kind = true := by
  decide +kernel
theorem witness_forward : let s := linked
    (9 : BitVec 14) ≠ s.fab.module ∧ (routeOf s 9).valid = true ∧ adaptiveOn s = false ∧ portCarries s (routeOf s 9).dport.toNat = true ∧
      (routeOf s 8).valid = false ∧ bestPort s 0x80 = some 7 := by decide +kernel
/-- An opening message from party 0 with the expected number, of one word set up to the end of its region. -/
def opening (seq : Nat) : Opening :=
  { groupId := 0xAB, sender := 0, seq := seq, tourId := 0, gallery := 31, region := 63, offset := 7168,
    data := [List.replicate 256 7], tagOk := true }
theorem witness_opening : let s := grouped
    (List.range 4).find? (fun i => (groupOf s i).formed && (groupOf s i).groupId == (opening 4).groupId) = some 3 ∧
      openingPasses s 3 (opening 4) = true ∧ hubCanWrite s 31 63 = true ∧ anyStep s = false ∧ filling s = false ∧ s.held = [] ∧
        openingPasses s 3 (opening 5) = false ∧
      (rgnOf s 31 63).valid = true ∧ anyPortUp (modPort s 7 (fun p => { p with up := true })) = true ∧
      hubCanWrite (modRgn s 31 63 (fun r => { r with ready := true })) 31 63 = false := by decide +kernel

/-- A tour in lock-step, its first window passed, with nothing signed. -/
def lockTour : Tour := { idleTour with state := .running, start := 700, next := vset idleTour.next 31 1, endTick := 701 }
def locked (t : Tour) : State :=
  let s := withTour (image 31) t
  { s with fab := { s.fab with lockstep := { s.fab.lockstep with enabled := true, partner := 9 } } }
theorem witness_lockstep : let s := locked { lockTour with endTick := 5000 }
    s.fab.lockstep.enabled = true ∧ lockTour.restore = .none ∧ (∀ g < 32, lockTour.mask.getLsbD g = true → (galOf s g).run = .none) ∧
      settleStep 31 s = s ∧ windowPassed s { lockTour with endTick := 5000 } 0 = true ∧
      summariesDiffer s { lockTour with endTick := 5000 } 0 [] = false ∧
      summariesDiffer s { lockTour with endTick := 5000 } 0 [(256 * 31, List.replicate 7 1)] = true := by decide +kernel
theorem witness_lockstep_end : let t := { lockTour with compared := 1 }
    tourEnded (locked t) t = true ∧ tourWindows t ≤ t.compared := by decide +kernel
theorem witness_partner_lost : let s : State := { locked lockTour with time := { up.time with now := 4797 } }
    s.tours.any (summaryMissing s) = true := by decide +kernel

/-! ### Witnesses: checkpoints, restores, fences, risk -/

/-- An image's directory with nothing in it. -/
def noImage : ImageMeta :=
  { sections := [], qps := Vector.replicate 64 Qp.reset, tours := [], counters := [], domain := 0, root := 0, joined := false, module := 0,
    routes := [], windows := Vector.replicate 64 LoanWindow.closed, groups := Vector.replicate 4 Group.empty }
/-- A checkpoint in progress. -/
def ckpt (st : CkptStage) (todo : List CkptSection) (target : BitVec 8) : State :=
  let s := vaulted .written
  let j : CkptJob :=
    { hdr := some qh, kind := 0, scope := 8, target := target, window := 0, first := 0, before := [], base := 0, todo := todo, image := some noImage }
  { s with health := { s.health with stage := st, cut := 1000, job := some j } }
theorem witness_ckpt_take : let s := vaulted .written
    ckptCheck 2 8 0 0 0 false s = stOk ∧ docentUp s = true := by decide +kernel
theorem witness_ckpt_stages : let x : CkptSection := { item := .catalogue, offset := 0, length := 64, addr := 0x1000000, rgn := Region.none }
    (ckpt .waitingCut [] 0).health.cut ≤ (ckpt .waitingCut [] 0).time.now ∧ (ckpt .staging [] 0).health.stage = .staging ∧
      writerPending (ckpt .staging [x] 0) .catalogue = false ∧ (∀ g r, x.item ≠ .region g r) ∧ (ckpt .staging [x] 0).hbm.dead = [] :=
  ⟨by decide, rfl, by decide, (by intro _ _ h; cases h), rfl⟩
theorem witness_ckpt_drain : let s := ckpt .draining [] 0
    s.health.stage = .draining ∧ vaultOpenNow s = true ∧ (ckpt .draining [] 1).health.job.map (·.target) = some 1 ∧
      s.vault.readOnly = false ∧ 32960 ≤ s.vault.medium.goodStripes ∧
      s.vault.medium.bytesWritten + 8388608 * imageExtents noImage.sections < 44 * 10 ^ 15 := by decide
/-- The header extent of a portable image without data extents, in slot 0 as extent 0. -/
def imaged : State :=
  let head := leBytes 4 0x4B5A434B ++ (leBytes 2 1 ++ [1, 8] ++ List.replicate 16 0) ++ leBytes 8 0x1000000 ++ leBytes 4 1 ++ leBytes 4 0 ++
    leBytes 4 (crc32c []) ++ List.replicate 16 0
  let s := vaulted .written
  let e : MapEntry := { seq := 1, isSealed := false, state := .written, slot := 0 }
  let m : Medium := { s.vault.medium with data := placed 0 (head ++ leBytes 4 (crc32c head)) }
  { s with vault := { s.vault with map := (0, e) :: s.vault.map, medium := m } }
theorem witness_ckpt_restore : restoreImageCheck 0 { imaged with cat := Catalogue.reset } = stOk := by decide +kernel
theorem witness_fence : (255 : BitVec 8) ≠ up.health.epoch ∧ outstanding up 255 = 0 ∧
    (working (.migrateFence 255 2000)).host.longWork[0]?.map (·.kind) = some (.migrateFence 255 2000) := by decide
theorem witness_risk : hubRuns up = true := by decide

/-! ### Witnesses: security -/

theorem witness_boot : State.reset.power.state = .boot ∧ State.reset.power.perst = false := by decide
theorem witness_firmware_write : docentUp up = true ∧ (1 : BitVec 8).toNat ≤ 1 ∧ 512 ≤ (0xFF0000 : Word).toNat ∧
      (0xFF0000 : Word).toNat ≤ 0xFF0000 ∧
    (1 : Nat) ≠ bit01 up.sec.slotB ∧ firmwareRunning up = false := by decide
theorem witness_debug : up.sec.debug = false ∧ dbg.sec.debug = true ∧ anyLive dbg = false ∧ up.host.busMaster = true ∧
    (sealedDeclared up = false ∧ groupFormed up = false) := by decide
/-- A request block of L bits at 0x3000 with operands 3, 5, 7; and one for P-521: d = 1 with the base point. -/
theorem witness_modular : let s := hostPut up 0x3000 (leBytes 2 4096)
    (0x3000 : Quad).toNat % 4096 = 0 ∧ bytesAt (hostGet s 0x3000 4096) 0 2 = 4096 ∧ 4096 % 64 = 0 := by decide +kernel
theorem witness_p521 : bytesAt (hostGet (hostPut up 0x3000 (leBytes 2 521)) 0x3000 4096) 0 2 = 521 ∧ scalarOk 1 = true ∧
    scalarOk (p521N - 1) = true ∧ scalarOk p521N = false ∧ onCurve p521Gx p521Gy = true ∧ onCurve p521Gx 0 = false := by decide +kernel
theorem witness_attestation : docentUp up = true ∧ (254 : BitVec 8) ≠ 0 ∧ (254 : BitVec 8) ≠ 0xFF ∧ (sessionOf up 0).inUse = false ∧
    up.host.link.up = true := by decide
theorem witness_session : let s := (modSession 2 (fun x => { x with inUse := true }) (modSession 1 (fun x => { x with inUse := true })
      (modSession 0 (fun x => { x with inUse := true }) up)))
    (sessionOf s 3).inUse = false ∧ (∀ j < 3, (sessionOf s j).inUse = true) := by decide

/-! ### Witnesses: power, queue pairs, registers -/

theorem witness_latched : ({ up with power := { up.power with state := .latchedOff } } : State).power.state = .latchedOff ∧
    up.power.state ≠ .latchedOff := by decide
theorem witness_power : let s : State := { State.reset with power := { Power.reset with state := .off, senseClosed := true } }
    s.power.state = .off ∧ s.power.senseClosed = true ∧ ([0, 9] : List Nat).length < 3 ∧ 3 ≤ ([0, 1, 9] : List Nat).length ∧
      up.host.link.up = true := by decide
theorem witness_emergency : let s := withTour readerImage readyTour
    hubRuns s = true ∧ readyTour.state = .running ∧ readyTour.status = .none ∧ tourOver s readyTour = false := by decide +kernel
theorem witness_qp : qpIdle (qpOf up 63) = true ∧ qpIdle (qpOf (modQp up 63 (fun Q => { Q with tours := 1 })) 63) = false ∧
    (qpOf up 63).enable = false := by decide
/-- `up` with a packet waiting in queue pair 63: its opcode, and zeros. -/
def queued (op : BitVec 16) : State :=
  modQp (hostPut up 0x8000 (leBytes 2 op.toNat)) 63 (fun Q => { Q with sqAddr := 0x200, rqAddr := 0x300, enable := true, sqTail := 1 })
theorem witness_take : qpServed (queued 0x0100) 63 = true ∧
    (packetHdr (.qp 63) (qpPacket (queued 0x0100) 63).1).fence = false ∧
    (match readPacket (.qp 63) (qpPacket (queued 0x0100) 63).1 peer with | .run _ => true | .refuse _ => false) = true ∧
    (match readPacket (.qp 63) (qpPacket (queued 0x00FF) 63).1 peer with | .run _ => false | .refuse _ => true) = true := by decide +kernel
theorem witness_mbox : (1 : Word).getLsbD 0 = true ∧ up.host.mbox.busy = false ∧ up.power.perst = false ∧
    (match readPacket .mbox (leBytes 64 0x0100) peer with | .run _ => true | .refuse _ => false) = true ∧
    (match readPacket .mbox (leBytes 64 0x0302) peer with | .run _ => false | .refuse _ => true) = true := by decide +kernel
/-- A configuration read in BOOT, before the Docent has started. -/
theorem witness_config_read : hubRuns State.reset = true ∧ firmwareRuns State.reset = false ∧ cfgBase ≤ 2 ^ 32 := by decide
theorem witness_registers : hubRuns up = true ∧ (31 : BitVec 5).toNat < numGal up ∧ up.host.latches = [] ∧ up.time.now < 2 ^ 64 ∧
    ({ up with time := { up.time with pendingLow := some 7 } } : State).time.pendingLow = some 7 := by decide
theorem witness_debug_window : let s := withRgn false true
    let s : State := { s with sec := { s.sec with debug := true }, host := { s.host with dbgGallery := 31 } }
    hubRuns s = true ∧ up.sec.debug = false ∧ rgnAt s 31 2047 = some 63 ∧ (rgnOf s 31 63).feed ≠ 0 ∧ (rgnOf s 31 63).isSealed = false ∧
      (rgnOf s 31 63).ready = false ∧ (rgnOf (withRgn true true) 31 63).isSealed = true ∧ s.host.dbgGallery.toNat < numGal s := by
  decide +kernel

/-! ### Worked examples of the spec -/

/-- 22 R456: of the map 0x7FFEDF7F (sites 7, 13, 16 and 31 fused off, 28 galleries) G6 is at site 6, G7 at 8, G12 at 14, G13 at 15
and G27 at 30; G14, at site 17, is the first of the eastern die. -/
theorem test_sites : let s : State := { up with fuses := { up.fuses with galleryMap := 0x7FFEDF7F } }
    (siteOf s 6, siteOf s 7, dieOf s 14) = (6, 8, 1) := by decide +kernel


/-- 04 "one element of a 2D region": element (37, 300) of a region at row 4,096 with W = 512. -/
theorem test_element_2d : pa2D { Region.none with baseRow := 4096, rows := 512, mode2D := true, wblk := 2 } 37 300 = 0x104B51 := by decide
/-- 05 "one product and its checks". -/
theorem test_product : (barrett { q := 0x7FFFC001, mu := 0x80003FFF, fold := 0x1FFF0002, k := 31, logN := 16, twBase := 0 }
    0x40000000 0x40000000).val = 0x63FFB001 := by decide
/-- 05 R105: a sum that reaches 2^63 folds. -/
theorem test_lazy_add : lazyAdd 0x1FFF0002 (2 ^ 63 - 1) 1 = 0x1FFF0002 := by decide
/-- 08 "one column": 371 at SHIFT 6 is 6 under RNE and under STOCH with u = 53,667 it is 5; 600 is clamped to 7. -/
theorem test_narrow_rne : (storeInt fmtInt4 0 0 371 (-6)).code = 6 := by decide
theorem test_narrow_stoch : (storeInt fmtInt4 2 53667 371 (-6)).code = 5 ∧ (storeInt fmtInt4 2 52223 371 (-6)).code = 6 := by decide
theorem test_narrow_clamp : (storeInt fmtInt4 0 0 600 (-6)).code = 7 := by decide
/-- 08, the sentinel bins of that example. -/
theorem test_sentinel : sentBin (-13) = 19 ∧ sentBin 3 = 35 ∧ sentBin (-38) = 0 := by decide
/-- 19 Table 19-7. -/
theorem test_pk_cycles : modmulCycles 2048 = 1160 ∧ modexpCycles 3072 = 15392288 ∧ modexpCycles 4096 = 35730400 := by decide
/-- 21 "slack of a host-fed region". -/
theorem test_slack_bins : let u : Unit16 := { unitOf State.reset 0 with binShift := 0, offset := -32 }
    sampleBin u (-17) = 15 ∧ sampleBin u 48 = 63 ∧ sampleBin u (-33) = 0 := by decide
/-- CRC-32C of "123456789", the polynomial's usual check value. -/
theorem test_crc32c : crc32c [0x31, 0x32, 0x33, 0x34, 0x35, 0x36, 0x37, 0x38, 0x39] = 0xE3069283 := by decide +kernel

/-! ### Single steps -/

/-- 13 "an unaligned copy": the first burst of 300 bytes from 0x1025 to HBM 0x4000107 writes 121 of them. -/
theorem test_first_burst : let d := { descOf (descTo 1 0x4000107 300 0) with burstLog := 7 }
    (2 ^ d.burstLog - d.dstAddr % 2 ^ d.burstLog) = 121 := by decide +kernel
/-- 02 "admission and a host-fed stall": S = 5,000,256 at 5,000,000. -/
theorem test_submit_start : let s := withTour (image 31) idleTour
    (findStart idleTour 0 0 { s with time := { s.time with now := 5000000 } }).1 = some 5000256 := by decide +kernel
/-- A tick passes on an empty queue. -/
theorem test_tick : (match step up with | .next s => s.time.now | _ => 0) = 1001 := by decide +kernel
/-- A doorbell beyond the queue's size of 16 is bad (16 R343). -/
theorem test_bad_doorbell : (match exec (.qpDoorbell 63 16 []) up with | .next s => (qpOf s 63).badDoorbell | _ => false) = true := by
  decide +kernel
/-- DROOP sets its flag; writing 1 to it clears it (20 R436; 22 R454). -/
theorem test_droop : (match exec (.droop 0) up with
    | .next s => (match exec (.registerWrite 0x500018 4 1) s with | .next t => s.power.droop && !t.power.droop | _ => false)
    | _ => false) = true := by decide +kernel
/-- A CXL.mem line reads back what was written to it (14 R302; 16).  -/
theorem test_pmem_reads_back : (match exec (.cxlMemAccess 0 false (.write (List.replicate 32 0 ++ List.replicate 32 9))) up with
    | .next s => (match exec (.cxlMemAccess 0 false .read) s with | .next t => t.host.readData.getD 63 0 | _ => 0)
    | _ => 0) = 9 := by decide +kernel
/-- AES-256 on the example of FIPS 197, appendix C.3. -/
theorem test_aes_example : aesBlock (roundKeys ((List.range 32).map (BitVec.ofNat 8)))
    ((List.range 16).map (fun i => BitVec.ofNat 8 (17 * i))) = beBytes 16 0x8ea2b7ca516745bfeafc49904b496089 := by decide +kernel
/-- SHA-512 of "abc", the example of FIPS 180-4. -/
theorem test_sha512_example : sha512 [0x61, 0x62, 0x63] = beBytes 64
    (0xddaf35a193617abacc417349ae20413112e6fa4e89a97ea20a9eeee64b55d39a * 2 ^ 256 +
      0x2192992a274fc1a836ba3c23a3feebbd454d4423643ce80e2a9ac94fa54ca49f) := by decide +kernel

end Sys2Proof.Tests
end

section
/-!
PROOF. What the writes of a DMA record, of the Catalogue, of host and device memory and of the Vault's
medium leave alone: tours, time, the DMA engine, and the routes of the interrupts.
-/

namespace Sys2Proof.Machine

/-- The parts of the state that no write of memory, regions, Catalogue or medium touches. -/
structure Spared where
  tours      : List Tour
  time       : TimeSt
  dma        : Engine
  irq        : IrqRoute
  msixEnable : Bool
  msixTable  : SMem Word

def spared (s : State) : Spared := ⟨s.tours, s.time, s.dma, s.host.irq, s.host.msixEnable, s.host.msixTable⟩

theorem spared_foldl {α : Type} (f : State → α → State) (h : ∀ x a, spared (f x a) = spared x) (l : List α) (s : State) :
    spared (l.foldl f s) = spared s := by
  induction l generalizing s with
  | nil => rfl
  | cons a l ih => exact (ih _).trans (h s a)

/-! ### Updates of Machine/Ops.lean -/

@[simp] theorem spared_modVault (s f) : spared (modVault s f) = spared s := rfl
@[simp] theorem spared_modRgn (s g r f) : spared (modRgn s g r f) = spared s := rfl
@[simp] theorem spared_modGal (s g f) : spared (modGal s g f) = spared s := rfl
@[simp] theorem spared_modStk (s k f) : spared (modStk s k f) = spared s := rfl
@[simp] theorem spared_hostPut (s a bs) : spared (hostPut s a bs) = spared s := rfl
@[simp] theorem spared_freeBits (w s) : spared (freeBits w s).2 = spared s := rfl
@[simp] theorem spared_freeBytes (n s) : spared (freeBytes n s).2 = spared s := rfl
@[simp] theorem spared_snoopLine (s line) : spared (snoopLine s line) = spared s := rfl
@[simp] theorem spared_snoopRange (a n s) : spared (snoopRange a n s) = spared s := rfl
@[simp] theorem spared_countUe (source line s) : spared (countUe source line s) = spared s := rfl
@[simp] theorem spared_countCe (line s) : spared (countCe line s) = spared s := rfl

@[simp] theorem spared_raiseVec (s v) : spared (raiseVec s v) = spared s := by
  obtain ⟨r, p, h⟩ := raiseVec_frame s v
  rw [h]; rfl

/-! ### Writes of device memory -/

@[simp] theorem spared_readLineEcc (source line s) : spared (readLineEcc source line s).2 = spared s := by
  unfold readLineEcc
  split
  · rfl
  · split
    · exact spared_countUe source line s
    · split
      · exact spared_countCe line s
      · rfl

@[simp] theorem spared_hbmSetByte (s a b) : spared (hbmSetByte s a b) = spared s := by
  unfold hbmSetByte
  split <;> rfl

@[simp] theorem spared_hbmSetBytes (a bs s) : spared (hbmSetBytes a bs s) = spared s := by
  induction bs generalizing a s with
  | nil => rfl
  | cons b bs ih => exact (ih _ _).trans (spared_hbmSetByte s a b)

@[simp] theorem spared_hbmPutBytes (a bs s) : spared (hbmPutBytes a bs s) = spared s := by
  unfold hbmPutBytes
  split
  · rfl
  · exact spared_hbmSetBytes a bs s

@[simp] theorem spared_hubWriteLine (s a bs) : spared (hubWriteLine s a bs).2 = spared s := by
  unfold hubWriteLine
  dsimp only
  split
  · split
    · rfl
    · exact spared_hbmPutBytes ..
  · split
    · exact spared_hbmPutBytes ..
    · split
      · exact spared_readLineEcc ..
      · exact (spared_hbmPutBytes ..).trans (spared_readLineEcc ..)

@[simp] theorem spared_hubWriteFrom (n a bs d s) : spared (hubWriteFrom n a bs d s).2 = spared s := by
  induction n generalizing a bs d s with
  | zero => rfl
  | succ n ih =>
    cases bs with
    | nil => rfl
    | cons b bs =>
      simp only [hubWriteFrom]
      split <;> simp [ih]

@[simp] theorem spared_hubWrite (s a bs) : spared (hubWrite s a bs).2 = spared s := spared_hubWriteFrom ..

@[simp] theorem spared_locPut (s hbm a bs) : spared (locPut s hbm a bs) = spared s := by
  unfold locPut
  split
  · exact spared_hubWrite s a bs
  · rfl

@[simp] theorem spared_modEnt (i f s) : spared (modEnt i f s) = spared s := spared_hubWriteLine ..

/-! ### Changes of the Vault's medium -/

@[simp] theorem spared_modMedium (s f) : spared (modMedium s f) = spared s := rfl

@[simp] theorem spared_wipeStripe (k s) : spared (wipeStripe k s) = spared s := by
  unfold wipeStripe checkReadOnly
  dsimp only
  split <;> rfl

@[simp] theorem spared_reclaim (avoid start s) : spared (reclaim avoid start s) = spared s := by
  unfold reclaim
  split
  · rfl
  · split
    · exact spared_wipeStripe _ s
    · rfl

@[simp] theorem spared_pickSlot (avoid s) : spared (pickSlot avoid s).2 = spared s := spared_reclaim ..

@[simp] theorem spared_moveSlot (old new s) : spared (moveSlot old new s) = spared s := rfl

@[simp] theorem spared_putMap (e st slot isSealed s) : spared (putMap e st slot isSealed s) = spared s := by
  unfold putMap
  dsimp only
  split <;> rfl

@[simp] theorem spared_relocateExtent (e s) : spared (relocateExtent e s) = spared s := by
  simp [relocateExtent]

theorem spared_moveOut (slot follow s) (h : ∀ a b x, spared (follow a b x) = spared x) :
    spared (moveOut slot follow s) = spared s := by
  simp [moveOut, h]

@[simp] theorem spared_eraseStripe (k s) : spared (eraseStripe k s) = spared s := by
  unfold eraseStripe
  dsimp only
  rw [spared_wipeStripe, spared_foldl, spared_foldl, spared_foldl]
  · exact fun x e => spared_relocateExtent e x
  · exact fun x c => spared_moveOut c _ x fun _ _ _ => rfl
  · exact fun x w => spared_moveOut w _ x fun _ _ _ => rfl

@[simp] theorem spared_dropWrites (ch s) : spared (dropWrites ch s) = spared s :=
  spared_foldl _ (fun x _ => spared_eraseStripe _ x) _ _

end Sys2Proof.Machine
end

section
/-!
PROOF. The end of a descriptor frees its channel and touches nothing else of the DMA engine; so the
engine stop, which ends every descriptor in progress, keeps what it has recorded (13 R283, R284).
-/

namespace Sys2Proof.Machine

/-! ### The end of a descriptor -/

/-- `spared` but for the DMA channels: the engine's own registers, tours, time and interrupt routes. -/
def besideChannels (s : State) : Spared :=
  { spared s with dma := { s.dma with chans := Vector.replicate 64 Channel.reset } }

theorem besideChannels_of_spared {s t : State} (h : spared t = spared s) : besideChannels t = besideChannels s :=
  congrArg (fun x : Spared => { x with dma := { x.dma with chans := Vector.replicate 64 Channel.reset } }) h

theorem chanOf_of_spared {s t : State} (h : spared t = spared s) (k : Nat) : chanOf t k = chanOf s k :=
  congrArg (fun x : Spared => vget x.dma.chans k Channel.reset) h

theorem spared_modChan {s t : State} (h : spared t = spared s) (ch : Nat) (f : Channel → Channel) :
    spared (modChan t ch f) = spared (modChan s ch f) :=
  congrArg (fun x : Spared => { x with dma := { x.dma with chans := vmod x.dma.chans ch Channel.reset f } }) h

/-- A record changes its own channel alone, and frees it. -/
theorem writeRecord_frees (ch p st residue readySet stop catLoaded s) :
    ∃ f : Channel → Channel,
      spared (writeRecord ch p st residue readySet stop catLoaded s) = spared (modChan s ch f) ∧ ∀ c, (f c).cur = .none := by
  unfold writeRecord
  dsimp only
  split
  · exact ⟨_, (spared_raiseVec _ _).trans (spared_modChan (spared_locPut _ _ _ _) ch _), fun _ => rfl⟩
  · exact ⟨_, spared_modChan (spared_locPut _ _ _ _) ch _, fun _ => rfl⟩

theorem endDesc_frees (ch p st stop s) :
    ∃ f : Channel → Channel, spared (endDesc ch p st stop s) = spared (modChan s ch f) ∧ ∀ c, (f c).cur = .none := by
  unfold endDesc
  dsimp only
  obtain ⟨f, h, hf⟩ := writeRecord_frees ch p st _ _ stop _ _
  refine ⟨f, h.trans (spared_modChan ?_ ch f), hf⟩
  simp only [apply_ite spared, spared_modEnt, spared_modRgn, spared_dropWrites, ite_self]

/-! ### A channel at the engine stop -/

@[simp] theorem spared_inFlightBytes (ch p s) : spared (inFlightBytes ch p s) = spared s := by
  unfold inFlightBytes
  dsimp only
  split
  · rfl
  · split <;> simp

/-- Stopping a channel that is idle changes nothing; a channel with a descriptor in progress is freed. -/
theorem stopChan_cases (ch : Nat) (s : State) :
    ((chanOf s ch).cur = .none ∧ stopChan ch s = s) ∨
      ∃ f : Channel → Channel, spared (stopChan ch s) = spared (modChan s ch f) ∧ ∀ c, (f c).cur = .none := by
  cases h : (chanOf s ch).cur with
  | none => exact .inl ⟨rfl, by simp [stopChan, h]⟩
  | some p =>
    obtain ⟨f, e, hf⟩ := endDesc_frees ch p stBusError true (inFlightBytes ch p s)
    refine .inr ⟨f, ?_, hf⟩
    simp only [stopChan, h]
    exact e.trans (spared_modChan (spared_inFlightBytes ch p s) ch f)

theorem stopChan_besideChannels (ch : Nat) (s : State) : besideChannels (stopChan ch s) = besideChannels s := by
  obtain ⟨-, h⟩ | ⟨f, h, -⟩ := stopChan_cases ch s
  · rw [h]
  · exact besideChannels_of_spared (t := stopChan ch s) (s := modChan s ch f) h

theorem stopChan_cur_same (ch : Nat) (s : State) (hch : ch < 64) : (chanOf (stopChan ch s) ch).cur = .none := by
  obtain ⟨hc, h⟩ | ⟨f, h, hf⟩ := stopChan_cases ch s
  · rw [h, hc]
  · rw [chanOf_of_spared h, chanOf_modChan_same _ _ _ hch, hf]

theorem stopChan_chanOf_other (ch k : Nat) (s : State) (hk : k ≠ ch) : chanOf (stopChan ch s) k = chanOf s k := by
  obtain ⟨-, h⟩ | ⟨f, h, -⟩ := stopChan_cases ch s
  · rw [h]
  · rw [chanOf_of_spared h, chanOf_modChan_other _ _ _ _ hk]

/-! ### All channels -/

theorem foldRange_succ {α : Type} (n : Nat) (f : Nat → α → α) (a : α) : foldRange (n + 1) f a = f n (foldRange n f a) := by
  simp [foldRange, List.range_succ]

theorem stopChans_besideChannels (n : Nat) (s : State) : besideChannels (foldRange n stopChan s) = besideChannels s := by
  induction n with
  | zero => rfl
  | succ n ih => rw [foldRange_succ, stopChan_besideChannels, ih]

theorem stopChans_cur (n : Nat) (s : State) (hn : n ≤ 64) (k : Nat) (hk : k < n) :
    (chanOf (foldRange n stopChan s) k).cur = .none := by
  induction n with
  | zero => omega
  | succ n ih =>
    rw [foldRange_succ]
    by_cases h : k = n
    · rw [h]; exact stopChan_cur_same n _ hn
    · rw [stopChan_chanOf_other _ _ _ h]; exact ih (by omega) (by omega)

/-! ### The vector (16 R357) -/

/-- With MSI-X enabled a masked vector becomes pending, any other is sent. -/
theorem raiseVec_delivers (s : State) (v : BitVec 6) (h : s.host.msixEnable = true) :
    if vectorMasked s v.toNat then (raiseVec s v).host.msixPending.getLsbD v.toNat = true
    else v ∈ (raiseVec s v).host.raised := by
  have bit : (BitVec.ofNat 64 (1 <<< v.toNat)).getLsbD v.toNat = true := by
    have hv := v.isLt
    rw [BitVec.getLsbD_ofNat, Nat.one_shiftLeft, Nat.testBit_two_pow_self, Bool.and_true]
    exact decide_eq_true hv
  unfold raiseVec
  split
  · simp only [h, modHost, Bool.true_eq_false, if_false]
    exact (BitVec.getLsbD_or ..).trans ((congrArg _ bit).trans (Bool.or_true _))
  · simp [h, modHost]

/-! ### The stop -/

/-- The engine's registers at a stop: the error is counted, and recorded unless a record is held (13 R284). -/
def stopRegs (iface : BusIface) (addr : Quad) (e : Engine) : Engine :=
  { e with
    errValid := true, errIface := if e.errValid then e.errIface else ifaceCode iface,
    errAddr := if e.errValid then e.errAddr else addr, busErrors := bump8 e.busErrors, stopped := true }

/-- The state in which every descriptor in progress has ended, before the vector is raised. -/
def stoppedEngine (iface : BusIface) (addr : Quad) (s : State) : State :=
  foldRange 64 stopChan { s with dma := stopRegs iface addr s.dma }

theorem doEngineStop_eq (iface addr) (s : State) (h : hubRuns s = true) :
    doEngineStop iface addr s =
      if (stoppedEngine iface addr s).host.irq.engineEn then
        raiseVec (stoppedEngine iface addr s) (stoppedEngine iface addr s).host.irq.engineVec
      else stoppedEngine iface addr s := by
  cases he : s.dma.errValid <;> simp [doEngineStop, stoppedEngine, stopRegs, h, he]

theorem stoppedEngine_besideChannels (iface addr s) :
    besideChannels (stoppedEngine iface addr s) = besideChannels { s with dma := stopRegs iface addr s.dma } :=
  stopChans_besideChannels 64 _

theorem spared_doEngineStop (iface addr) (s : State) (h : hubRuns s = true) :
    spared (doEngineStop iface addr s) = spared (stoppedEngine iface addr s) := by
  rw [doEngineStop_eq iface addr s h]
  split
  · exact spared_raiseVec _ _
  · rfl

/-- The enabled vector of the engine is raised under the mask that it had before the stop. -/
theorem doEngineStop_delivers (iface addr) (s : State) (h : hubRuns s = true) (hen : s.host.irq.engineEn = true)
    (hx : s.host.msixEnable = true) :
    if vectorMasked s s.host.irq.engineVec.toNat then
      (doEngineStop iface addr s).host.msixPending.getLsbD s.host.irq.engineVec.toNat = true
    else s.host.irq.engineVec ∈ (doEngineStop iface addr s).host.raised := by
  have routes := stoppedEngine_besideChannels iface addr s
  simp only [besideChannels, spared, Spared.mk.injEq] at routes
  obtain ⟨-, -, -, hirq, henable, htable⟩ := routes
  have hmask : ∀ v, vectorMasked (stoppedEngine iface addr s) v = vectorMasked s v := fun v => by
    simp only [vectorMasked, htable]
  rw [doEngineStop_eq iface addr s h, hirq, if_pos hen, ← hmask]
  exact raiseVec_delivers _ _ (henable.trans hx)

/-- Settles O40: the 64 ends leave the engine's registers, and so what the stop has recorded, alone (`stopChans_besideChannels`), and free
every channel (`stopChans_cur`). -/
theorem theEngineStops : Obligations.TheEngineStops := by
  intro iface addr s hs
  have hspared := spared_doEngineStop iface addr s hs
  have hbeside : besideChannels (doEngineStop iface addr s) = besideChannels { s with dma := stopRegs iface addr s.dma } :=
    (besideChannels_of_spared hspared).trans (stoppedEngine_besideChannels iface addr s)
  have hfree : ∀ k < 64, (chanOf (doEngineStop iface addr s) k).cur = .none := fun k hk => by
    rw [chanOf_of_spared hspared, stoppedEngine]; exact stopChans_cur 64 _ (Nat.le_refl _) k hk
  simp only [besideChannels, spared, Spared.mk.injEq, Engine.mk.injEq] at hbeside
  obtain ⟨htours, htime, ⟨-, -, -, hcount, hstopped, hvalid, hiface, haddr⟩, -, -, -⟩ := hbeside
  refine ⟨_, rfl, hstopped, hcount, hvalid, fun hv => ⟨?_, ?_⟩, fun hv => ⟨?_, ?_⟩,
    doEngineStop_delivers iface addr s hs, hfree, htours, htime⟩
  · rw [hiface, stopRegs, hv]; cases iface <;> rfl
  · rw [haddr, stopRegs, hv]; rfl
  · rw [hiface, stopRegs, hv]; rfl
  · rw [haddr, stopRegs, hv]; rfl

end Sys2Proof.Machine
end

section
/-!
PROOF. What one update of the atomic cache does to its element, RED_OP by RED_OP (14 R309, Table 14-6).
-/

namespace Sys2Proof.Machine

/-! ### The codes of Table 14-6 -/

theorem redOp_cases (op : BitVec 8) (h1 : 1 ≤ op.toNat) (h10 : op.toNat ≤ 10) :
    op = 1 ∨ op = 2 ∨ op = 3 ∨ op = 4 ∨ op = 5 ∨ op = 6 ∨ op = 7 ∨ op = 8 ∨ op = 9 ∨ op = 10 := by
  bv_omega

/-- Bytes of the element of a code of Table 14-6. -/
def elementBytes (op : BitVec 8) : Nat := if op = 2 ∨ op = 8 ∨ op = 10 then 8 else 4

theorem redSize_eq_elementBytes (op : BitVec 8) (h1 : 1 ≤ op.toNat) (h10 : op.toNat ≤ 10) :
    redSize op.toNat = elementBytes op := by
  obtain rfl | rfl | rfl | rfl | rfl | rfl | rfl | rfl | rfl | rfl := redOp_cases op h1 h10 <;> rfl

theorem elementBytes_ne_zero (op : BitVec 8) : elementBytes op ≠ 0 := by
  unfold elementBytes; split <;> decide

/-- The new value of an element `x` by Table 14-6, of an operand `w` and a compare value `c` that have the element's size. -/
def elementAfter (op : BitVec 8) (q x w c : Nat) : Nat :=
  if op = 1 then (x + w) % 2 ^ 32 else if op = 2 then (x + w) % 2 ^ 64
  else if op = 3 then (if q ≤ x + w then x + w - q else x + w) % 2 ^ 32
  else if op = 4 then (fAdd (BitVec.ofNat 32 x) (BitVec.ofNat 32 w)).w.toNat
  else if op = 5 then (if (BitVec.ofNat 32 x).toInt ≤ (BitVec.ofNat 32 w).toInt then x else w)
  else if op = 6 then (if (BitVec.ofNat 32 w).toInt ≤ (BitVec.ofNat 32 x).toInt then x else w)
  else if op = 7 ∨ op = 8 then w
  else if x = c then w else x

/-- The operand and the compare value are cut to the element: SWAP and CAS store no more than the element holds, and no code but FADD
has events. -/
theorem redValue_eq_elementAfter (op : BitVec 8) (q x y cmp : Nat) (h1 : 1 ≤ op.toNat) (h10 : op.toNat ≤ 10) :
    let w := y % 2 ^ (8 * elementBytes op)
    let f := fAdd (BitVec.ofNat 32 x) (BitVec.ofNat 32 w)
    redValue op.toNat q x w cmp =
      (elementAfter op q x w (cmp % 2 ^ (8 * elementBytes op)), decide (op = 4 ∧ f.sat = true), decide (op = 4 ∧ f.nan = true)) := by
  obtain rfl | rfl | rfl | rfl | rfl | rfl | rfl | rfl | rfl | rfl := redOp_cases op h1 h10
  · rfl -- ADD32
  · rfl -- ADD64
  · rfl -- MADD
  · simp [redValue, elementAfter, elementBytes] -- FADD, with its events
  · rfl -- MIN
  · rfl -- MAX
  · exact congrArg (·, false, false) (Nat.mod_mod y _) -- SWAP32
  · exact congrArg (·, false, false) (Nat.mod_mod y _) -- SWAP64
  · simp [redValue, elementAfter, elementBytes] -- CAS32
  · simp [redValue, elementAfter, elementBytes] -- CAS64

/-! ### The update -/

/-- An update has stored value `v` in its element of range `i`; `sat` and `nan` are its FADD events (R311). -/
def storeElement (a n i : Nat) (r : AtomRange) (v : Nat) (sat nan : Bool) (s : State) : State :=
  modStk s (stackOf a) (fun st =>
    { st with ranges := vset st.ranges i (some { r with sram := smPut 0 a (leBytes n v) r.sram }),
              atomSat := if sat then bump8 st.atomSat else st.atomSat,
              atomNan := if nan then bump8 st.atomNan else st.atomNan })

/-- An update of an aligned element in an open range, on a line that was not loaded poisoned, is not refused. -/
theorem applyUpdate_of_open {a op i : Nat} {r : AtomRange} {s : State} (y cmp : Nat) (hr : findRange s a = some (i, r))
    (hn : redSize op ≠ 0) (ha : a % redSize op = 0) (hp : r.poisoned.contains (lineOf a) = false) :
    let v := redValue op r.q.toNat (leNat (smRead 0 a (redSize op) r.sram)) (y % 2 ^ (8 * redSize op)) cmp
    (applyUpdate a op y cmp s).2 = storeElement a (redSize op) i r v.1 v.2.1 v.2.2 (snoopLine s (lineOf a)) := by
  have hr' : findRange (snoopLine s (lineOf a)) a = some (i, r) := hr
  have hok : ¬(redSize op = 0 ∨ a % redSize op ≠ 0) := by simp [hn, ha]
  simp only [applyUpdate, hr', if_neg hok, hp, Bool.false_eq_true, if_false]
  rfl

/-- Settles O21: the update is not refused (`applyUpdate_of_open`), and what it stores is Table 14-6's (`redValue_eq_elementAfter`). -/
theorem atomicUpdatesApply : Obligations.AtomicUpdatesApply := by
  intro a op y cmp i r s hs hr h1 h10 n ha hp x w f v
  have hsize : redSize op.toNat = n := redSize_eq_elementBytes op h1 h10
  have happly := applyUpdate_of_open y.toNat cmp.toNat hr (hsize ▸ elementBytes_ne_zero op) (hsize.symm ▸ ha) hp
  have hvalue : redValue op.toNat r.q.toNat x w cmp.toNat = (v, decide (op = 4 ∧ f.sat = true), decide (op = 4 ∧ f.nan = true)) :=
    redValue_eq_elementAfter op r.q.toNat x y.toNat cmp.toNat h1 h10
  rw [hsize, hvalue] at happly
  calc exec (.atomicUpdate a op y cmp) s
      = .next (doAtomicUpdate a op.toNat y.toNat cmp.toNat s) := rfl
    _ = .next (storeElement a n i r v (decide (op = 4 ∧ f.sat = true)) (decide (op = 4 ∧ f.nan = true)) (snoopLine s (lineOf a))) := by
        rw [doAtomicUpdate, if_pos hs, happly]
    _ = _ := by simp only [storeElement, decide_eq_true_eq]; rfl

end Sys2Proof.Machine
end

section
/-!
PROOF. The evaluation of the risk estimate (18 R384 to R388): what it writes, and that an alert or an automatic checkpoint that it starts
changes neither what was written nor tours, galleries and HBM.
-/

namespace Sys2Proof.Machine

/-- The registers that an evaluation writes (R385), with the tours and the memories. -/
structure RiskView where
  estimate : BitVec 8
  parts    : Vector (BitVec 8) 7
  tours    : List Tour
  gals     : Vector Gallery 32
  mem      : SMem Byte

def riskView (s : State) : RiskView := ⟨s.health.estimate, s.health.parts, s.tours, s.gals, s.hbm.mem⟩

/-! ### What follows an evaluation leaves the view alone -/

theorem riskView_startCkpt (h kind scope target window first s) :
    riskView (startCkpt h kind scope target window first s) = riskView s := rfl

theorem riskView_raiseVec (s v) : riskView (raiseVec s v) = riskView s := by
  obtain ⟨_, _, h⟩ := raiseVec_frame s v
  rw [h]; rfl

theorem riskView_raiseEvent (s) : riskView (raiseEvent s) = riskView s := by
  unfold raiseEvent
  split
  · exact riskView_raiseVec ..
  · rfl

/-- An automatic checkpoint is skipped, with an event, or waits for its cut (R386). -/
theorem riskView_autoCkpt (s) : riskView (autoCkpt s) = riskView s := by
  unfold autoCkpt
  dsimp only
  split
  · exact riskView_raiseEvent _
  · exact riskView_startCkpt ..

/-! ### The evaluation -/

/-- The components of Table 18-1 at an evaluation: the period that ends counts as the newest of the 64. -/
def riskPartsNow (margin : Int) (s : State) : List Nat :=
  riskParts (sumTaps ((s.health.taps :: s.health.history).take 64)) margin (meanErasesRead s)

theorem riskView_doRisk (margin : Int) (s : State) (hs : hubRuns s = true) :
    riskView (doRisk margin s) =
      { riskView s with
        estimate := BitVec.ofNat 8 (min 255 (sumNat (riskPartsNow margin s))),
        parts := Vector.ofFn (fun i => BitVec.ofNat 8 ((riskPartsNow margin s).getD i 0)) } := by
  have alerts (c : Prop) [Decidable c] (x : State) : riskView (if c then raiseEvent x else x) = riskView x := by
    split
    · exact riskView_raiseEvent x
    · rfl
  have checkpoints (c : Prop) [Decidable c] (x : State) : riskView (if c then autoCkpt x else x) = riskView x := by
    split
    · exact riskView_autoCkpt x
    · rfl
  have hruns : ¬((!hubRuns s) = true) := by simp [hs]
  rw [doRisk, if_neg hruns]
  dsimp only
  rw [checkpoints, alerts]
  rfl

theorem vget_ofFn {α : Type} {n : Nat} (f : Fin n → α) (i : Nat) (d : α) (hi : i < n) : vget (Vector.ofFn f) i d = f ⟨i, hi⟩ := by
  simp [vget, hi]

/-- Settles O51: each conjunct is a field of the view that `riskView_doRisk` gives. -/
theorem riskIsEstimated : Obligations.RiskIsEstimated := by
  intro margin s hs t parts
  have hview := riskView_doRisk margin s hs
  have hparts : (doRisk margin s).health.parts = Vector.ofFn (fun i => BitVec.ofNat 8 (parts.getD i 0)) :=
    congrArg RiskView.parts hview
  refine ⟨doRisk margin s, rfl, congrArg RiskView.estimate hview, fun i hi => ?_, congrArg RiskView.tours hview,
    congrArg RiskView.gals hview, congrArg RiskView.mem hview⟩
  rw [hparts, vget_ofFn _ i 0 hi]

end Sys2Proof.Machine
end

section
/-!
PROOF. A step takes the front command, and leaves the queue's rest, the fuses and debug mode as they may be left: every meaning answers a
next state (`exec_next`) and is calm (`exec_calm`); a tick of module time is calm too.
-/

namespace Sys2Proof.Machine

/-- The commands that a packet of Table 16-6 can hold. -/
def ofPacket : Instr → Bool
  | .moduleResetDevice _ => true
  | c => (Claims.opcodeOf c).isSome

theorem packetMeaning_eq (c : Instr) (s : State) : packetMeaning c s = if ofPacket c then exec c s else .next s := by
  cases c <;> rfl

theorem exec_next (c : Instr) (s : State) : ∃ t, exec c s = .next t := by
  cases c <;> exact ⟨_, rfl⟩

theorem exec_calm (c : Instr) (s t : State) (e : exec c s = .next t) : Calm s t := by
  by_cases hc : ofPacket c = true
  · exact calm_packetMeaning c s t (by rw [packetMeaning_eq, if_pos hc, e])
  cases c with
  | regionFillDone y0 => exact calm_execRegionFillDone y0 s t e
  | tourLoadDone y0 => exact calm_execTourLoadDone y0 s t e
  | windowAnnounce y0 y1 y2 y3 y4 => exact calm_execWindowAnnounce y0 y1 y2 y3 y4 s t e
  | checkpointStage => exact calm_execCheckpointStage s t e
  | checkpointDrainDone y0 => exact calm_execCheckpointDrainDone y0 s t e
  | fenceDone => exact calm_execFenceDone s t e
  | longCommandDone y0 y1 => exact calm_execLongCommandDone y0 y1 s t e
  | qpDoorbell y0 y1 y2 => exact calm_execQpDoorbell y0 y1 y2 s t e
  | qpCommandTake y0 y1 => exact calm_execQpCommandTake y0 y1 s t e
  | qpEnable y0 y1 => exact calm_execQpEnable y0 y1 s t e
  | mboxGo y0 y1 => exact calm_execMboxGo y0 y1 s t e
  | timeSet y0 => exact calm_execTimeSet y0 s t e
  | hubShareWrite y0 => exact calm_execHubShareWrite y0 s t e
  | tgStart y0 y1 => exact calm_execTgStart y0 y1 s t e
  | tgDone y0 y1 => exact calm_execTgDone y0 y1 s t e
  | arithInjectArm y0 y1 => exact calm_execArithInjectArm y0 y1 s t e
  | invigilatorEnable y0 y1 => exact calm_execInvigilatorEnable y0 y1 s t e
  | admitLimitWrite y0 => exact calm_execAdmitLimitWrite y0 s t e
  | dmaDoorbell y0 y1 y2 => exact calm_execDmaDoorbell y0 y1 y2 s t e
  | dmaChEnable y0 y1 => exact calm_execDmaChEnable y0 y1 s t e
  | dmaAbort y0 y1 => exact calm_execDmaAbort y0 y1 s t e
  | creditAdd y0 y1 => exact calm_execCreditAdd y0 y1 s t e
  | engineResume y0 => exact calm_execEngineResume y0 s t e
  | dmaCopy y0 => exact calm_execDmaCopy y0 s t e
  | dmaReduce y0 => exact calm_execDmaReduce y0 s t e
  | dmaRequest y0 y1 => exact calm_execDmaRequest y0 y1 s t e
  | dmaBurst y0 y1 => exact calm_execDmaBurst y0 y1 s t e
  | dmaCompletion y0 => exact calm_execDmaCompletion y0 s t e
  | engineStop y0 y1 => exact calm_execEngineStop y0 y1 s t e
  | hubPortAccess y0 y1 y2 y3 => exact calm_execHubPortAccess y0 y1 y2 y3 s t e
  | hubBurst y0 y1 y2 => exact calm_execHubBurst y0 y1 y2 s t e
  | bar2Access y0 y1 y2 => exact calm_execBar2Access y0 y1 y2 s t e
  | registerWrite y0 y1 y2 => exact calm_execRegisterWrite y0 y1 y2 s t e
  | registerReadClear y0 y1 => exact calm_execRegisterReadClear y0 y1 s t e
  | tourStart y0 => exact calm_execTourStart y0 s t e
  | readinessSample y0 => exact calm_execReadinessSample y0 s t e
  | stepLaunch y0 => exact calm_execStepLaunch y0 s t e
  | lateArrivalDiscard y0 => exact calm_execLateArrivalDiscard y0 s t e
  | stepEnd y0 => exact calm_execStepEnd y0 s t e
  | tourOverrun y0 => exact calm_execTourOverrun y0 s t e
  | holdLimitExceeded y0 => exact calm_execHoldLimitExceeded y0 s t e
  | tourEnd y0 => exact calm_execTourEnd y0 s t e
  | islandLockLoss y0 => exact calm_execIslandLockLoss y0 s t e
  | bridgeFlitLoss y0 y1 => exact calm_execBridgeFlitLoss y0 y1 s t e
  | bridgeRetrain y0 => exact calm_execBridgeRetrain y0 s t e
  | lineRewrite y0 => exact calm_execLineRewrite y0 s t e
  | atomicUpdate y0 y1 y2 y3 => exact calm_execAtomicUpdate y0 y1 y2 y3 s t e
  | extentCommit y0 => exact calm_execExtentCommit y0 s t e
  | programFail y0 => exact calm_execProgramFail y0 s t e
  | patrolRead y0 y1 y2 => exact calm_execPatrolRead y0 y1 y2 s t e
  | extentRelocate y0 y1 => exact calm_execExtentRelocate y0 y1 s t e
  | openPassDone => exact calm_execOpenPassDone s t e
  | frameReceive y0 y1 => exact calm_execFrameReceive y0 y1 s t e
  | linkRekey y0 y1 => exact calm_execLinkRekey y0 y1 s t e
  | packetArrival y0 => exact calm_execPacketArrival y0 s t e
  | packetForward y0 => exact calm_execPacketForward y0 s t e
  | openingMessage y0 => exact calm_execOpeningMessage y0 s t e
  | timeMessage y0 y1 y2 => exact calm_execTimeMessage y0 y1 y2 s t e
  | timeHoldover => exact calm_execTimeHoldover s t e
  | lockstepSummary y0 y1 y2 y3 => exact calm_execLockstepSummary y0 y1 y2 y3 s t e
  | lockstepComplete y0 => exact calm_execLockstepComplete y0 s t e
  | partnerLost => exact calm_execPartnerLost s t e
  | esHealthFail y0 => exact calm_execEsHealthFail y0 s t e
  | riskEvaluation y0 => exact calm_execRiskEvaluation y0 s t e
  | profileExcess y0 => exact calm_execProfileExcess y0 s t e
  | powerInputRise y0 => exact calm_execPowerInputRise y0 s t e
  | powerInputLoss => exact calm_execPowerInputLoss s t e
  | pwrSense y0 => exact calm_execPwrSense y0 s t e
  | boot y0 y1 => exact calm_execBoot y0 y1 s t e
  | perst y0 => exact calm_execPerst y0 s t e
  | functionLevelReset => exact calm_execFunctionLevelReset s t e
  | thermalAbort => exact calm_execThermalAbort s t e
  | powerFault => exact calm_execPowerFault s t e
  | emergencyClear => exact calm_execEmergencyClear s t e
  | droop y0 => exact calm_execDroop y0 s t e
  | thermWarn => exact calm_execThermWarn s t e
  | shutdown => exact calm_execShutdown s t e
  | spdmRequest y0 y1 => exact calm_execSpdmRequest y0 y1 s t e
  | mctpMessage y0 y1 => exact calm_execMctpMessage y0 y1 s t e
  | captureSample y0 y1 => exact calm_execCaptureSample y0 y1 s t e
  | cxlMemAccess y0 y1 y2 => exact calm_execCxlMemAccess y0 y1 y2 s t e
  | bridgeRetrainDone => exact calm_execBridgeRetrainDone s t e
  | spdmHeartbeatLoss y0 => exact calm_execSpdmHeartbeatLoss y0 s t e
  | fabricPortDown y0 y1 => exact calm_execFabricPortDown y0 y1 s t e
  | cxlLinkRetrain => exact calm_execCxlLinkRetrain s t e
  | refreshRateChange y0 y1 => exact calm_execRefreshRateChange y0 y1 s t e
  | _ => exact absurd rfl hc

theorem step_of_cons (s : State) (c : Instr) (cs : List Instr) (h : s.pending = c :: cs) :
    step s = exec c { s with pending := cs } := by
  rw [step, h]

theorem step_of_nil (s : State) (h : s.pending = []) : step s = .next (idleTick s) := by
  rw [step, h]

/-- Settles O1. -/
theorem stepRunsTheFrontCommand : Obligations.StepRunsTheFrontCommand :=
  fun c cs s h => step_of_cons s c cs h

/-- A step answers a next state that is calm beside the state with the queue's rest. -/
theorem step_calm (s : State) : ∃ t, step s = .next t ∧ Calm { s with pending := s.pending.tail } t := by
  cases h : s.pending with
  | nil =>
    have hs : ({ s with pending := [] } : State) = s := by rw [← h]
    exact ⟨idleTick s, step_of_nil s h, calm_of_kept (by rw [kept_idleTick, List.tail_nil, hs])⟩
  | cons c cs =>
    obtain ⟨t, ht⟩ := exec_next c { s with pending := cs }
    exact ⟨t, (step_of_cons s c cs h).trans ht, exec_calm _ _ _ ht⟩

/-- Settles O3. -/
theorem everyStepTakesOneCommand : Obligations.EveryStepTakesOneCommand := by
  intro s
  obtain ⟨t, ht, hcalm⟩ := step_calm s
  exact ⟨t, ht, hcalm.pending⟩

theorem calm_of_step {s t : State} (h : step s = .next t) : Calm { s with pending := s.pending.tail } t := by
  obtain ⟨u, hu, hcalm⟩ := step_calm s
  rw [h] at hu
  injection hu with hu
  exact hu ▸ hcalm

/-- Settles O4: both parts are fields of `Calm`, which no queue enters but by its first. -/
theorem fusesAreNeverUndone : Obligations.FusesAreNeverUndone := by
  refine ⟨fun s t h => ?_, fun s t hs h => ?_⟩
  · have hcalm := calm_of_step h
    exact ⟨hcalm.galleries, hcalm.svn, hcalm.disabled⟩
  · exact (calm_of_step h).debug hs

/-- Settles O5. -/
theorem resetState : Obligations.ResetState := by
  refine ⟨rfl, rfl, rfl, rfl, rfl, fun g hg => ?_, rfl, rfl, rfl, rfl, ?_, ?_, rfl, rfl, ?_, rfl, rfl, rfl⟩
  · have e : galOf State.reset g = Gallery.reset := by simp [galOf, State.reset, vget, hg]
    refine ⟨by rw [e]; rfl, by rw [e]; rfl, fun j hj => ?_⟩
    simp [rgnOf, e, Gallery.reset, vget, hj, Region.none]
  · intro q hq; simp [qpOf, State.reset, HostPort.reset, vget, hq, Qp.reset]
  · intro n hn; simp [chanOf, State.reset, Engine.reset, vget, hn, Channel.reset]
  · intro k hk; simp [portOf, State.reset, Fabric.reset, vget, hk, Port.reset]

end Sys2Proof.Machine
end

section
/-!
PROOF. The entries that the Docent writes (16): a REPLY in its queue, the mailbox's entry, what a command in RECOVERY answers, what a
write of the doorbell or of CXL_QP_CTRL does, and the packets that are taken.
-/

namespace Sys2Proof.Machine

/-! ### Bytes -/

@[simp] theorem leBytes_length (n v : Nat) : (leBytes n v).length = n := by
  induction n generalizing v with
  | zero => rfl
  | succ n ih => simp [leBytes, ih]

@[simp] theorem padTo_length (n : Nat) (bs : List Byte) : (padTo n bs).length = n := by
  simp only [padTo, List.length_take, List.length_append, List.length_replicate]
  omega

theorem padTo_of_length (n : Nat) (bs : List Byte) (h : bs.length = n) : padTo n bs = bs := by
  subst h
  simp [padTo]

@[simp] theorem entryHead_length (tag phase kind qp st op) : (entryHead tag phase kind qp st op).length = 8 := by
  simp [entryHead]

@[simp] theorem answerBody_length (a : Answer) : (answerBody a).length = 24 := by
  simp [answerBody]

/-! ### One entry of a reply queue -/

theorem hostGet_hostPut (s : State) (a : Nat) (bs : List Byte) (n : Nat) (h : bs.length = n) : hostGet (hostPut s a bs) a n = bs := by
  rw [← h]; exact smRead_smPut 0 a bs s.hostMem

theorem rqSize_lt (Q : Qp) : (Q.rqTail.toNat + 1) % rqSize Q < 2 ^ 16 := by
  have hle : rqSize Q ≤ 2 ^ 14 := Nat.pow_le_pow_right (by omega) (by omega)
  have hpos : 0 < rqSize Q := Nat.two_pow_pos _
  have := Nat.mod_lt (Q.rqTail.toNat + 1) hpos
  omega

/-- The queue pair once an entry stands at its RQ_TAIL. -/
def rqStep (Q : Qp) : Qp :=
  let t := (Q.rqTail.toNat + 1) % rqSize Q
  { Q with rqTail := BitVec.ofNat 16 t, phase := if t = 0 then !Q.phase else Q.phase }

/-- An entry of a reply queue in host memory: its bytes, the queue pair stepped on, and perhaps an interrupt. -/
theorem qpEntry_host (s : State) (q : Nat) (irq : Bool) (tag : BitVec 16) (kind : Nat) (st op : BitVec 16) (body : List Byte)
    (hloc : (qpOf s q).rqLoc = false) : ∃ r p, qpEntry s q irq tag kind st op body =
      { modQp (hostPut s ((qpOf s q).rqAddr.toNat * 64 + 32 * (qpOf s q).rqTail.toNat)
          (entryHead tag (qpOf s q).phase kind q st op ++ padTo 24 body)) q rqStep with
        host := { (modQp s q rqStep).host with raised := r, msixPending := p } } := by
  unfold qpEntry
  simp only [hloc, locPut, Bool.false_eq_true, if_false]
  split
  · obtain ⟨r, p, h⟩ := raiseVec_frame (modQp (hostPut s ((qpOf s q).rqAddr.toNat * 64 + 32 * (qpOf s q).rqTail.toNat)
      (entryHead tag (qpOf s q).phase kind q st op ++ padTo 24 body)) q rqStep) (qpOf s q).vector
    exact ⟨r, p, h⟩
  · exact ⟨s.host.raised, s.host.msixPending, rfl⟩

/-- Settles O7: `qpEntry_host` names the state that the REPLY leaves. -/
theorem repliesLandInTheirQueue : Obligations.RepliesLandInTheirQueue := by
  intro s q tag irq fence op st detail result hloc h t Q tail
  obtain ⟨r, p, ht⟩ := qpEntry_host s q.toNat irq tag kindReply st op
    (answerBody { status := st, detail := detail, result := result, work := .none }) hloc
  have hq : qpOf t q.toNat = rqStep Q := by
    rw [show qpOf t q.toNat = qpOf (modQp s q.toNat rqStep) q.toNat by rw [show t = _ from ht]; rfl]
    exact qpOf_modQp_same s _ _ q.isLt
  have hmem : t.hostMem = (hostPut s (Q.rqAddr.toNat * 64 + 32 * Q.rqTail.toNat) (entryHead tag Q.phase kindReply q.toNat st op ++
      padTo 24 (answerBody { status := st, detail := detail, result := result, work := .none }))).hostMem := by
    rw [show t = _ from ht]; rfl
  refine ⟨?_, ?_, ?_, ?_, ?_, fun k hk => ?_, by rw [show t = _ from ht]; rfl, by rw [show t = _ from ht]; rfl,
    by rw [show t = _ from ht]; rfl, by rw [show t = _ from ht]; rfl⟩
  · rw [hostGet, hmem, Nat.mul_comm 64]
    refine (hostGet_hostPut s _ _ 32 (by simp)).trans ?_
    rw [padTo_of_length 24 _ (answerBody_length _)]
    simp [entryHead, answerBody, kindReply]
  · rw [hq]; exact Nat.mod_eq_of_lt (rqSize_lt Q)
  · rw [hq]; rfl
  · rw [hq]; rfl
  · rw [hq]; rfl
  · rw [show qpOf t k = qpOf (modQp s q.toNat rqStep) k by rw [show t = _ from ht]; rfl]
    exact qpOf_modQp_other s _ k _ hk

/-! ### The mailbox -/

/-- The mailbox's entry: its bytes with a free PHASE bit, BUSY 0, and perhaps an interrupt. -/
theorem mboxEntry_eq (s : State) (tag st op : BitVec 16) (body : List Byte) : ∃ r p,
    mboxEntry s tag st op body = { s with
      freeCount := s.freeCount + 1
      host := { s.host with
        mbox := { s.host.mbox with
          reply := BitVec.ofNat 256 (leNat (entryHead tag ((freeBits 1 s).1 == 1) kindReply 0xFF st op ++ padTo 24 body))
          busy := false }
        raised := r, msixPending := p } } := by
  unfold mboxEntry
  dsimp only [freeBits, modHost]
  generalize BitVec.ofNat 256 (leNat _) = entry
  split
  · obtain ⟨r, p, h⟩ := raiseVec_frame { s with
      freeCount := s.freeCount + 1
      host := { s.host with mbox := { s.host.mbox with reply := entry, busy := false } } } s.host.irq.mboxVec
    exact ⟨r, p, h⟩
  · exact ⟨s.host.raised, s.host.msixPending, rfl⟩

/-- Settles O8: `mboxEntry_eq` names the state with the final entry; an accepted long command lists its work alone. -/
theorem theMailboxAnswersWhenAllIsDone : Obligations.TheMailboxAnswersWhenAllIsDone := by
  intro s tag irq fence op a k h entry done
  obtain ⟨r, p, hd⟩ := mboxEntry_eq s tag a.status op (answerBody a)
  have hd : done = _ := hd
  refine ⟨fun hw => ?_, ⟨(freeBits 1 s).1 == 1, ?_⟩, by rw [hd], by rw [hd], by rw [hd], by rw [hd], by rw [hd], by rw [hd],
    fun hw => ?_⟩
  · simp [writeReply, hw, h, done, writeDone]
  · rw [hd, padTo_of_length 24 _ (answerBody_length a)]
    simp [entry, entryHead, answerBody, kindReply]
  · simp [writeReply, hw, h, modHost]

/-! ### RECOVERY -/

theorem command_recovery (h : Hdr) (op : BitVec 16) (f : State → Answer × State) (s : State) (hs : s.power.state = .recovery)
    (hm : h.src = .mbox) (hop : recoveryTakes op = false) : command h op f s = writeReply s h op (ansFail stNotReady) := by
  simp [command, docentUp, hs, hm, hop]

/-- Settles O6: every meaning of a packet but MODULE_RESET's is a `command`. -/
theorem recoveryRefusesOtherCommands : Obligations.RecoveryRefusesOtherCommands := by
  intro c h op s hc hs hm h1 h2 h3
  have hop : recoveryTakes op = false := by
    rw [recoveryTakes, beq_false_of_ne h1, beq_false_of_ne h2, beq_false_of_ne h3]; rfl
  cases c with
  | moduleResetGalleries h' =>
    rw [Claims.opcodeOf, Option.some.injEq, Prod.mk.injEq] at hc
    exact absurd hc.2.symm h3
  | _ =>
    simp only [Claims.opcodeOf, Option.some.injEq, Prod.mk.injEq, reduceCtorEq] at hc
    all_goals
      obtain ⟨rfl, rfl⟩ := hc
      exact congrArg Host.Outcome.next (command_recovery _ _ _ s hs hm hop)

/-! ### Queue pairs -/

@[simp] theorem hostPutAll_power (ws : HostWrites) (s : State) : (hostPutAll s ws).power = s.power := by
  unfold hostPutAll
  induction ws generalizing s with
  | nil => rfl
  | cons w ws ih => exact (ih _).trans (hostPut_power s _ _)

theorem hubRuns_hostPutAll (ws : HostWrites) (s : State) : hubRuns (hostPutAll s ws) = hubRuns s := by
  simp [hubRuns]

/-- The logs of CXL_QP_CTRL are taken while the queue pair is idle. -/
theorem writeQpCtrl_logs (v : Nat) (Q : Qp) :
    ((writeQpCtrl v Q).rqLog = if qpIdle Q then BitVec.ofNat 5 (fieldAt v 16 5) else Q.rqLog) ∧
    ((writeQpCtrl v Q).sqLog = if qpIdle Q then BitVec.ofNat 5 (fieldAt v 8 5) else Q.sqLog) := by
  unfold writeQpCtrl
  split <;> dsimp only <;> split <;> exact ⟨rfl, rfl⟩

theorem writeQpCtrl_fields (v : Nat) (Q : Qp) : (writeQpCtrl v Q).enable = bitAt v 0 ∧ (writeQpCtrl v Q).irqEn = bitAt v 1 ∧
    (writeQpCtrl v Q).vector = BitVec.ofNat 6 (fieldAt v 24 6) := by
  unfold writeQpCtrl
  cases hv : bitAt v 0 <;> cases qpIdle Q <;> cases hQ : Q.enable <;> simp [hQ]

/-- ENABLE set from 0 restarts the indices and PHASE. -/
theorem writeQpCtrl_restarts (v : Nat) (Q : Qp) (hv : bitAt v 0 = true) (hQ : Q.enable = false) :
    (writeQpCtrl v Q).sqHead = 0 ∧ (writeQpCtrl v Q).sqTail = 0 ∧ (writeQpCtrl v Q).rqTail = 0 ∧ (writeQpCtrl v Q).phase = true := by
  unfold writeQpCtrl
  split <;> simp [hv, hQ]

theorem writeQpCtrl_keeps_indices (v : Nat) (Q : Qp) (h : bitAt v 0 = false ∨ Q.enable = true) :
    (writeQpCtrl v Q).sqHead = Q.sqHead ∧ (writeQpCtrl v Q).sqTail = Q.sqTail ∧ (writeQpCtrl v Q).rqTail = Q.rqTail ∧
      (writeQpCtrl v Q).phase = Q.phase := by
  unfold writeQpCtrl
  split <;> rcases h with h | h <;> simp [h]

/-- Settles O57: a write of CXL_QP_CTRL is `writeQpCtrl` on its queue pair. -/
theorem queuePairsAct : Obligations.QueuePairsAct := by
  intro q v s hs Q
  refine ⟨fun ws => ?_, modQp s q.toNat (writeQpCtrl v.toNat), ?_, fun k hk => qpOf_modQp_other s _ k _ hk, rfl, ?_⟩
  · change Host.Outcome.next (doQpDoorbell q.toNat v.toNat ws s) = _
    rw [doQpDoorbell]
    simp only [hubRuns_hostPutAll, hs, Bool.not_true, Bool.false_eq_true, if_false]
    rfl
  · change Host.Outcome.next (doQpCtrl q.toNat v.toNat s) = _
    rw [doQpCtrl, if_pos hs]
  · rw [qpOf_modQp_same s _ _ q.isLt]
    obtain ⟨henable, hirq, hvec⟩ := writeQpCtrl_fields v.toNat Q
    obtain ⟨hrq, hsq⟩ := writeQpCtrl_logs v.toNat Q
    refine ⟨henable, hirq, hvec, fun hidle => ?_, fun hidle => ?_, writeQpCtrl_restarts v.toNat Q, writeQpCtrl_keeps_indices v.toNat Q⟩
    · rw [if_pos hidle] at hrq hsq
      exact ⟨hrq, hsq⟩
    · rw [if_neg (by simp [hidle])] at hrq hsq
      exact ⟨hrq, hsq⟩

/-! ### Packets that are taken -/

theorem packetCommand_ofPacket (h : Hdr) (op : Nat) (bs : List Byte) (peer : Peer) (c : Instr)
    (e : packetCommand h op bs peer = .run c) : ofPacket c = true := by
  unfold packetCommand at e
  dsimp only at e
  (repeat' split at e) <;> cases e <;> rfl

theorem readPacket_ofPacket (src : Src) (bs : List Byte) (peer : Peer) (c : Instr) (e : readPacket src bs peer = .run c) :
    ofPacket c = true := by
  unfold readPacket at e
  dsimp only at e
  split at e
  · cases e
  · split at e
    · cases e
    · split at e
      · cases e
      · exact packetCommand_ofPacket _ _ _ _ _ e

/-- A packet's command runs as its row does. -/
theorem exec_runPacket (src : Src) (bs : List Byte) (peer : Peer) (c : Instr) (u : State) (e : readPacket src bs peer = .run c) :
    exec c u = .next (runPacket c u) := by
  obtain ⟨t, ht⟩ := exec_next c u
  rw [runPacket, packetMeaning_eq, if_pos (readPacket_ofPacket src bs peer c e), ht]
  rfl

/-- What follows a packet that was read: its refusal, or what its command does. -/
def afterTaken (h : Hdr) (op : BitVec 16) (u : State) : Taken → State
  | .refuse st => writeReply u h op (ansFail st)
  | .run c => runPacket c u

/-- A served queue pair whose packet need not wait steps SQ_HEAD on and runs the packet. -/
theorem doQpTake_served (q : BitVec 6) (peer : Peer) (s : State) (hq : qpServed s q.toNat = true)
    (hf : (packetHdr (.qp q) (qpPacket s q.toNat).1).fence = false ∨ (qpOf s q.toNat).longs = 0) :
    doQpTake q peer s = afterTaken (packetHdr (.qp q) (qpPacket s q.toNat).1) (packetOp (qpPacket s q.toNat).1)
      (modQp (qpPacket s q.toNat).2 q.toNat (fun Q => { Q with sqHead := BitVec.ofNat 16 ((Q.sqHead.toNat + 1) % sqSize Q) }))
      (readPacket (.qp q) (qpPacket s q.toNat).1 peer) := by
  have hgo : ¬((!qpServed s q.toNat || ((packetHdr (.qp q) (qpPacket s q.toNat).1).fence && (qpOf s q.toNat).longs != 0)) = true) := by
    rcases hf with hf | hf <;> simp [hq, hf]
  unfold doQpTake
  dsimp only
  rw [if_neg hgo]
  cases readPacket (.qp q) (qpPacket s q.toNat).1 peer <;> rfl

theorem hubRuns_of_docentUp {s : State} (hd : docentUp s = true) (hp : s.power.perst = false) : hubRuns s = true := by
  simp only [docentUp, Bool.or_eq_true, beq_iff_eq] at hd
  rcases hd with hd | hd <;> simp [hubRuns, hd, hp]

/-- GO with BUSY 0 sets BUSY and runs the packet of CXL_MBOX_CMD. -/
theorem doMboxGo_taken (v : Nat) (peer : Peer) (s : State) (hv : bitAt v 0 = true) (hb : s.host.mbox.busy = false)
    (hd : docentUp s = true) (hp : s.power.perst = false) :
    doMboxGo v peer s = afterTaken (packetHdr .mbox (mboxPacket s)) (packetOp (mboxPacket s))
      (modHost s (fun h => { h with mbox := { h.mbox with busy := true } })) (readPacket .mbox (mboxPacket s) peer) := by
  have hgo : ¬((!bitAt v 0 || s.host.mbox.busy || !firmwareRuns s || !hubRuns s) = true) := by
    simp [hv, hb, firmwareRuns, hd, hubRuns_of_docentUp hd hp]
  have hup : docentUp (modHost s (fun h => { h with mbox := { h.mbox with busy := true } })) = true := hd
  unfold doMboxGo
  dsimp only
  rw [if_neg hgo, hup]
  cases readPacket .mbox (mboxPacket s) peer <;> rfl

/-- Settles O58: what is taken runs as `afterTaken` says. -/
theorem packetsAreRun : Obligations.PacketsAreRun := by
  intro peer s
  refine ⟨?_, ?_⟩
  · intro q hq hf bs u
    have htake := congrArg (Host.Outcome.next (φ := Fault) (ρ := Refusal)) (doQpTake_served q peer s hq hf)
    refine ⟨fun c e => ⟨runPacket c u, ?_, exec_runPacket _ _ _ c u e⟩, fun st e => ?_⟩
    · rw [show readPacket (.qp q) (qpPacket s q.toNat).1 peer = _ from e] at htake
      exact htake
    · rw [show readPacket (.qp q) (qpPacket s q.toNat).1 peer = _ from e] at htake
      exact htake
  · intro v hv hb hd hp bs u
    have htake := congrArg (Host.Outcome.next (φ := Fault) (ρ := Refusal)) (doMboxGo_taken v.toNat peer s hv hb hd hp)
    refine ⟨fun c e => ⟨runPacket c u, ?_, exec_runPacket _ _ _ c u e⟩, fun st e => ?_⟩
    · rw [show readPacket .mbox (mboxPacket s) peer = _ from e] at htake
      exact htake
    · rw [show readPacket .mbox (mboxPacket s) peer = _ from e] at htake
      exact htake

end Sys2Proof.Machine
end

section
/-!
PROOF. What accesses to device memory and the Docent's entries leave alone: all of the state but the memories, the ECC records, the
queue pairs' indices, the mailbox, the vectors sent and the lists of long commands and of lines that the host may cache.
-/

namespace Sys2Proof.Machine

/-- The state beside what an access to device memory touches: HBM's content and error records, ranges, the taps that count them, the
lines that the host may cache, and the index of free values. -/
def besideMem (s : State) : State :=
  { s with
    freeCount := 0
    hbm := { s.hbm with mem := [], weak := [], dead := [], fixes := [], stks := Hbm.reset.stks }
    host := { s.host with hostLines := [] }
    health := { s.health with taps := Health.reset.taps } }

/-- The state beside what an entry of the Docent touches as well: host memory, queue pairs, mailbox, long commands and interrupts. -/
def besideEntries (s : State) : State :=
  { besideMem s with
    hostMem := []
    host := { (besideMem s).host with
      qps := HostPort.reset.qps, mbox := HostPort.reset.mbox, longWork := [], raised := [], msixPending := 0 } }

theorem besideEntries_of_besideMem {s t : State} (h : besideMem t = besideMem s) : besideEntries t = besideEntries s := by
  unfold besideEntries
  rw [h]

theorem besideMem_foldl {α : Type} (f : State → α → State) (h : ∀ x a, besideMem (f x a) = besideMem x) (l : List α) (s : State) :
    besideMem (l.foldl f s) = besideMem s := by
  induction l generalizing s with
  | nil => rfl
  | cons a l ih => exact (ih _).trans (h s a)

theorem besideMem_foldRange (n : Nat) (f : Nat → State → State) (h : ∀ i x, besideMem (f i x) = besideMem x) (s : State) :
    besideMem (foldRange n f s) = besideMem s := besideMem_foldl _ (fun x i => h i x) _ s

/-! ### Accesses to device memory -/

@[simp] theorem besideMem_modStk (s k f) : besideMem (modStk s k f) = besideMem s := rfl
@[simp] theorem besideMem_snoopLine (s line) : besideMem (snoopLine s line) = besideMem s := rfl
@[simp] theorem besideMem_snoopRange (a n s) : besideMem (snoopRange a n s) = besideMem s := rfl
@[simp] theorem besideMem_freeBits (w s) : besideMem (freeBits w s).2 = besideMem s := rfl
@[simp] theorem besideMem_freeBytes (n s) : besideMem (freeBytes n s).2 = besideMem s := rfl
@[simp] theorem besideMem_countUe (source line s) : besideMem (countUe source line s) = besideMem s := rfl
@[simp] theorem besideMem_countCe (line s) : besideMem (countCe line s) = besideMem s := rfl

@[simp] theorem besideMem_readLineEcc (source line s) : besideMem (readLineEcc source line s).2 = besideMem s := by
  unfold readLineEcc
  split
  · rfl
  · split
    · exact besideMem_countUe source line s
    · split
      · exact besideMem_countCe line s
      · rfl

@[simp] theorem besideMem_eccLines (source hit s) : besideMem (eccLines source hit s) = besideMem s := by
  unfold eccLines
  exact (besideMem_foldl _ (fun x l => besideMem_countCe l x) _ _).trans (besideMem_foldl _ (fun x l => besideMem_countUe source l x) _ _)

@[simp] theorem besideMem_noteLines (source hit s) : besideMem (noteLines source hit s) = besideMem s := by
  unfold noteLines
  exact besideMem_eccLines source hit _

@[simp] theorem besideMem_noteRange (source a n s) : besideMem (noteRange source a n s) = besideMem s := besideMem_noteLines _ _ s

@[simp] theorem besideMem_docentRead (a n s) : besideMem (docentRead a n s).2 = besideMem s := by
  unfold docentRead
  split
  · exact besideMem_noteRange 2 a n s
  · exact besideMem_noteRange 2 a n s

@[simp] theorem besideMem_readLinesEcc (source n l s) : besideMem (readLinesEcc source n l s).2 = besideMem s := by
  induction n generalizing l s with
  | zero => rfl
  | succ n ih =>
    have h : besideMem (readLineEcc source l (snoopLine s l)).2 = besideMem s := besideMem_readLineEcc source l (snoopLine s l)
    unfold readLinesEcc
    dsimp only
    split
    · exact h
    · exact (ih _ _).trans h

@[simp] theorem besideMem_hubRead (s a n) : besideMem (hubRead s a n).2.2 = besideMem s := by
  unfold hubRead
  split
  · rfl
  · dsimp only
    split <;> exact besideMem_readLinesEcc ..

@[simp] theorem besideMem_hbmSetByte (s a b) : besideMem (hbmSetByte s a b) = besideMem s := by
  unfold hbmSetByte
  split <;> rfl

@[simp] theorem besideMem_hbmSetBytes (a bs s) : besideMem (hbmSetBytes a bs s) = besideMem s := by
  induction bs generalizing a s with
  | nil => rfl
  | cons b bs ih => exact (ih _ _).trans (besideMem_hbmSetByte s a b)

@[simp] theorem besideMem_hbmPutBytes (a bs s) : besideMem (hbmPutBytes a bs s) = besideMem s := by
  unfold hbmPutBytes
  split
  · rfl
  · exact besideMem_hbmSetBytes a bs s

@[simp] theorem besideMem_hubWriteLine (s a bs) : besideMem (hubWriteLine s a bs).2 = besideMem s := by
  unfold hubWriteLine
  dsimp only
  split
  · split
    · rfl
    · exact besideMem_hbmPutBytes a bs _
  · split
    · exact besideMem_hbmPutBytes a bs _
    · split
      · exact besideMem_readLineEcc ..
      · exact (besideMem_hbmPutBytes a bs _).trans (besideMem_readLineEcc 2 (lineOf a) (snoopLine s (lineOf a)))

@[simp] theorem besideMem_hubWriteFrom (n a bs d s) : besideMem (hubWriteFrom n a bs d s).2 = besideMem s := by
  induction n generalizing a bs d s with
  | zero => rfl
  | succ n ih =>
    unfold hubWriteFrom
    split
    · rfl
    · dsimp only
      split
      · exact (ih ..).trans (besideMem_hubWriteLine ..)
      · exact besideMem_hubWriteLine ..

@[simp] theorem besideMem_hubWrite (s a bs) : besideMem (hubWrite s a bs).2 = besideMem s := besideMem_hubWriteFrom _ a bs 0 s

@[simp] theorem besideMem_locRead (hbm a n s) : besideMem (locRead hbm a n s).2 = besideMem s := by
  unfold locRead
  split
  · exact besideMem_docentRead a n s
  · rfl

/-! ### Entries of the Catalogue -/

@[simp] theorem besideMem_putEnt (i x s) : besideMem (putEnt i x s) = besideMem s := besideMem_hubWriteLine ..
@[simp] theorem besideMem_modEnt (i f s) : besideMem (modEnt i f s) = besideMem s := besideMem_putEnt ..
@[simp] theorem besideMem_readEnts (cats s) : besideMem (readEnts cats s) = besideMem s :=
  besideMem_foldl _ (fun x i => besideMem_noteRange 2 (entAddr x i) 64 x) cats s

/-! ### Entries of the Docent -/

@[simp] theorem besideEntries_modQp (s q f) : besideEntries (modQp s q f) = besideEntries s := rfl
@[simp] theorem besideEntries_hostPut (s a bs) : besideEntries (hostPut s a bs) = besideEntries s := rfl

@[simp] theorem besideEntries_raiseVec (s v) : besideEntries (raiseVec s v) = besideEntries s := by
  obtain ⟨r, p, h⟩ := raiseVec_frame s v
  rw [h]; rfl

@[simp] theorem besideEntries_raiseEvent (s) : besideEntries (raiseEvent s) = besideEntries s := by
  unfold raiseEvent
  split
  · exact besideEntries_raiseVec ..
  · rfl

@[simp] theorem besideEntries_locPut (s hbm a bs) : besideEntries (locPut s hbm a bs) = besideEntries s := by
  unfold locPut
  split
  · exact besideEntries_of_besideMem (besideMem_hubWrite s a bs)
  · rfl

@[simp] theorem besideEntries_qpEntry (s q irq tag kind st op body) :
    besideEntries (qpEntry s q irq tag kind st op body) = besideEntries s := by
  have h (a bs f) : besideEntries (modQp (locPut s (qpOf s q).rqLoc a bs) q f) = besideEntries s := besideEntries_locPut ..
  unfold qpEntry
  dsimp only
  split
  · exact (besideEntries_raiseVec ..).trans (h ..)
  · exact h ..

@[simp] theorem besideEntries_mboxEntry (s tag st op body) : besideEntries (mboxEntry s tag st op body) = besideEntries s := by
  obtain ⟨r, p, h⟩ := mboxEntry_eq s tag st op body
  rw [h]; rfl

@[simp] theorem besideEntries_longWork (s : State) (f : HostPort → List LongWork) :
    besideEntries (modHost s (fun p => { p with longWork := f p })) = besideEntries s := rfl

@[simp] theorem besideEntries_writeReply (s h op a) : besideEntries (writeReply s h op a) = besideEntries s := by
  unfold writeReply
  split
  · exact besideEntries_qpEntry ..
  · rw [besideEntries_longWork, besideEntries_modQp, besideEntries_qpEntry]
  · exact besideEntries_mboxEntry ..
  · rfl

@[simp] theorem besideEntries_writeDone (s h op a) : besideEntries (writeDone s h op a) = besideEntries s := by
  unfold writeDone
  split
  · rw [besideEntries_qpEntry, besideEntries_modQp]
  · exact besideEntries_mboxEntry ..

/-! ### A change of the power state -/

theorem raiseEvent_frame (s : State) : ∃ r p, raiseEvent s = { s with host := { s.host with raised := r, msixPending := p } } := by
  unfold raiseEvent
  split
  · exact raiseVec_frame _ _
  · exact ⟨s.host.raised, s.host.msixPending, rfl⟩

theorem setPowerState_frame (s : State) (p : PowerState) : ∃ r q, setPowerState s p =
    { s with power := { s.power with state := p }, host := { s.host with raised := r, msixPending := q } } := by
  unfold setPowerState
  split
  · rename_i h
    exact ⟨s.host.raised, s.host.msixPending, by rw [← h]⟩
  · exact raiseEvent_frame _

end Sys2Proof.Machine
end

section
/-!
PROOF. The commands of the module (16 Table 16-6; 20): IDENTIFY, the start and stop of the galleries, training, and the reset of the
galleries.
-/

namespace Sys2Proof.Machine

/-- A command that the Docent takes runs its meaning and writes its REPLY. -/
theorem command_up (h : Hdr) (op : BitVec 16) (f : State → Answer × State) (s : State) (hd : docentUp s = true) :
    command h op f s = writeReply (f s).2 h op (f s).1 := by
  rw [command, if_pos hd]

/-- The same as the outcome of a meaning. -/
theorem next_command (h : Hdr) (op : BitVec 16) (f : State → Answer × State) (s : State) (hd : docentUp s = true) (a : Answer) (t : State)
    (hf : f s = (a, t)) : (Host.Outcome.next (command h op f s) : Out) = .next (writeReply t h op a) := by
  rw [command_up h op f s hd, hf]

/-! ### The parts of the state that `besideEntries` keeps -/

section
variable {s t : State} (h : besideEntries t = besideEntries s)
include h

theorem pending_of_beside : t.pending = s.pending := (congrArg State.pending h :)
theorem fuses_of_beside : t.fuses = s.fuses := (congrArg State.fuses h :)
theorem flash_of_beside : t.flash = s.flash := (congrArg State.flash h :)
theorem time_of_beside : t.time = s.time := (congrArg State.time h :)
theorem gals_of_beside : t.gals = s.gals := (congrArg State.gals h :)
theorem bridge_of_beside : t.bridge = s.bridge := (congrArg State.bridge h :)
theorem useLog_of_beside : t.useLog = s.useLog := (congrArg State.useLog h :)
theorem held_of_beside : t.held = s.held := (congrArg State.held h :)
theorem cat_of_beside : t.cat = s.cat := (congrArg State.cat h :)
theorem rst_of_beside : t.rst = s.rst := (congrArg State.rst h :)
theorem tours_of_beside : t.tours = s.tours := (congrArg State.tours h :)
theorem booked_of_beside : t.booked = s.booked := (congrArg State.booked h :)
theorem dma_of_beside : t.dma = s.dma := (congrArg State.dma h :)
theorem vault_of_beside : t.vault = s.vault := (congrArg State.vault h :)
theorem fab_of_beside : t.fab = s.fab := (congrArg State.fab h :)
theorem drbg_of_beside : t.drbg = s.drbg := (congrArg State.drbg h :)
theorem sec_of_beside : t.sec = s.sec := (congrArg State.sec h :)
theorem power_of_beside : t.power = s.power := (congrArg State.power h :)
theorem mon_of_beside : t.mon = s.mon := (congrArg State.mon h :)

end

/-! ### GALLERIES_START -/

theorem trainedOrDue_full (s : State) (h : s.hbm.trained = 0xFF) : trainedOrDue s = 0xFF := by
  have key (l : List LongWork) : l.foldl (fun m w => match w.kind with | .hbmTrain k => m ||| k | _ => m) (0xFF : BitVec 8) = 0xFF := by
    induction l with
    | nil => rfl
    | cons w l ih =>
      rw [List.foldl_cons]
      split
      · rwa [show (0xFF : BitVec 8) ||| _ = 0xFF from BitVec.allOnes_or]
      · exact ih
  rw [trainedOrDue, h]
  exact key _

/-! ### Lock bits -/

theorem lockGalleries_zero (v : Quad) : lockGalleries v 0 = v &&& 0xFFFFFFFF00000000 := by
  simp [lockGalleries]

theorem lockBridge_lockGalleries_zero (v : Quad) : lockBridge (lockGalleries v 0) 0 = v &&& 0xFFFFFCFF00000000 := by
  rw [lockGalleries_zero, lockBridge]
  simp [BitVec.and_assoc]

/-! ### The reset of the galleries -/

theorem besideMem_poisonCabinetEntries (s : State) : besideMem (poisonCabinetEntries s) = besideMem s := by
  unfold poisonCabinetEntries
  split
  · rfl
  · refine besideMem_foldl _ (fun x i => ?_) _ s
    split
    · exact besideMem_modEnt ..
    · rfl

theorem winOf_closeCabinetWindows (s : State) (w : Nat) (hw : w < 64) :
    winOf (closeCabinetWindows s) w = if (winOf s w).cabinet then LoanWindow.closed else winOf s w :=
  vget_map _ _ _ _ hw

/-- A reset of the galleries while the Docent runs, in terms of the state `p` whose cabinet entries are poisoned. -/
theorem galleriesReset_eq (s : State) (hd : docentUp s = true) : ∃ p r q, besideMem p = besideMem (clearGalleries s) ∧
    galleriesReset s = { closeCabinetWindows p with
      rst := { p.rst with enabled := false, scratch := 0, refill := false }
      time := { p.time with islandLock := p.time.islandLock &&& 0xFFFFFCFF00000000 }
      power := { p.power with resetCause := 3, state := .idle }
      host := { p.host with raised := r, msixPending := q } } := by
  have hp := besideMem_poisonCabinetEntries (clearGalleries s)
  revert hp
  rw [galleriesReset]
  generalize poisonCabinetEntries (clearGalleries s) = p
  intro hp
  have hpower : p.power = (clearGalleries s).power := power_of_beside (besideEntries_of_besideMem hp)
  dsimp only
  rw [if_pos]
  · obtain ⟨r, q, e⟩ := setPowerState_frame (modPower (modTime (closeCabinetWindows { p with
      rst := { p.rst with enabled := false, scratch := 0, refill := false } })
        (fun t => { t with islandLock := lockBridge (lockGalleries t.islandLock 0) 0 })) (fun p => { p with resetCause := 3 })) .idle
    refine ⟨p, r, q, hp, e.trans ?_⟩
    rw [← lockBridge_lockGalleries_zero]
    rfl
  · show docentUp p = true
    rw [docentUp, hpower]
    exact hd

/-- Settles O9: the reset leaves what `galleriesReset_eq` says. -/
theorem moduleCommandsRun : Obligations.ModuleCommandsRun := by
  refine ⟨fun h s hd => ?_, fun h s hd => ⟨fun htr => ?_, fun stks => ?_, fun hlive => ?_⟩, ?_⟩
  · exact next_command h _ _ s hd _ s rfl
  · exact next_command h _ _ s hd _ s (by rw [doGalleriesStart, if_pos (trainedOrDue_full s htr)])
  · exact next_command h _ _ s hd _ s rfl
  · refine next_command h _ _ s hd _ _ ?_
    rw [doGalleriesStop, if_neg (by simp [hlive]), gateGalleries]
    simp only [lockGalleries_zero]
    rfl
  · intro h s hd hlive hstage u
    have hbusy : galleriesBusy s = false := by simp [galleriesBusy, hlive, checkpointBusy, hstage]
    have hu : resetGalleries h s = galleriesReset u := by
      rw [resetGalleries, command_up h _ _ s hd]
      simp only [hbusy, commandTaken, hd, Bool.true_or, Bool.not_false, Bool.and_self, if_true, Bool.false_eq_true, if_false]
      rfl
    have hentries : besideEntries u = besideEntries s := besideEntries_writeReply s h _ ansOk
    have hud : docentUp u = true := by rw [docentUp, power_of_beside hentries]; exact hd
    obtain ⟨p, r, q, hp, e⟩ := galleriesReset_eq u hud
    have hps : besideEntries p = besideEntries (clearGalleries s) :=
      (besideEntries_of_besideMem hp).trans (congrArg clearGalleries hentries)
    have hwin (w : Nat) : winOf p w = winOf s w := by
      rw [winOf, fab_of_beside hps]
      rfl
    refine ⟨galleriesReset u, congrArg Host.Outcome.next hu, ?_⟩
    rw [e]
    refine ⟨fun g hg => ?_, rfl, fun w hw hc => ?_, fun w hw hc => ?_, ?_, rfl, rfl, ?_, ?_, ?_, ?_, ?_, ?_, ?_, ?_, ?_, ?_, ?_⟩
    · have hgals : p.gals = Vector.replicate 32 Gallery.reset := gals_of_beside hps
      simp [galOf, closeCabinetWindows, hgals, vget, hg]
    · exact (winOf_closeCabinetWindows p w hw).trans (by rw [hwin, hc, if_pos rfl])
    · exact (winOf_closeCabinetWindows p w hw).trans (by rw [hwin, hc, if_neg (by simp)])
    · have htime : p.time = s.time := (time_of_beside hps :)
      show p.time.islandLock &&& _ = _
      rw [htime]
    · exact (fuses_of_beside hps :)
    · exact (flash_of_beside hps :)
    · exact (vault_of_beside hps :)
    · exact (congrArg State.hostMem hp :)
    · exact (congrArg (fun x => x.host.qps) hp :)
    · exact (congrArg (fun x => x.host.mbox) hp :)
    · exact (tours_of_beside hps :)
    · exact (sec_of_beside hps :)
    · exact (drbg_of_beside hps :)
    · exact (dma_of_beside hps :)
    · exact (pending_of_beside hps :)

end Sys2Proof.Machine
end

section
/-!
PROOF. The Catalogue (06): device memory without an atomic range, the entries that the Docent writes, and the commands of the Catalogue.
-/

namespace Sys2Proof.Machine

/-! ### Device memory in which no atomic range is open -/

theorem ranges_none {s : State} (h : Claims.noRanges s) (k i : Nat) : vget (stkOf s k).ranges i .none = .none := by
  by_cases hi : i < 16
  · by_cases hk : k < 8
    · exact h k hk i hi
    · have e : stkOf s k = Stack.reset := by simp [stkOf, vget, Nat.le_of_not_lt hk]
      simp [e, Stack.reset, vget, hi]
  · simp [vget, Nat.le_of_not_lt hi]

theorem noRange_of_noRanges {s : State} (h : Claims.noRanges s) (k : Nat) : noRange s k = true := by
  rw [noRange, List.all_eq_true]
  intro r hr
  obtain ⟨i, hi, rfl⟩ := List.mem_iff_getElem.mp hr
  have hi' : i < 16 := by simpa using hi
  have e := ranges_none h k i
  rw [vget, Vector.getElem?_eq_getElem hi', Option.getD_some] at e
  simp [e]

theorem findRange_of_noRanges {s : State} (h : Claims.noRanges s) (a : Nat) : findRange s a = .none := by
  rw [findRange]
  simp [List.findSome?_eq_none_iff, ranges_none h]

theorem hbmPutBytes_of_noRanges {s : State} (h : Claims.noRanges s) (a : Nat) (bs : List Byte) :
    hbmPutBytes a bs s = { s with hbm := { s.hbm with mem := smPut 0 a bs s.hbm.mem } } := by
  rw [hbmPutBytes, noRange_of_noRanges h, noRange_of_noRanges h]
  rfl

theorem hbmGet_of_noRanges {s : State} (h : Claims.noRanges s) (a n : Nat) : hbmGet s a n = smRead 0 a n s.hbm.mem := by
  rw [hbmGet, noRange_of_noRanges h, noRange_of_noRanges h]
  rfl

/-- A whole line written where no atomic range is open: its bytes stand, and its errors go. -/
theorem hubWriteLine_whole {s : State} (h : Claims.noRanges s) (a : Nat) (bs : List Byte) (hbs : bs.length = 64) :
    hubWriteLine s a bs = (true, { snoopLine s (lineOf a) with hbm := { s.hbm with
      mem := smPut 0 a bs s.hbm.mem
      weak := s.hbm.weak.filter (· ≠ lineOf a)
      dead := s.hbm.dead.filter (· ≠ lineOf a) } }) := by
  have hs : Claims.noRanges (snoopLine s (lineOf a)) := h
  rw [hubWriteLine]
  simp only [findRange_of_noRanges hs, hbs, if_true]
  rw [hbmPutBytes_of_noRanges]
  · rfl
  · exact h

/-! ### Bytes of an entry -/

theorem leNat_leBytes (n v : Nat) : leNat (leBytes n v) = v % 256 ^ n := by
  induction n generalizing v with
  | zero => simp [leBytes, leNat, Nat.mod_one]
  | succ n ih => rw [leBytes, leNat, ih, BitVec.toNat_ofNat, Nat.pow_succ' (n := n) (m := 256), show 2 ^ 8 = 256 from rfl, Nat.mod_mul]

theorem entWords_length (x : CatEnt) : (entWords x).length = 8 := rfl

theorem entBody_length (x : CatEnt) : (((entWords x).flatMap (fun w => leBytes 8 w)).take 60).length = 60 := by
  simp [List.length_flatMap, entWords]

@[simp] theorem entBytes_length (x : CatEnt) : (entBytes x).length = 64 := by
  simp only [entBytes, List.length_append, entBody_length, leBytes_length]

theorem crc32c_lt (bs : List Byte) : crc32c bs < 256 ^ 4 := BitVec.isLt _

/-- The CRC of the bytes 0x00 to 0x3B of an entry stands behind them. -/
theorem entBytes_crc (x : CatEnt) : crc32c ((entBytes x).take 60) = leNat ((entBytes x).drop 60) := by
  have h := entBody_length x
  rw [entBytes]
  generalize ((entWords x).flatMap (fun w => leBytes 8 w)).take 60 = body at h
  rw [List.take_left' h, List.drop_left' h, leNat_leBytes, Nat.mod_eq_of_lt (crc32c_lt body)]

theorem entCrcOk_of_bytes {s : State} {i : Nat} {x : CatEnt} (h : hbmGet s (entAddr s i) 64 = entBytes x) : entCrcOk s i = true := by
  rw [entCrcOk, h, entBytes_crc]
  exact beq_self_eq_true _

theorem putEnt_of_noRanges {s : State} (h : Claims.noRanges s) (i : Nat) (x : CatEnt) : ∃ y, putEnt i x s =
    { snoopLine s (lineOf (entAddr s i)) with hbm := { s.hbm with
      mem := smPut 0 (entAddr s i) (entBytes y) s.hbm.mem
      weak := s.hbm.weak.filter (· ≠ lineOf (entAddr s i))
      dead := s.hbm.dead.filter (· ≠ lineOf (entAddr s i)) } } :=
  ⟨_, by rw [putEnt, hubWriteLine_whole h _ _ (entBytes_length _)]⟩

theorem noRanges_putEnt {s : State} (h : Claims.noRanges s) (i : Nat) (x : CatEnt) : Claims.noRanges (putEnt i x s) := by
  obtain ⟨y, e⟩ := putEnt_of_noRanges h i x
  rw [e]
  exact h

/-- Settles O16: an entry is written whole (`putEnt_of_noRanges`), with the CRC of its own bytes. -/
theorem entryWritesKeepTheirCrc : Obligations.EntryWritesKeepTheirCrc := by
  intro i x s hr
  obtain ⟨y, e⟩ := putEnt_of_noRanges hr i x
  have hmem : (putEnt i x s).hbm.mem = smPut 0 (entAddr s i) (entBytes y) s.hbm.mem := by rw [e]
  have haddr : entAddr (putEnt i x s) i = entAddr s i := by rw [e]; rfl
  refine ⟨entCrcOk_of_bytes (x := y) ?_, fun a ha => ?_, by rw [e]; rfl, by rw [e]; rfl, by rw [e]; rfl⟩
  · have hread := smRead_smPut 0 (entAddr s i) (entBytes y) s.hbm.mem
    rw [entBytes_length] at hread
    rw [hbmGet_of_noRanges (noRanges_putEnt hr i x), hmem, haddr, hread]
  · rw [hmem]
    exact smGet_smPut_out 0 _ a _ _ (by rw [entBytes_length]; exact ha)

/-! ### CATALOGUE_CREATE -/

theorem smCells_append (d : Byte) (k : Nat) (xs ys : List Byte) :
    smCells d k (xs ++ ys) = smCells d k xs ++ smCells d (k + xs.length) ys := by
  induction xs generalizing k with
  | nil => rfl
  | cons x xs ih =>
    have e : k + (x :: xs).length = k + 1 + xs.length := by rw [List.length_cons]; omega
    rw [List.cons_append, smCells, smCells, ih, e]
    split <;> rfl

/-- Lines written one behind another are cells written at once. -/
theorem flatMap_smCells (a n : Nat) (fe : List Byte) (hfe : fe.length = 64) :
    (List.range n).flatMap (fun i => smCells 0 (a + 64 * i) fe) = smCells 0 a (List.replicate n fe).flatten := by
  induction n with
  | zero => rfl
  | succ n ih =>
    have hlen : (List.replicate n fe).flatten.length = 64 * n := by simp [hfe, Nat.mul_comm]
    rw [List.range_succ, List.flatMap_append, ih, List.replicate_succ', List.flatten_append, smCells_append, hlen]
    simp

theorem flatten_replicate_get (n i k : Nat) (fe : List Byte) (hfe : fe.length = 64) (hi : i < n) (hk : k < 64) :
    (List.replicate n fe).flatten.getD (64 * i + k) 0 = fe.getD k 0 := by
  induction n generalizing i with
  | zero => omega
  | succ n ih =>
    rw [List.replicate_succ, List.flatten_cons]
    cases i with
    | zero => rw [List.getD_append _ _ _ _ (by omega), Nat.mul_zero, Nat.zero_add]
    | succ i => rw [List.getD_append_right _ _ _ _ (by omega), hfe, show 64 * (i + 1) + k - 64 = 64 * i + k by omega, ih i (by omega)]

/-- The bytes of a free entry: zeros, and their CRC. -/
theorem entBytes_freeEnt : entBytes freeEnt = List.replicate 60 0 ++ leBytes 4 (crc32c (List.replicate 60 0)) := by
  have h : ((entWords freeEnt).flatMap (fun w => leBytes 8 w)).take 60 = List.replicate 60 0 := by decide
  rw [entBytes, h]

theorem freeBytes_getD (k : Nat) : (entBytes freeEnt).getD k 0 =
    if k < 60 then 0 else (leBytes 4 (crc32c (List.replicate 60 0))).getD (k - 60) 0 := by
  rw [entBytes_freeEnt]
  split
  · rename_i hk
    rw [List.getD_append _ _ _ _ (by simpa using hk)]
    rw [List.getD_eq_getElem _ _ (by simpa using hk), List.getElem_replicate]
  · rename_i hk
    rw [List.getD_append_right _ _ _ _ (by simpa using hk)]
    simp

theorem freeEntries_length : (List.replicate catCount (entBytes freeEnt)).flatten.length = 2 ^ 24 := by
  rw [List.length_flatten, List.map_replicate, List.sum_replicate, entBytes_length]
  rfl

/-- What `writeFree` leaves where no atomic range is open. -/
theorem writeFree_of_noRanges {s : State} (h : Claims.noRanges s) (addr : Nat) : writeFree addr s =
    { snoopRange addr (2 ^ 24) s with hbm := { s.hbm with
      mem := smPut 0 addr (List.replicate catCount (entBytes freeEnt)).flatten s.hbm.mem
      weak := s.hbm.weak.filter (fun l => !inLines addr (2 ^ 24) l)
      dead := s.hbm.dead.filter (fun l => !inLines addr (2 ^ 24) l) } } := by
  rw [writeFree]
  simp only [noRange_of_noRanges h, if_true]
  have hlen := freeEntries_length
  rw [smPut, hlen, flatMap_smCells _ _ _ (entBytes_length _)]
  rfl

/-- Settles O15. -/
theorem catalogueCreateWritesFreeEntries : Obligations.CatalogueCreateWritesFreeEntries := by
  intro h addr s hd halign hfits hnone husable hr
  have hdo : doCatalogueCreate addr.toNat s =
      (ansLong (.catalogueCreate addr.toNat), writeFree addr.toNat { s with cat := { s.cat with base := addr.toNat } }) := by
    rw [doCatalogueCreate, if_neg (by simp only [hbmBytes]; omega), if_neg (by rw [hnone, husable]; decide)]
  have hlen := freeEntries_length
  rw [writeFree_of_noRanges (s := { s with cat := { s.cat with base := addr.toNat } }) hr] at hdo
  refine ⟨_, next_command h _ _ s hd _ _ hdo, fun i hi k hk => ?_, fun a ha => ?_, fun l => ?_, rfl, rfl, rfl, rfl, rfl⟩
  · have hin : 64 * i + k < (List.replicate catCount (entBytes freeEnt)).flatten.length := by rw [hlen]; omega
    rw [← freeBytes_getD, ← flatten_replicate_get catCount i k _ (entBytes_length freeEnt) hi hk, Nat.add_assoc]
    refine (smGet_smPut_in 0 _ _ _ _ hin).trans ?_
    rw [List.getD_eq_getElem _ _ hin]
  · exact smGet_smPut_out 0 _ a _ _ (by rw [hlen]; exact ha)
  · show l ∈ s.hbm.dead.filter _ ↔ _
    rw [List.mem_filter, inLines]
    simp only [Bool.not_and, Bool.or_eq_true, Bool.not_eq_true', decide_eq_false_iff_not]
    constructor <;> rintro ⟨hl, hout⟩ <;> refine ⟨hl, ?_⟩ <;> omega

end Sys2Proof.Machine
end

section
/-!
PROOF. The commands of the Catalogue that register, update and release objects (06).
-/

namespace Sys2Proof.Machine

/-! ### OBJECT_REGISTER -/

/-- What OBJECT_REGISTER looks at before the parameter block. -/
structure RegisterTakes (s : State) (idx a : Nat) : Prop where
  exists_ : catExists s = true
  master  : s.host.busMaster = true
  index   : idx < 262144
  free    : (catEnt s idx).kind = 0
  locked  : (catEnt s idx).locked = false
  sound   : templateOk (numGal s) (leNat (hostGet s a 64)) = true
  object  : objectOk (readEnt (leNat (hostGet s a 64))) = true

/-- A template of one of the four kinds that OBJECT_REGISTER takes. -/
theorem doObjectRegister_of_takes {s : State} {idx a : Nat} (h : RegisterTakes s idx a) (pa pn : Nat) (x : CatEnt)
    (hx : readEnt (leNat (hostGet s a 64)) = x) (hk : x.kind = 1 ∨ x.kind = 2 ∨ x.kind = 4 ∨ x.kind = 5) :
    doObjectRegister idx a pa pn s =
      if pn = 0 then
        if x.kind = 4 ∨ x.kind = 5 then
          (ansRes (leBytes 8 0), putEnt idx { x with tag := 0, poisoned := false, locked := false, loading := false } s)
        else (ansFail stBadParam, s)
      else if !pbOk (hostGet s pa pn) || !agrees x (hostGet s pa pn) then (ansFail stBadParam, s)
      else (ansRes (leBytes 8 (provTag (hostGet s pa pn)).toNat), keepBlock (provTag (hostGet s pa pn)) (hostGet s pa pn)
        (putEnt idx { x with tag := provTag (hostGet s pa pn), poisoned := false, locked := false, loading := false } s)) := by
  have hready : ¬((!catExists s || !hostReady s) = true) := by simp [h.exists_, hostReady, h.master]
  have hfree : ¬(catCount ≤ idx ∨ (catEnt s idx).kind ≠ kindFree ∨ (catEnt s idx).locked = true) := by
    rintro (h1 | h1 | h1)
    · exact absurd h.index (Nat.not_lt.mpr h1)
    · exact h1 h.free
    · rw [h.locked] at h1; exact absurd h1 (by decide)
  have hkind : ¬((!templateOk (numGal s) (leNat (hostGet s a 64)) || !objectOk x || x.kind == kindFree || x.kind == kindKey ||
      decide (kindLwe < x.kind)) = true) := by
    rw [h.sound, ← hx, h.object, hx]
    rcases hk with hk | hk | hk | hk <;> rw [hk] <;> decide
  rw [doObjectRegister, if_neg hready, if_neg hfree]
  simp only [hx]
  rw [if_neg hkind]
  rfl

/-! ### OBJECT_UPDATE -/

/-- The template of an update disagrees with the block kept under the entry's tag. -/
theorem doObjectUpdate_disagrees {s : State} {idx a : Nat} (hc : catExists s = true) (hm : s.host.busMaster = true) (hi : idx < 262144)
    (ht : (catEnt s idx).tag ≠ 0) (p : List Byte) (hp : blockOf s (catEnt s idx).tag = some p)
    (hno : agrees (readEnt (leNat (hostGet s a 64))) p = false) : doObjectUpdate idx a s = (ansFail stBadParam, s) := by
  rw [doObjectUpdate, if_neg (by simp [hc, hostReady, hm]), if_neg (by simpa [catCount] using hi)]
  dsimp only
  have hdis : (if (catEnt s idx).tag = 0 then false else match blockOf s (catEnt s idx).tag with
      | some b => !agrees (readEnt (leNat (hostGet s a 64))) b | .none => false) = true := by
    rw [if_neg ht, hp]
    show (!agrees _ p) = true
    rw [hno]; rfl
  rw [if_pos]
  simp only [Bool.or_eq_true]
  exact .inl (.inr hdis)

theorem doObjectUpdate_agrees {s : State} {idx a : Nat} (hc : catExists s = true) (hm : s.host.busMaster = true) (hi : idx < 262144)
    (c x : CatEnt) (hce : catEnt s idx = c) (hx : readEnt (leNat (hostGet s a 64)) = x) (hl : c.locked = false) (hkind : c.kind ≠ 0)
    (hsame : x.kind = c.kind) (hsound : templateOk (numGal s) (leNat (hostGet s a 64)) = true)
    (hkey : c.kind = 3 →
      x.keyKind = c.keyKind ∧ x.dnum = c.dnum ∧ x.autoA = c.autoA ∧ x.levelMin = c.levelMin ∧ x.levelMax = c.levelMax)
    (hobj : c.kind ≠ 3 → objectOk x = true) (htag : c.tag = 0 ∨ ∀ p, blockOf s c.tag = some p → agrees x p = true) (t : State)
    (ht : t = putEnt idx { x with
      tag := c.tag, epoch := c.epoch, locked := c.locked, loading := c.loading, exhausted := c.exhausted || x.exhausted } s) :
    doObjectUpdate idx a s = (ansRes (leBytes 4 (catEnt t idx).gen), t) := by
  have hagree : (if c.tag = 0 then false else match blockOf s c.tag with | some b => !agrees x b | .none => false) = false := by
    rcases htag with h0 | hall
    · rw [if_pos h0]
    · split
      · rfl
      · split
        · rename_i b hb
          rw [hall b hb]; rfl
        · rfl
  have hfields : (if c.kind = kindKey then !(x.keyKind == c.keyKind && x.dnum == c.dnum && x.autoA == c.autoA &&
      x.levelMin == c.levelMin && x.levelMax == c.levelMax) else !objectOk x) = false := by
    split
    · rename_i h3
      obtain ⟨h1, h2, h3, h4, h5⟩ := hkey h3
      simp [h1, h2, h3, h4, h5]
    · rename_i h3
      rw [hobj h3]; rfl
  rw [doObjectUpdate, if_neg (by simp [hc, hostReady, hm]), if_neg (by simpa [catCount] using hi)]
  simp only [hce, hx]
  rw [if_neg, ← ht]
  rw [hfields]
  simp only [hl, hsame, hsound, kindFree, beq_eq_false_iff_ne.mpr hkind, bne_self_eq_false, Bool.not_true, Bool.false_or, Bool.or_false]
  rw [Bool.not_eq_true]
  exact hagree

/-- Settles O17. -/
theorem catalogueCommandsRun : Obligations.CatalogueCommandsRun := by
  intro h idx a pa pn count s hd e x b c
  refine ⟨fun hc hm hi hf hl hs ho => ?_, ?_, ?_, ?_, ?_⟩
  · have htakes : RegisterTakes s idx.toNat a.toNat := ⟨hc, hm, hi, hf, hl, hs, ho⟩
    refine ⟨fun hn hk => next_command h _ _ s hd _ _ ?_, fun hn hk hpb hag => next_command h _ _ s hd _ _ ?_⟩
    · rw [doObjectRegister_of_takes htakes pa.toNat pn.toNat x rfl (.inr (.inr hk)), if_pos hn, if_pos hk]
    · rw [doObjectRegister_of_takes htakes pa.toNat pn.toNat x rfl hk, if_neg hn, if_neg]
      rw [show pbOk _ = true from hpb, show agrees x _ = true from hag]
      decide
  · intro hc hm hi hl hk hsame hs hkey hobj htag y t
    exact next_command h _ _ s hd _ _ (doObjectUpdate_agrees hc hm hi c x rfl rfl hl hk hsame hs hkey hobj htag t rfl)
  · intro hc hm hi ht hno hsome
    obtain ⟨p, hp⟩ := Option.ne_none_iff_exists'.mp hsome
    exact next_command h _ _ s hd _ _ (doObjectUpdate_disagrees hc hm hi ht p hp (hno p hp))
  · intro hc h0 hi hl
    refine next_command h _ _ s hd _ _ ?_
    rw [doObjectRelease, if_neg (by simp [hc]), if_neg]
    · rfl
    · rintro (h | h | h)
      · omega
      · simp only [catCount] at h; omega
      · obtain ⟨i, hi, hlocked⟩ := List.any_eq_true.mp h
        rw [hl i (List.mem_range.mp hi)] at hlocked
        exact absurd hlocked (by decide)
  · intro hm hlive
    refine next_command h _ _ s hd _ _ ?_
    rw [doCostTableLoad, if_neg (by simp [hostReady, hm, hlive])]

/-! ### KEY_REGISTER -/

theorem isRefresh_iff (b : List Byte) :
    ((khKind b == 0x10 || khKind b == 0x11 || khKind b == 0x12) = true) = (khKind b = 0x10 ∨ khKind b = 0x11 ∨ khKind b = 0x12) := by
  simp only [Bool.or_eq_true, beq_iff_eq, or_assoc]

/-- Settles O18: each refusal of KEY_REGISTER in its order. -/
theorem keyRegisterAnswers : Obligations.KeyRegisterAnswers := by
  intro h idx space addr pa pn s hd hc hm hi hf hl hspace pb r b refresh d check hpb hr
  have hidx : ¬(catCount ≤ idx.toNat ∨ (catEnt s idx.toNat).kind ≠ kindFree ∨ (catEnt s idx.toNat).locked = true ∨
      (space.toNat ≠ 0 ∧ space.toNat ≠ 2)) := by
    rintro (h1 | h1 | h1 | h1)
    · exact absurd hi (Nat.not_lt.mpr h1)
    · exact h1 hf
    · rw [hl] at h1; exact absurd h1 (by decide)
    · rcases hspace with rfl | rfl
      · exact h1.1 rfl
      · exact h1.2 rfl
  have hspace0 : (space.toNat = 0) = (space = 0) := by
    rw [← BitVec.toNat_inj]; rfl
  have hdo : doKeyRegister idx.toNat space.toNat addr.toNat pa.toNat pn.toNat s =
      if d.1.1 ≠ stOk then (ansFail d.1.1, d.2)
      else if check ≠ stOk then (ansFail check, countRefusal check d.2)
      else if space = 0 ∧ 618475290624 < addr.toNat + 1024 + khBody b then (ansFail stAddressRange, d.2)
      else (ansRes (leBytes 8 (provTag pb).toNat), keepBlock (provTag pb) pb (putEnt idx.toNat
        (keyEnt space.toNat addr.toNat b pb (provTag pb) (khBody b)) d.2)) := by
    rw [doKeyRegister, if_neg (by simp [hc, hostReady, hm]), if_neg hidx]
    dsimp only
    rw [if_neg (by rw [show pbOk _ = true from hpb]; decide), if_neg (not_not.mpr hr)]
    simp only [isRefresh_iff, hspace0]
    rfl
  change Host.Outcome.next (command h 0x0400 _ s) = _
  rw [command_up h _ _ s hd, hdo]
  split
  · rfl
  · split
    · rfl
    · split <;> rfl

end Sys2Proof.Machine
end

section
/-!
PROOF. Regions of the cabinets (04): their declaration, their release and their fills, and the regions that Restoration takes (07).
-/

namespace Sys2Proof.Machine

theorem numGal_le (s : State) : numGal s ≤ 32 := by
  rw [numGal]
  exact (List.length_filter_le _ _).trans (by simp)

/-! ### The engine's busy bit -/

theorem galOf_modCabRegs (s : State) (g k : Nat) (f : CabRegs → CabRegs) :
    ∃ c, galOf (modCabRegs s g f) k = { galOf s k with cabRegs := c } := by
  by_cases hk : k = g
  · subst hk
    by_cases h : k < 32
    · exact ⟨_, galOf_modGal_same s k _ h⟩
    · exact ⟨(galOf s k).cabRegs, by simp [galOf, modCabRegs, modGal, setGal, vget, vset, Nat.le_of_not_lt h]⟩
  · exact ⟨(galOf s k).cabRegs, galOf_modGal_other s g k _ hk⟩

theorem galOf_freeEngine (g : Nat) (s : State) (k : Nat) : ∃ c, galOf (freeEngine g s) k = { galOf s k with cabRegs := c } :=
  galOf_modCabRegs ..

@[simp] theorem fills_freeEngine (g s k) : (galOf (freeEngine g s) k).fills = (galOf s k).fills := by
  obtain ⟨c, h⟩ := galOf_freeEngine g s k
  rw [h]

@[simp] theorem cab_freeEngine (g s k) : (galOf (freeEngine g s) k).cab = (galOf s k).cab := by
  obtain ⟨c, h⟩ := galOf_freeEngine g s k
  rw [h]

@[simp] theorem regions_freeEngine (g s k) : (galOf (freeEngine g s) k).regions = (galOf s k).regions := by
  obtain ⟨c, h⟩ := galOf_freeEngine g s k
  rw [h]

@[simp] theorem regs_freeEngine (g s k) : (galOf (freeEngine g s) k).regs = (galOf s k).regs := by
  obtain ⟨c, h⟩ := galOf_freeEngine g s k
  rw [h]

theorem galOf_freeEngine_other (g s k) (h : k ≠ g) : galOf (freeEngine g s) k = galOf s k := galOf_modGal_other s g k _ h

@[simp] theorem rgnOf_freeEngine (g s k m) : rgnOf (freeEngine g s) k m = rgnOf s k m := by
  rw [rgnOf, rgnOf, regions_freeEngine]

@[simp] theorem cabWord_freeEngine (g s k pa) : cabWord (freeEngine g s) k pa = cabWord s k pa := by
  rw [cabWord, cabWord, cab_freeEngine]

theorem freeEngine_frame (g : Nat) (s : State) : freeEngine g s = { s with gals := (freeEngine g s).gals } := rfl

/-! ### One region of a gallery -/

theorem galOf_setRgn_other (s : State) (g j k : Nat) (x : Region) (h : k ≠ g) : galOf (setRgn s g j x) k = galOf s k :=
  galOf_modGal_other s g k _ h

theorem galOf_setRgn_same (s : State) (g j : Nat) (x : Region) (h : g < 32) :
    galOf (setRgn s g j x) g = { galOf s g with regions := vset (galOf s g).regions j x } := galOf_modGal_same s g _ h

theorem cab_setRgn (s : State) (g j k : Nat) (x : Region) (h : g < 32) : (galOf (setRgn s g j x) k).cab = (galOf s k).cab := by
  by_cases hk : k = g
  · subst hk; rw [galOf_setRgn_same s k j x h]
  · rw [galOf_setRgn_other s g j k x hk]

theorem fills_setRgn (s : State) (g j k : Nat) (x : Region) (h : g < 32) : (galOf (setRgn s g j x) k).fills = (galOf s k).fills := by
  by_cases hk : k = g
  · subst hk; rw [galOf_setRgn_same s k j x h]
  · rw [galOf_setRgn_other s g j k x hk]

/-! ### The fills of a gallery -/

theorem galOf_startFill_other (g : Nat) (f : CabFill) (s : State) (k : Nat) (h : k ≠ g) : galOf (startFill g f s) k = galOf s k :=
  (galOf_freeEngine_other g _ k h).trans (galOf_modGal_other s g k _ h)

theorem fills_startFill (g : Nat) (f : CabFill) (s : State) (h : g < 32) :
    (galOf (startFill g f s) g).fills = (galOf s g).fills ++ [f] := by
  rw [startFill, fills_freeEngine, galOf_modGal_same s g _ h]

/-- The fills of gallery `g` change in no other part of its state. -/
theorem parts_modFills (s : State) (g k : Nat) (f : List CabFill → List CabFill) :
    (galOf (modGal s g (fun x => { x with fills := f x.fills })) k).cab = (galOf s k).cab ∧
    (galOf (modGal s g (fun x => { x with fills := f x.fills })) k).regions = (galOf s k).regions ∧
    (galOf (modGal s g (fun x => { x with fills := f x.fills })) k).regs = (galOf s k).regs := by
  by_cases hk : k = g
  · subst hk
    by_cases h : k < 32
    · rw [galOf_modGal_same s k _ h]; exact ⟨rfl, rfl, rfl⟩
    · simp [galOf, modGal, setGal, vget, vset, Nat.le_of_not_lt h]
  · rw [galOf_modGal_other s g k _ hk]; exact ⟨rfl, rfl, rfl⟩

theorem cab_startFill (g f s k) : (galOf (startFill g f s) k).cab = (galOf s k).cab := by
  rw [startFill, cab_freeEngine]; exact (parts_modFills s g k (· ++ [f])).1

theorem regions_startFill (g f s k) : (galOf (startFill g f s) k).regions = (galOf s k).regions := by
  rw [startFill, regions_freeEngine]; exact (parts_modFills s g k (· ++ [f])).2.1

theorem regs_startFill (g f s k) : (galOf (startFill g f s) k).regs = (galOf s k).regs := by
  rw [startFill, regs_freeEngine]; exact (parts_modFills s g k (· ++ [f])).2.2

/-! ### REGION_RELEASE -/

/-- The state in which the fills of a region that is released and its registration to groups have ended. -/
def dropRgnUses (g j : Nat) (s : State) : State :=
  let s := { s with fab := { s.fab with groups := s.fab.groups.map (fun x => { x with regions := x.regions.filter (· ≠ (g, j)) }) } }
  freeEngine g (modGal s g (fun x => { x with fills := dropFills j x.fills }))

theorem releaseRgn_eq (g j : Nat) (s : State) : releaseRgn g j s =
    if (rgnOf s g j).isSealed then
      startFill g { region := j, value := 0, rows := (rgnOf s g j).rows.toNat, chunk := 0, release := true }
        (setRgn (dropRgnUses g j s) g j { rgnOf s g j with valid := false, zeroizing := true, ready := false })
    else setRgn (dropRgnUses g j s) g j Region.none := rfl

theorem parts_dropRgnUses (g j : Nat) (s : State) (k : Nat) :
    (galOf (dropRgnUses g j s) k).cab = (galOf s k).cab ∧ (galOf (dropRgnUses g j s) k).regions = (galOf s k).regions := by
  unfold dropRgnUses
  dsimp only
  rw [cab_freeEngine, regions_freeEngine]
  obtain ⟨hcab, hregions, -⟩ := parts_modFills { s with fab := { s.fab with
    groups := s.fab.groups.map (fun x => { x with regions := x.regions.filter (· ≠ (g, j)) }) } } g k (dropFills j)
  exact ⟨hcab, hregions⟩

theorem fills_dropRgnUses (g j : Nat) (s : State) (hg : g < 32) :
    (galOf (dropRgnUses g j s) g).fills = (galOf s g).fills.filter (fun f => f.region != j) := by
  unfold dropRgnUses
  dsimp only
  rw [fills_freeEngine, galOf_modGal_same _ g _ hg]
  rfl

theorem galOf_dropRgnUses_other (g j : Nat) (s : State) (k : Nat) (h : k ≠ g) : galOf (dropRgnUses g j s) k = galOf s k :=
  (galOf_freeEngine_other g _ k h).trans (galOf_modGal_other _ g k _ h)

theorem groupOf_setRgn (s : State) (g j : Nat) (x : Region) (k : Nat) : groupOf (setRgn s g j x) k = groupOf s k := rfl

theorem groupOf_startFill (g : Nat) (f : CabFill) (s : State) (k : Nat) : groupOf (startFill g f s) k = groupOf s k := rfl

/-- Nothing but galleries and party groups changed from `s` to `t`. -/
def OnlyGroupsAndGals (s t : State) : Prop :=
  t = { s with gals := t.gals, fab := { s.fab with groups := t.fab.groups } }

theorem onlyGroupsAndGals_dropRgnUses (g j : Nat) (s : State) : OnlyGroupsAndGals s (dropRgnUses g j s) := rfl

theorem onlyGroupsAndGals_modGal {s t : State} (g : Nat) (f : Gallery → Gallery) (h : OnlyGroupsAndGals s t) :
    OnlyGroupsAndGals s (modGal t g f) := by
  rw [OnlyGroupsAndGals] at h
  rw [h]
  rfl

theorem onlyGroupsAndGals_setRgn {s t : State} (g j : Nat) (x : Region) (h : OnlyGroupsAndGals s t) :
    OnlyGroupsAndGals s (setRgn t g j x) := onlyGroupsAndGals_modGal g _ h

theorem onlyGroupsAndGals_startFill {s t : State} (g : Nat) (f : CabFill) (h : OnlyGroupsAndGals s t) :
    OnlyGroupsAndGals s (startFill g f t) := by
  rw [startFill, freeEngine, modCabRegs]
  exact onlyGroupsAndGals_modGal g _ (onlyGroupsAndGals_modGal g _ h)

/-- What a release leaves of regions, words, other galleries and group registrations. -/
theorem releaseRgn_frame (g j : Nat) (s : State) (hg : g < 32) :
    (∀ k m, (k, m) ≠ (g, j) → rgnOf (releaseRgn g j s) k m = rgnOf s k m) ∧
    (∀ k pa, cabWord (releaseRgn g j s) k pa = cabWord s k pa) ∧ (∀ k, k ≠ g → galOf (releaseRgn g j s) k = galOf s k) ∧
    (∀ k < 4, (groupOf (releaseRgn g j s) k).regions = (groupOf s k).regions.filter (· ≠ (g, j))) ∧
    releaseRgn g j s = { s with
      gals := (releaseRgn g j s).gals, fab := { s.fab with groups := (releaseRgn g j s).fab.groups } } := by
  have hgroup (k : Nat) (hk : k < 4) : (groupOf (dropRgnUses g j s) k).regions = (groupOf s k).regions.filter (· ≠ (g, j)) :=
    congrArg Group.regions (vget_map s.fab.groups k Group.empty _ hk)
  have hrgn (x : Region) (k m : Nat) (h : (k, m) ≠ (g, j)) : rgnOf (setRgn (dropRgnUses g j s) g j x) k m = rgnOf s k m := by
    rw [rgnOf_setRgn_other _ g j k m x h hg, rgnOf, (parts_dropRgnUses g j s k).2, rgnOf]
  have hcab (x : Region) (k : Nat) : (galOf (setRgn (dropRgnUses g j s) g j x) k).cab = (galOf s k).cab := by
    rw [cab_setRgn _ g j k x hg, (parts_dropRgnUses g j s k).1]
  have hgal (x : Region) (k : Nat) (h : k ≠ g) : galOf (setRgn (dropRgnUses g j s) g j x) k = galOf s k := by
    rw [galOf_setRgn_other _ g j k x h, galOf_dropRgnUses_other g j s k h]
  rw [releaseRgn_eq]
  split
  · refine ⟨fun k m h => ?_, fun k pa => ?_, fun k h => ?_, fun k h => ?_, ?_⟩
    · rw [rgnOf, regions_startFill]
      exact hrgn _ k m h
    · rw [cabWord, cab_startFill, hcab, cabWord]
    · rw [galOf_startFill_other _ _ _ k h, hgal _ k h]
    · rw [groupOf_startFill, groupOf_setRgn, hgroup k h]
    · exact onlyGroupsAndGals_startFill _ _ (onlyGroupsAndGals_setRgn _ _ _ (onlyGroupsAndGals_dropRgnUses g j s))
  · refine ⟨hrgn Region.none, fun k pa => ?_, hgal Region.none, fun k h => ?_, ?_⟩
    · rw [cabWord, hcab, cabWord]
    · rw [groupOf_setRgn, hgroup k h]
    · exact onlyGroupsAndGals_setRgn _ _ _ (onlyGroupsAndGals_dropRgnUses g j s)

theorem releaseRgn_plain (g j : Nat) (s : State) (hg : g < 32) (hj : j < 64) (h : (rgnOf s g j).isSealed = false) :
    rgnOf (releaseRgn g j s) g j = Region.none ∧
      (galOf (releaseRgn g j s) g).fills = (galOf s g).fills.filter (fun f => f.region != j) := by
  rw [releaseRgn_eq, if_neg (by simp [h])]
  exact ⟨rgnOf_setRgn_same _ g j _ hg hj, by rw [fills_setRgn _ g j g _ hg, fills_dropRgnUses g j s hg]⟩

theorem releaseRgn_sealed (g j : Nat) (s : State) (hg : g < 32) (hj : j < 64) (h : (rgnOf s g j).isSealed = true) :
    rgnOf (releaseRgn g j s) g j = { rgnOf s g j with valid := false, zeroizing := true, ready := false } ∧
      (galOf (releaseRgn g j s) g).fills = (galOf s g).fills.filter (fun f => f.region != j) ++
        [{ region := j, value := 0, rows := (rgnOf s g j).rows.toNat, chunk := 0, release := true }] := by
  rw [releaseRgn_eq, if_pos h]
  refine ⟨?_, ?_⟩
  · rw [rgnOf, regions_startFill]
    exact rgnOf_setRgn_same _ g j _ hg hj
  · rw [fills_startFill _ _ _ hg, fills_setRgn _ g j g _ hg, fills_dropRgnUses g j s hg]

theorem toNat_beq_one (v : BitVec 8) : (v.toNat == 1) = (v == 1) := by
  rw [Bool.eq_iff_iff, beq_iff_eq, beq_iff_eq, ← BitVec.toNat_inj]
  rfl

/-- Settles O12. -/
theorem regionCommandsRun : Obligations.RegionCommandsRun := by
  intro h g j s hd hg hj hres hnamed
  have hg32 : g.toNat < 32 := lt_of_lt_of_le hg (numGal_le s)
  refine ⟨fun mode feed isSealed base rows wblk hm hf hse hr0 hrows hw0 hw1 hdbg hfree htaken => ?_, fun hv => ?_⟩
  · refine next_command h _ _ s hd _ _ ?_
    have hmode0 : (mode.toNat == 0 && wblk.toNat != 0) = false := by
      by_cases h0 : mode = 0
      · simp [hw0 h0]
      · have : mode.toNat ≠ 0 := fun e => h0 (BitVec.eq_of_toNat_eq e)
        simp [this]
    have hmode1 : (mode.toNat == 1 && (wblk.toNat == 0 || decide (512 < wblk.toNat) || rows.toNat % wblk.toNat != 0)) = false := by
      by_cases h1 : mode = 1
      · obtain ⟨hpos, hmax, hmul⟩ := hw1 h1
        simp [Nat.ne_of_gt hpos, Nat.not_lt.mpr hmax, hmul]
      · have : mode.toNat ≠ 1 := fun e => h1 (BitVec.eq_of_toNat_eq e)
        simp [this]
    have hdebug : ¬((isSealed.toNat == 1 && s.sec.debug) = true) := by
      rw [Bool.and_eq_true, beq_iff_eq]
      rintro ⟨h1, h2⟩
      rw [hdbg (BitVec.eq_of_toNat_eq h1)] at h2
      exact absurd h2 (by decide)
    rw [doRegionDeclare, if_neg, if_neg hdebug]
    · simp only [newRegion, toNat_beq_one]
    · rw [hmode0, hmode1, hfree, hres, hnamed, htaken]
      simp only [Bool.or_eq_true, decide_eq_true_eq, beq_iff_eq, Bool.false_eq_true, or_false]
      omega
  · dsimp only
    have hdecl : declared s g.toNat j.toNat = true := by simp [declared, hg, hj, hv]
    refine ⟨⟨releaseRgn g.toNat j.toNat s, next_command h _ _ s hd _ _ ?_, ?_⟩, fun v hclk =>
      ⟨startFill g.toNat _ s, next_command h _ _ s hd _ _ ?_, fills_startFill g.toNat _ s hg32, cab_startFill .., regions_startFill ..,
        regs_startFill .., galOf_startFill_other g.toNat _ s, rfl⟩⟩
    · rw [doRegionRelease, if_neg (by simp [hdecl, hres, hnamed])]
    · obtain ⟨h1, h2, h3, h4, h5⟩ := releaseRgn_frame g.toNat j.toNat s hg32
      exact ⟨h1, h2, h3, h4, releaseRgn_plain g.toNat j.toNat s hg32 hj, releaseRgn_sealed g.toNat j.toNat s hg32 hj, h5⟩
    · rw [doRegionFill, if_neg (by simp [hdecl, hres, hnamed]), if_neg (by simp [hclk])]

/-! ### The regions of Restoration -/

/-- B60 to B63 of a gallery declared for Restoration. -/
def declareScratch (g : Nat) (x : State) : State :=
  let x := setRgn x g 60 (newRegion true 0 false 8192 1024 1)
  let x := setRgn x g 61 (newRegion true 0 false 9216 1024 1)
  let x := setRgn x g 62 (newRegion false 0 false 10240 1024 0)
  setRgn x g 63 (newRegion false 0 false 11264 1024 0)

theorem galOf_declareScratch_other (g : Nat) (s : State) (k : Nat) (h : k ≠ g) : galOf (declareScratch g s) k = galOf s k := by
  simp only [declareScratch, galOf_setRgn_other _ g _ k _ h]

theorem galOf_declareScratch_same (g : Nat) (s : State) (hg : g < 32) : galOf (declareScratch g s) g = { galOf s g with
    regions := vset (vset (vset (vset (galOf s g).regions 60 (newRegion true 0 false 8192 1024 1)) 61
      (newRegion true 0 false 9216 1024 1)) 62 (newRegion false 0 false 10240 1024 0)) 63 (newRegion false 0 false 11264 1024 0) } := by
  simp only [declareScratch, galOf_setRgn_same _ g _ _ hg]

/-- What a pass over the galleries leaves of one that it reaches, where each round touches its own gallery alone. -/
theorem galOf_foldRange {n : Nat} (f : Nat → State → State) (hf : ∀ i x k, k ≠ i → galOf (f i x) k = galOf x k) (s : State) (k : Nat) :
    (n ≤ k → galOf (foldRange n f s) k = galOf s k) ∧
    (k < n → ∃ x, galOf x k = galOf s k ∧ galOf (foldRange n f s) k = galOf (f k x) k) := by
  induction n with
  | zero => exact ⟨fun _ => rfl, fun h => absurd h (Nat.not_lt_zero k)⟩
  | succ n ih =>
    have e : foldRange (n + 1) f s = f n (foldRange n f s) := by simp [foldRange, List.range_succ]
    rw [e]
    refine ⟨fun h => by rw [hf n _ k (by omega), ih.1 (by omega)], fun h => ?_⟩
    by_cases hk : k = n
    · subst hk
      exact ⟨foldRange k f s, ih.1 (Nat.le_refl k), rfl⟩
    · obtain ⟨x, hx, hfx⟩ := ih.2 (by omega)
      exact ⟨x, hx, by rw [hf n _ k hk, hfx]⟩

theorem foldRange_keeps {α : Type} (proj : State → α) (n : Nat) (f : Nat → State → State) (hf : ∀ i x, proj (f i x) = proj x)
    (s : State) : proj (foldRange n f s) = proj s := by
  rw [foldRange]
  induction List.range n generalizing s with
  | nil => rfl
  | cons i l ih => exact (ih _).trans (hf i s)

theorem hbm_declareScratch (g : Nat) (s : State) : (declareScratch g s).hbm = s.hbm := rfl

theorem rst_declareScratch (g : Nat) (s : State) : (declareScratch g s).rst = s.rst := rfl

theorem hostMem_declareScratch (g : Nat) (s : State) : (declareScratch g s).hostMem = s.hostMem := rfl

theorem tours_declareScratch (g : Nat) (s : State) : (declareScratch g s).tours = s.tours := rfl

/-- Settles O14. -/
theorem restorationCommandsRun : Obligations.RestorationCommandsRun := by
  intro h s hd
  refine ⟨fun addr halign hfits hcat hholds hlive husable hfree => ?_, fun hlive => next_command h _ _ s hd _ _ ?_⟩
  · have hblocked : (List.range (numGal s)).any (fun g =>
        rowsTaken s g 8192 4096 || (List.range 4).any (fun i => holdsRows (rgnOf s g (60 + i)))) = false := by
      rw [List.any_eq_false]
      intro g hg
      obtain ⟨hrows, hrgn⟩ := hfree g (List.mem_range.mp hg)
      rw [hrows, Bool.false_or, List.any_eq_true]
      rintro ⟨i, hi, h⟩
      rw [hrgn i (List.mem_range.mp hi)] at h
      exact absurd h (by decide)
    have hdo : doRestorationEnable addr.toNat s =
        (ansLong (.restorationEnable addr.toNat), foldRange (numGal s) declareScratch s) := by
      rw [doRestorationEnable]
      dsimp only
      rw [if_neg, if_neg]
      · rfl
      · rw [hholds, hblocked, hlive, scratchBytes, husable]; decide
      · rintro (h1 | h1 | ⟨h1, h2, h3⟩)
        · exact h1 halign
        · exact absurd h1 (Nat.not_lt.mpr hfits)
        · rcases hcat h1 with h4 | h4 <;> simp only [scratchBytes] at h3 <;> omega
    refine ⟨_, next_command h _ _ s hd _ _ hdo, fun g hg => ?_, foldRange_keeps State.hbm (numGal s) declareScratch hbm_declareScratch s,
      foldRange_keeps State.rst (numGal s) declareScratch rst_declareScratch s, foldRange_keeps State.hostMem (numGal s) declareScratch hostMem_declareScratch s,
      foldRange_keeps State.tours (numGal s) declareScratch tours_declareScratch s⟩
    obtain ⟨x, hx, ht⟩ := (galOf_foldRange declareScratch galOf_declareScratch_other s g).2 hg
    rw [galOf_declareScratch_same g x (lt_of_lt_of_le hg (numGal_le s)), hx] at ht
    simp only [rgnOf, ht]
    refine ⟨?_, ?_, ?_, ?_, fun j hj => ?_, trivial⟩
    · rw [vget_vset_other _ _ _ _ _ (by decide), vget_vset_other _ _ _ _ _ (by decide), vget_vset_other _ _ _ _ _ (by decide),
        vget_vset_same _ _ _ _ (by decide)]
      rfl
    · rw [vget_vset_other _ _ _ _ _ (by decide), vget_vset_other _ _ _ _ _ (by decide), vget_vset_same _ _ _ _ (by decide)]
      rfl
    · rw [vget_vset_other _ _ _ _ _ (by decide), vget_vset_same _ _ _ _ (by decide)]
      rfl
    · rw [vget_vset_same _ _ _ _ (by decide)]
      rfl
    · rw [vget_vset_other _ _ _ _ _ (by omega), vget_vset_other _ _ _ _ _ (by omega), vget_vset_other _ _ _ _ _ (by omega),
        vget_vset_other _ _ _ _ _ (by omega)]
  · rw [doRestorationDisable, if_neg (by simp [hlive])]

end Sys2Proof.Machine
end

section
/-!
PROOF. Commands of the monitors (21), of randomness (12) and of loaded tours (10).
-/

namespace Sys2Proof.Machine

/-! ### Capture units -/

theorem clampSample_range (v : Int) : -(2 ^ 31) ≤ clampSample v ∧ clampSample v < 2 ^ 31 := by
  unfold clampSample
  omega

theorem toInt_clampSample (v : Int) : (BitVec.ofInt 32 (clampSample v)).toInt = clampSample v := by
  obtain ⟨hlow, hhigh⟩ := clampSample_range v
  rw [BitVec.toInt_ofInt, Int.bmod_eq_of_le (by omega) (by omega)]

theorem takeSample_min (v : Int) (u : Unit16) : (takeSample v u).min.toInt = min u.min.toInt (clampSample v) := by
  unfold takeSample
  dsimp only
  split
  · rw [toInt_clampSample]; omega
  · omega

theorem takeSample_max (v : Int) (u : Unit16) : (takeSample v u).max.toInt = max u.max.toInt (clampSample v) := by
  unfold takeSample
  dsimp only
  split
  · rw [toInt_clampSample]; omega
  · omega

theorem unitOf_captureFrom (source : Nat) (v : Int) (s : State) (k : Nat) (hk : k < 16) : unitOf (captureFrom source v s) k =
    if (unitOf s k).source.toNat = source ∧ source ≠ 0 then takeSample v (unitOf s k) else unitOf s k :=
  vget_map s.mon.units k Unit16.reset _ hk

theorem unitOf_captureFrom_other (source : BitVec 8) (v : Int) (s : State) (k : Nat) (hk : k < 16)
    (h : (unitOf s k).source ≠ source) : unitOf (captureFrom source.toNat v s) k = unitOf s k := by
  rw [unitOf_captureFrom _ _ _ _ hk, if_neg (fun e => h (BitVec.eq_of_toNat_eq e.1))]

theorem unitOf_captureFrom_fed (source : BitVec 8) (v : Int) (s : State) (k : Nat) (hk : k < 16) (h0 : source ≠ 0)
    (h : (unitOf s k).source = source) : unitOf (captureFrom source.toNat v s) k = takeSample v (unitOf s k) := by
  rw [unitOf_captureFrom _ _ _ _ hk, if_pos ⟨by rw [h], fun e => h0 (BitVec.eq_of_toNat_eq e)⟩]

theorem captureFrom_zero (v : Int) (s : State) : captureFrom 0 v s = s := by
  simp [captureFrom]

theorem tourSource_iff (source : BitVec 8) : tourSource source.toNat = true ↔ source = 0x40 ∨ source = 0x70 ∨ source = 0x71 := by
  simp only [tourSource, Bool.or_eq_true, beq_iff_eq, ← BitVec.toNat_inj]
  exact or_assoc

/-- Settles O19. -/
theorem monitorCommandsRun : Obligations.MonitorCommandsRun := by
  intro h s
  refine ⟨fun unit source shift offset hd hunit hsource hshift => next_command h _ _ s hd _ _ ?_,
    fun addr hd hbus => next_command h _ _ s hd _ _ ?_, fun addr hd hfits husable => next_command h _ _ s hd _ _ ?_,
    fun source v hruns h0 h40 h70 h71 => ⟨captureFrom source.toNat v s, ?_, fun k hk hs => ?_,
      fun k hk hs => unitOf_captureFrom_other source v s k hk hs, rfl⟩,
    fun source v hsource => ?_⟩
  · rw [doMonitorConfig, if_neg (by simp [hunit, hsource, hshift]), BitVec.ofNat_toNat, BitVec.setWidth_eq]
  · simp [doMonitorSnapshot, hostReady, hbus]
  · have hroom : ¬hbmBytes < addr.toNat + snapshotBytes := by rw [hbmBytes, snapshotBytes]; omega
    have hstacks : hbmUsable s addr.toNat snapshotBytes = true := husable
    simp [doMonitorSnapshot, hroom, hstacks]
  · have hown : tourSource source.toNat = false := by
      rw [← Bool.not_eq_true, tourSource_iff]
      rintro (h | h | h)
      exacts [h40 h, h70 h, h71 h]
    rw [exec, execCaptureSample, hruns, hown]
    rfl
  · rw [unitOf_captureFrom_fed source v s k hk h0 hs]
    exact ⟨rfl, takeSample_min v _, takeSample_max v _⟩
  · rw [exec, execCaptureSample]
    rcases hsource with rfl | hown
    · split
      · exact congrArg _ (captureFrom_zero v s)
      · rfl
    · rw [(tourSource_iff source).mpr hown, if_neg (by simp)]

/-! ### Randomness -/

theorem bitAt_toNat {n : Nat} (v : BitVec n) (i : Nat) : bitAt v.toNat i = v.getLsbD i := rfl

/-- A DRBG_FILL in progress. -/
def isDrbgFill (w : LongWork) : Bool := match w.kind with | .drbgFill .. => true | _ => false

theorem stopFills_eq (s : State) : stopFills s = (s.host.longWork.filter isDrbgFill).foldl
    (fun x w => writeDone x w.hdr w.opcode (ansFail stNotReady))
    (modHost s (fun h => { h with longWork := h.longWork.filter (fun w => !isDrbgFill w) })) := rfl

theorem stopFills_of_none (s : State) (h : ∀ w ∈ s.host.longWork, ∀ g j a b n q c, w.kind ≠ .drbgFill g j a b n q c) :
    stopFills s = s := by
  have hnone : ∀ w ∈ s.host.longWork, isDrbgFill w = false := by
    intro w hw
    unfold isDrbgFill
    split
    · next hk => exact absurd hk (h w hw _ _ _ _ _ _ _)
    · rfl
  have hgone : s.host.longWork.filter isDrbgFill = [] := List.filter_eq_nil_iff.mpr (fun w hw => by simp [hnone w hw])
  have hkept : s.host.longWork.filter (fun w => !isDrbgFill w) = s.host.longWork :=
    List.filter_eq_self.mpr (fun w hw => by simp [hnone w hw])
  rw [stopFills_eq, hgone, modHost, hkept]
  rfl

/-- Settles O24. -/
theorem randomnessCommandsRun : Obligations.RandomnessCommandsRun := by
  intro h s
  refine ⟨fun hd => next_command h _ _ s hd _ _ rfl,
    fun g j flags noise count q hd hg hj hflags hres hnoise hdebug hv hsealed hfeed herr hdue hcount => next_command h _ _ s hd _ _ ?_,
    fun g j flags count addr seed lidx hd hflags => ⟨fun hfits hcount husable => next_command h _ _ s hd _ _ ?_,
      fun hdecl hres hsealed hfeed hcount => next_command h _ _ s hd _ _ ?_⟩, fun rep hruns hnone => ?_⟩
  · have hfed : (rgnOf s g.toNat j.toNat).feed ≠ 0#3 := hfeed
    rw [doDrbgFill]
    simp [Nat.not_le.mpr hg, Nat.not_le.mpr hj, Nat.not_le.mpr hflags, hres, hnoise, hdebug, hv, hsealed, hfed, herr, hdue,
      Nat.not_lt.mpr hcount, bitAt_toNat]
  · have hroom : ¬hbmBytes < addr.toNat + 4 * count.toNat := by rw [hbmBytes]; omega
    rw [doGeneratorFill, if_neg (by omega), if_pos (by decide), if_neg hroom, if_neg (by simp [husable]), bitAt_toNat]
  · have hfed : (rgnOf s g.toNat j.toNat).feed ≠ 0#3 := hfeed
    rw [doGeneratorFill, if_neg (by omega), if_neg (by decide), if_pos (by decide)]
    simp [hdecl, hres, hsealed, hfed, Nat.not_lt.mpr hcount, bitAt_toNat]
  · rw [exec, execEsHealthFail, doEsHealthFail, hruns, stopFills_of_none]
    · rfl
    · exact hnone

/-! ### Loaded tours -/

theorem besideMem_unlockEntries (t : Tour) (s : State) : besideMem (unlockEntries t s) = besideMem s := by
  unfold unlockEntries
  refine besideMem_foldl _ (fun x i => ?_) _ s
  split
  · rfl
  · exact besideMem_modEnt ..

theorem tours_unlockEntries (t : Tour) (s : State) : (unlockEntries t s).tours = s.tours :=
  (congrArg State.tours (besideMem_unlockEntries t s) :)

theorem tours_setInactives (st : BankState) (l : List Nat) (s : State) :
    (l.foldl (fun x g => setInactive st g x) s).tours = s.tours := by
  induction l generalizing s with
  | nil => rfl
  | cons g l ih => exact ih (setInactive st g s)

theorem tours_dropTour (t : Tour) (s : State) : (dropTour t s).tours = s.tours.filter (fun o => o.tourId != t.tourId) := by
  rw [dropTour]
  dsimp only
  rw [tours_setInactives, tours_unlockEntries]

theorem tourOf_dropTour_same (t : Tour) (s : State) : tourOf (dropTour t s) t.tourId = .none := by
  rw [tourOf, tours_dropTour, List.find?_eq_none]
  intro o ho
  have := (List.mem_filter.mp ho).2
  simp_all

theorem tourOf_dropTour_other (t : Tour) (s : State) (k : Quad) (h : k ≠ t.tourId) : tourOf (dropTour t s) k = tourOf s k := by
  rw [tourOf, tours_dropTour, List.find?_filter, tourOf]
  congr 1
  funext o
  by_cases ho : o.tourId = k
  · simp [ho, h]
  · simp [ho]

theorem tourId_of_tourOf {s : State} {id : Quad} {t : Tour} (h : tourOf s id = some t) : t.tourId = id := by
  simpa using List.find?_some h

/-- Settles O25. -/
theorem tourCommandsRun : Obligations.TourCommandsRun := by
  intro h id s
  refine ⟨fun t hd ht hstate hload => ⟨next_command h _ _ s hd _ _ ?_, ?_, fun k hk => ?_⟩,
    fun t code hd ht hcode => next_command h _ _ s hd _ _ ?_, fun hd ht => next_command h _ _ s hd _ _ ?_,
    fun i w t st d hw hkind ht => ?_⟩
  · simp [doTourUnload, ht, hstate, hload]
  · rw [← tourId_of_tourOf ht]
    exact tourOf_dropTour_same t s
  · exact tourOf_dropTour_other t s k (tourId_of_tourOf ht ▸ hk)
  · rw [doTourQuery, ht, hcode] <;> rfl
  · rw [doTourQuery, ht]
    rfl
  · rw [exec, execTourLoadDone, doTourLoadDone, hw]
    dsimp only
    rw [hkind]
    dsimp only
    rw [finishTourLoad, show (takeWork i s).2.tours = s.tours from rfl, ht]
    dsimp only
    by_cases hst : st = stOk
    · rw [if_neg (not_not.mpr hst), if_pos hst]
      rfl
    · rw [if_pos hst, if_neg hst]
      rfl

end Sys2Proof.Machine
end

section
/-!
PROOF. Device memory (14): atomic ranges, CXL.mem accesses, and the controls of HBM.
-/

namespace Sys2Proof.Machine

/-! ### Device memory without an error -/

theorem eccLines_of_clean (source : Nat) (hit : Nat → Bool) (s : State) (hdead : s.hbm.dead = []) (hweak : s.hbm.weak = []) :
    eccLines source hit s = s := by
  rw [eccLines, hdead, hweak]
  rfl

theorem noteRange_of_clean (source a n : Nat) (s : State) (hdead : s.hbm.dead = []) (hweak : s.hbm.weak = []) :
    noteRange source a n s = snoopRange a n s := eccLines_of_clean source _ (snoopRange a n s) hdead hweak

/-! ### Atomic ranges -/

theorem find?_range_first (p : Nat → Bool) (n i : Nat) (hi : i < n) (hp : p i = true) (hlt : ∀ j < i, p j = false) :
    (List.range n).find? p = some i := by
  rw [List.find?_range_eq_some]
  exact ⟨hp, List.mem_range.mpr hi, fun j hj => by rw [hlt j hj]; rfl⟩

theorem loadRange_of_clean (i a n q : Nat) (s : State) (hdead : s.hbm.dead = []) (hweak : s.hbm.weak = []) :
    loadRange i a n q s = modStk (snoopRange a n s) (stackOf a) (fun st => { st with ranges := vset st.ranges i (some
      { base := a, length := n, q := BitVec.ofNat 32 q, sram := smSpan a n s.hbm.mem, poisoned := [] }) }) := by
  rw [loadRange, noteRange_of_clean 4 a n s hdead hweak, hdead]
  rfl

theorem writeBack_eq (k i : Nat) (s : State) (r : AtomRange) (h : vget (stkOf s k).ranges i .none = some r) :
    writeBack k i s = modStk { snoopRange r.base r.length s with hbm := { s.hbm with
      mem := s.hbm.mem.filter (fun p => decide (p.1 < r.base)) ++
        (smSpan r.base r.length r.sram ++ s.hbm.mem.filter (fun p => decide (r.base + r.length ≤ p.1))),
      weak := s.hbm.weak.filter (fun l => !inLines r.base r.length l),
      dead := r.poisoned ++ s.hbm.dead.filter (fun l => !inLines r.base r.length l) } } k
      (fun st => { st with ranges := vset st.ranges i .none }) := by
  rw [writeBack, h]
  rfl

/-- What a span that replaces another's place in a memory reads as. -/
theorem smGet_splice (d : Byte) (base n a : Nat) (m r : SMem Byte) :
    smGet d a (m.filter (fun p => decide (p.1 < base)) ++ (smSpan base n r ++ m.filter (fun p => decide (base + n ≤ p.1)))) =
      if base ≤ a ∧ a < base + n then smGet d a r else smGet d a m := by
  have hlow (h : base ≤ a) : ∀ p ∈ m.filter (fun p => decide (p.1 < base)), p.1 ≠ a := fun p hp => by
    have := of_decide_eq_true (List.mem_filter.1 hp).2
    omega
  have hhigh (h : a < base + n) : ∀ p ∈ m.filter (fun p => decide (base + n ≤ p.1)), p.1 ≠ a := fun p hp => by
    have := of_decide_eq_true (List.mem_filter.1 hp).2
    omega
  have hspan (h : ¬(base ≤ a ∧ a < base + n)) : ∀ p ∈ smSpan base n r, p.1 ≠ a := fun p hp e =>
    h (e ▸ of_decide_eq_true (List.mem_filter.1 hp).2)
  split
  · next h =>
    rw [smGet_append_absent d a _ _ (hlow h.1), smGet_append_left d a _ _ (hhigh h.2)]
    exact smGet_filter d a (fun k => decide (base ≤ k ∧ k < base + n)) (decide_eq_true h) r
  · next h =>
    by_cases ha : a < base
    · rw [smGet_append_left d a]
      · exact smGet_filter d a (fun k => decide (k < base)) (decide_eq_true ha) m
      · intro p hp
        rcases List.mem_append.mp hp with hp | hp
        · exact hspan h p hp
        · exact hhigh (by omega) p hp
    · rw [smGet_append_absent d a _ _ (hlow (Nat.le_of_not_lt ha)), smGet_append_absent d a _ _ (hspan h)]
      exact smGet_filter d a (fun k => decide (base + n ≤ k)) (decide_eq_true (by omega)) m

theorem mem_outside (ls ps : List Nat) (base n l : Nat) : l ∈ ps ++ ls.filter (fun l => !inLines base n l) ↔
    l ∈ ps ∨ (l ∈ ls ∧ ¬(base < 64 * l + 64 ∧ 64 * l < base + n)) := by
  simp only [List.mem_append, List.mem_filter, inLines, Bool.not_eq_true', Bool.and_eq_false_iff, decide_eq_false_iff_not,
    Nat.mul_comm l 64, Decidable.not_and_iff_or_not]

/-- Settles O20. -/
theorem atomicRangesOpenAndClose : Obligations.AtomicRangesOpenAndClose := by
  intro h s hd
  refine ⟨fun a n q i hlock hbad husable hhalf hhalf' hdead hweak hi hfree hfirst => next_command h _ _ s hd _ _ ?_,
    fun i k r hk hi hr => ⟨writeBack k.toNat i.toNat s, next_command h _ _ s hd _ _ ?_, ?_⟩⟩
  · have hfind : (List.range 16).find? (fun j => (vget (stkOf s (stackOf a.toNat)).ranges j .none).isNone) = some i := by
      refine find?_range_first _ 16 i hi (by rw [hfree]; rfl) (fun j hj => ?_)
      rw [Option.isNone_eq_false_iff, Option.isSome_iff_ne_none]
      exact hfirst j hj
    rw [doAtomicOpen, if_neg (by simp [hbad]), if_neg (by simp [hlock, husable, hhalf, hhalf']), hfind]
    dsimp only [Option.getD_some]
    rw [loadRange_of_clean _ _ _ _ s hdead hweak, BitVec.ofNat_toNat, BitVec.setWidth_eq]
    rfl
  · rw [doAtomicClose, hr, if_neg (by simp [hk, hi])]
  · rw [writeBack_eq _ _ s r hr]
    refine ⟨?_, fun a h1 h2 => (smGet_splice 0 r.base r.length a s.hbm.mem r.sram).trans (if_pos ⟨h1, h2⟩),
      fun a ha => (smGet_splice 0 r.base r.length a s.hbm.mem r.sram).trans (if_neg (by omega)),
      fun l => mem_outside s.hbm.dead r.poisoned r.base r.length l, rfl, rfl, rfl, rfl⟩
    rw [stkOf_modStk_same _ _ _ hk]
    exact vget_vset_same _ _ _ _ hi

end Sys2Proof.Machine
end

section
/-!
PROOF. Accesses of single lines of device memory (14): CXL.mem, hub bursts, and the controls of HBM.
-/

namespace Sys2Proof.Machine

/-! ### One line of device memory -/

theorem lineOf_line (l : Nat) : lineOf (64 * l) = l := by rw [lineOf]; omega

theorem lineOf_lineStart (l : Nat) : lineOf (l * 64) = l := by rw [lineOf]; omega

theorem hbmTrained_full {s : State} {l : Nat} (h : s.hbm.trained = 0xFF) (hl : 64 * l + 64 ≤ 618475290624) :
    hbmTrained s (l * 64) 64 = true := by
  rw [hbmTrained, h, List.all_eq_true]
  intro k hk
  obtain ⟨i, hi, rfl⟩ := List.mem_map.mp hk
  have hk8 : stackOf (l * 64) + i < 8 := by
    have := List.mem_range.mp hi
    simp only [stackOf, stackBytes] at this ⊢
    omega
  rw [show (0xFF : BitVec 8) = BitVec.allOnes 8 from rfl, BitVec.getLsbD_allOnes]
  exact decide_eq_true hk8

theorem readLineEcc_of_sound {s : State} (source l : Nat) (hrange : findRange s (l * 64) = .none) (hdead : s.hbm.dead.contains l = false)
    (hweak : s.hbm.weak.contains l = false) : readLineEcc source l s = (false, s) := by
  rw [readLineEcc, hrange]
  dsimp only
  rw [hdead, hweak]
  rfl

/-- A line that no atomic range serves takes one hub slot. -/
theorem placeRange_line {s : State} (l : Nat) (write : Bool) (hrange : findRange s (l * 64) = .none) :
    placeRange (l * 64) 64 write s = (lineSlot s (nearLine s l) l write).map (fun at_ => takeSlot l at_ write s) := by
  have hlast : lineOf (l * 64 + 64 - 1) = l := by rw [lineOf]; omega
  have hone : l + 1 - l = 1 := by omega
  rw [placeRange, if_neg (by decide)]
  simp only [lineOf_lineStart, hlast, hone, List.range_one, List.map_cons, List.map_nil, Nat.add_zero, placeLines, hrange,
    Option.isSome_none, Bool.false_eq_true, if_false, if_true]
  split <;> next hs => rw [hs]; rfl

theorem cxlSlot_line {s : State} (l : Nat) (acc : Access (List Byte)) (hrange : findRange s (l * 64) = .none) :
    cxlSlot s (64 * l) acc = (lineSlot s (nearLine s l) l (isWrite acc)).map (fun at_ => takeSlot l at_ (isWrite acc) s) := by
  rw [cxlSlot, lineOf_line, placeRange_line l _ hrange]

/-! ### CXL.mem -/

/-- A host access that the module takes up: it is held, or it takes its slot. -/
theorem doCxlMem_taken {s : State} (l : Nat) (cached : Bool) (acc : Access (List Byte)) (hruns : hubRuns s = true) (hhdm : hdmOn s = true)
    (hl : 64 * l + 64 ≤ 618475290624) (htrained : s.hbm.trained = 0xFF) : doCxlMem (64 * l) cached acc s =
      if lineHeld s l then { s with held := s.held ++ [.cxl (64 * l) cached acc] }
      else match cxlSlot s (64 * l) acc with
        | some s => cxlNow (64 * l) cached acc s
        | .none => { s with held := s.held ++ [.cxl (64 * l) cached acc] } := by
  have hin : ¬hbmBytes ≤ 64 * l := by rw [hbmBytes]; omega
  unfold doCxlMem
  rw [lineOf_line, hbmTrained_full htrained hl, if_neg (by simp [hruns, hhdm, hin]), if_neg (by simp)] <;> rfl

/-- The state in which a host access has written the whole line `l`. -/
def lineWritten (l : Nat) (bs : List Byte) (s : State) : State :=
  returned [] false { snoopLine s l with hbm := { s.hbm with
    mem := smPut 0 (64 * l) bs s.hbm.mem, weak := s.hbm.weak.filter (· ≠ l), dead := s.hbm.dead.filter (· ≠ l) } }

theorem cxlNow_write {s : State} (h : Claims.noRanges s) (l : Nat) (cached : Bool) (bs : List Byte) (hbs : bs.length = 64) :
    cxlNow (64 * l) cached (.write bs) s = lineWritten l bs s := by
  rw [cxlNow, hubWriteLine_whole h _ bs hbs, lineOf_line]
  rfl

/-- The state in which the host may cache a line that it read as `cached`, or may not. -/
def noteCached (l : Nat) (cached : Bool) (s : State) : State :=
  if cached then modHost s (fun h => { h with hostLines := l :: h.hostLines.filter (· ≠ l) }) else snoopLine s l

theorem hbm_noteCached (l : Nat) (cached : Bool) (s : State) : (noteCached l cached s).hbm = s.hbm := by
  cases cached <;> rfl

theorem cxlNow_read {s : State} (h : Claims.noRanges s) (l : Nat) (cached : Bool) (hdead : s.hbm.dead.contains l = false)
    (hweak : s.hbm.weak.contains l = false) : cxlNow (64 * l) cached .read s =
      returned (smRead 0 (64 * l) 64 s.hbm.mem) false (noteCached l cached s) := by
  have hnone : Claims.noRanges (noteCached l cached s) := by cases cached <;> exact h
  have hget : hbmGet (noteCached l cached s) (l * 64) 64 = smRead 0 (64 * l) 64 s.hbm.mem := by
    rw [hbmGet_of_noRanges hnone, hbm_noteCached, Nat.mul_comm]
  unfold cxlNow
  rw [lineOf_line, readLineEcc_of_sound 2 l (findRange_of_noRanges h _) hdead hweak, ← hget]
  rfl

theorem contains_filter_ne (l : Nat) (ls : List Nat) : (ls.filter (· ≠ l)).contains l = false := by
  simp

/-- Settles O22. -/
theorem cxlReadsWhatItWrote : Obligations.CxlReadsWhatItWrote := by
  intro l bs cached s hruns hhdm hl htrained hbs
  have hon : hdmOn s = true := by rw [hdmOn, Bool.or_eq_true]; exact hhdm
  refine ⟨fun acc hheld => ?_, fun hnone hfree hslot => ?_⟩
  · rw [exec, execCxlMemAccess, doCxlMem_taken l cached acc hruns hon hl htrained]
    rcases hheld with hheld | hslot
    · rw [hheld, if_pos rfl]
    · rw [hslot, ite_self]
  · rw [cxlSlot_line l _ (findRange_of_noRanges hnone _), Option.isSome_map] at hslot
    obtain ⟨at_, hat⟩ := Option.isSome_iff_exists.mp hslot
    have hnone' : Claims.noRanges (takeSlot l at_ true s) := hnone
    refine ⟨lineWritten l bs (takeSlot l at_ true s), ?_, ?_⟩
    · rw [exec, execCxlMemAccess, doCxlMem_taken l false _ hruns hon hl htrained, hfree, if_neg (by simp),
        cxlSlot_line l _ (findRange_of_noRanges hnone _), hat]
      exact congrArg _ (cxlNow_write hnone' l false bs hbs)
    · refine ⟨rfl, ⟨at_, rfl⟩, fun a ha => smGet_smPut_out 0 (64 * l) a bs s.hbm.mem (by rw [hbs]; exact ha), rfl, rfl, fun hslot2 => ?_⟩
      generalize ht : lineWritten l bs (takeSlot l at_ true s) = t at hslot2 ⊢
      have hmem : t.hbm.mem = smPut 0 (64 * l) bs s.hbm.mem := by rw [← ht]; rfl
      have htnone : Claims.noRanges t := by rw [← ht]; exact hnone
      have hdead : t.hbm.dead.contains l = false := by rw [← ht]; exact contains_filter_ne l s.hbm.dead
      have hweak : t.hbm.weak.contains l = false := by rw [← ht]; exact contains_filter_ne l s.hbm.weak
      have hparts : hubRuns t = hubRuns s ∧ hdmOn t = hdmOn s ∧ t.hbm.trained = s.hbm.trained ∧ lineHeld t l = lineHeld s l := by
        rw [← ht]; exact ⟨rfl, rfl, rfl, rfl⟩
      obtain ⟨hruns', hon', htrained', hheld'⟩ := hparts
      rw [cxlSlot_line l _ (findRange_of_noRanges htnone _), Option.isSome_map] at hslot2
      obtain ⟨at2, hat2⟩ := Option.isSome_iff_exists.mp hslot2
      refine ⟨returned (smRead 0 (64 * l) 64 t.hbm.mem) false (noteCached l cached (takeSlot l at2 false t)), ?_, ?_, rfl, ?_⟩
      · rw [exec, execCxlMemAccess, doCxlMem_taken l cached _ (hruns'.trans hruns) (hon'.trans hon) hl (htrained'.trans htrained),
          hheld', hfree, if_neg (by simp), cxlSlot_line l _ (findRange_of_noRanges htnone _), hat2]
        exact congrArg _ (cxlNow_read (s := takeSlot l at2 false t) htnone l cached hdead hweak)
      · show smRead 0 (64 * l) 64 t.hbm.mem = bs
        rw [hmem, ← hbs, smRead_smPut]
      · exact (congrArg Hbm.mem (hbm_noteCached l cached (takeSlot l at2 false t)) :)

/-! ### The traffic generator -/

theorem vmod_self {α : Type} {n : Nat} (v : Vector α n) (i : Nat) (d : α) (f : α → α) (h : f (vget v i d) = vget v i d) :
    vmod v i d f = v := by
  refine Vector.ext (fun j hj => ?_)
  rw [vmod, vset, Vector.getElem_setIfInBounds, h]
  split
  · next e => subst e; simp [vget, hj]
  · rfl

theorem modStk_self (s : State) (k : Nat) (f : Stack → Stack) (h : f (stkOf s k) = stkOf s k) : modStk s k f = s := by
  rw [modStk, vmod_self _ _ _ _ h]

theorem modStk_congr (s : State) (k : Nat) (f g : Stack → Stack) (h : f (stkOf s k) = g (stkOf s k)) : modStk s k f = modStk s k g := by
  unfold stkOf at h
  rw [modStk, modStk, vmod, vmod, h]

theorem doTgStart_discarded {s : State} (k v : Nat) (hruns : hubRuns s = true)
    (h : (bitAt v 0 && tgStarts s k (fieldAt v 4 2) (fieldAt v 2 2)) = false) : doTgStart k v s =
      modStk s k (fun st => if st.tgBusy then st else
        { st with tgMode := BitVec.ofNat 2 (fieldAt v 4 2), tgPattern := BitVec.ofNat 2 (fieldAt v 2 2) }) := by
  rw [doTgStart, if_neg (by simp [hruns])]
  simp only [h, Bool.false_eq_true, if_false]

theorem doTgStart_run {s : State} (k v : Nat) (hruns : hubRuns s = true) (hbusy : (stkOf s k).tgBusy = false)
    (h : (bitAt v 0 && tgStarts s k (fieldAt v 4 2) (fieldAt v 2 2)) = true) : doTgStart k v s =
      modStk s k (fun st => { st with
        tgMode := BitVec.ofNat 2 (fieldAt v 4 2), tgPattern := BitVec.ofNat 2 (fieldAt v 2 2), tgBusy := true, tgDone := false,
        runMode := BitVec.ofNat 2 (fieldAt v 4 2), runPattern := BitVec.ofNat 2 (fieldAt v 2 2) }) := by
  rw [doTgStart, if_neg (by simp [hruns])]
  simp only [h, if_true]
  exact modStk_congr s k _ _ (by simp [hbusy])

theorem noteLines_of_clean (source : Nat) (hit : Nat → Bool) (s : State) (hdead : s.hbm.dead = []) (hweak : s.hbm.weak = []) :
    noteLines source hit s = modHost s (fun h => { h with hostLines := h.hostLines.filter (fun l => !hit l) }) :=
  eccLines_of_clean source hit _ hdead hweak

/-! ### Hub bursts -/

theorem hubRead_line {s : State} (h : Claims.noRanges s) (l : Nat) (hdead : s.hbm.dead = []) (hweak : s.hbm.weak = []) :
    hubRead s (l * 64) 64 = (smRead 0 (64 * l) 64 s.hbm.mem, .none, snoopLine s l) := by
  have hlast : lineOf (l * 64 + 64 - 1) - lineOf (l * 64) + 1 = 1 := by rw [lineOf, lineOf]; omega
  have hsound : readLineEcc 2 l (snoopLine s l) = (false, snoopLine s l) :=
    readLineEcc_of_sound 2 l (findRange_of_noRanges (s := snoopLine s l) h _)
      (by show s.hbm.dead.contains l = false; rw [hdead]; rfl) (by show s.hbm.weak.contains l = false; rw [hweak]; rfl)
  rw [hubRead, if_neg (by decide), hlast, lineOf_lineStart, readLinesEcc, hsound, hbmGet_of_noRanges h, Nat.mul_comm]
  rfl

/-- Settles O23. -/
theorem hbmControlsRun : Obligations.HbmControlsRun := by
  intro s hruns
  refine ⟨fun v hv => ?_, fun k hbusy => ?_, fun k v hstart => ⟨doTgStart k.toNat v.toNat s, rfl, fun hmode hoff => ?_,
    fun hmode hpattern h0 h1 hcat hbusy => ?_, fun hbusy => ?_, ?_, ?_⟩, fun k hbusy hmode hdead hweak => ?_,
    fun line htwice hhalf hdead => ⟨fun hslot => ?_, fun at_ hslot => ?_⟩, fun k => ⟨?_, ?_⟩, fun l slot hl htrained => ?_⟩
  · have hnew : ¬((!hubRuns s || bitAt v.toNat 0 == s.hbm.hubEighth) = true) := by
      rw [hruns, bitAt_toNat, Bool.not_true, Bool.false_or, beq_iff_eq]
      exact hv
    rw [exec, execHubShareWrite, doHubShare, if_neg hnew]
    rfl
  · have hrun : tgStarts s k.toNat 1 0 = true := by simp [tgStarts, hbusy]
    rw [exec, execTgStart, doTgStart_run _ _ hruns hbusy (by rw [show fieldAt (0x11 : Word).toNat 4 2 = 1 from rfl,
      show fieldAt (0x11 : Word).toNat 2 2 = 0 from rfl, hrun]; rfl)]
    rfl
  · have hno : tgStarts s k.toNat 0 (fieldAt v.toNat 2 2) = false := by
      rcases hoff with h | h | h <;> simp [tgStarts, hdmOn, h]
    rw [doTgStart_discarded _ _ hruns (by rw [hmode, hno, Bool.and_false])]
    rw [stkOf_modStk_same _ _ _ k.isLt]
    split <;> exact ⟨rfl, rfl⟩
  · have hrun : tgStarts s k.toNat 0 (fieldAt v.toNat 2 2) = true := by
      simp [tgStarts, hdmOn, hbusy, h0, h1, hcat, hpattern]
    rw [doTgStart_run _ _ hruns hbusy (by rw [hmode, hrun, bitAt_toNat, hstart]; rfl), stkOf_modStk_same _ _ _ k.isLt, hmode]
    exact ⟨rfl, rfl, rfl, rfl⟩
  · have hno : tgStarts s k.toNat (fieldAt v.toNat 4 2) (fieldAt v.toNat 2 2) = false := by simp [tgStarts, hbusy]
    rw [doTgStart_discarded _ _ hruns (by rw [hno, Bool.and_false]), modStk_self]
    exact if_pos hbusy
  · rw [doTgStart, if_neg (by simp [hruns])]
    rfl
  · rw [doTgStart, if_neg (by simp [hruns])]
    rfl
  · rw [exec, execTgDone, doTgDone]
    dsimp only
    rw [if_neg (by simp [hruns, hbusy]), if_neg (by rw [hmode]; decide), noteLines_of_clean _ _ s hdead hweak]
    rfl
  · rw [exec, execLineRewrite, doLineRewrite, if_neg (by simp [hruns, htwice, hhalf]), hslot]
  · rw [exec, execLineRewrite, doLineRewrite, if_neg (by simp [hruns, htwice, hhalf]), hslot]
    dsimp only
    rw [if_neg]
    · rfl
    · show ¬(s.hbm.dead.contains line = true)
      rw [hdead]; decide
  · rw [exec, execRefreshRateChange, doRefreshRate, if_neg (by simp [hruns])]
    rfl
  · rw [exec, execRefreshRateChange, doRefreshRate, if_neg (by simp [hruns])]
    rfl
  · have hin : ¬hbmBytes ≤ 64 * l := by rw [hbmBytes]; omega
    have htr : hbmTrained s (l * 64) 64 = true := by rw [Nat.mul_comm]; exact htrained
    have hdo : doHubBurst (64 * l) slot.toNat .read s =
        if burstFits s (nearLine s l) l (64 * s.time.now + slot.toNat) false then
          placeBurst (64 * l) (64 * s.time.now + slot.toNat) .read s
        else { s with held := s.held ++ [.burst (64 * l) .read] } := by
      unfold doHubBurst
      rw [lineOf_line]
      dsimp only
      rw [if_neg (by simp [hruns, hin, htr])]
      rfl
    refine ⟨fun hfits => ?_, fun hfits hdead hweak hnone => ?_⟩
    · rw [exec, execHubBurst, hdo, hfits, if_neg (by decide)]
    · refine ⟨returned (smRead 0 (64 * l) 64 s.hbm.mem) false (snoopLine (takeSlot l (64 * s.time.now + slot.toNat) false s) l),
        ?_, rfl, rfl, rfl, rfl⟩
      have hread := hubRead_line (s := takeSlot l (64 * s.time.now + slot.toNat) false s) hnone l hdead hweak
      rw [exec, execHubBurst, hdo, hfits, if_pos rfl, placeBurst, lineOf_line]
      simp only [isWrite, hread, Option.isSome_none, Bool.false_eq_true, if_false]
      rfl

end Sys2Proof.Machine
end

section
/-!
PROOF. The Vault (15): its slots, map and stripes, and the events of its medium.
-/

namespace Sys2Proof.Machine

/-! ### What the moves of slots and stripes leave -/

/-- The state without what an erase of stripes changes. -/
def besideStripes (s : State) : State :=
  { s with
    freeCount := 0
    vault := { s.vault with
      readOnly := false
      medium := { s.vault.medium with data := [], erases := [], programmed := [], badUnits := [], lost := [] } } }

/-- The state without what a move of live slots changes as well. -/
def besideSlots (s : State) : State :=
  { besideStripes s with vault := { (besideStripes s).vault with
      map := [], inFlight := [],
      medium := { (besideStripes s).vault.medium with
        replica0 := { snapshots := [], records := [] }, replica1 := { snapshots := [], records := [] }, seq := 0, candidates := [] } } }

theorem besideSlots_of_besideStripes {s t : State} (h : besideStripes t = besideStripes s) : besideSlots t = besideSlots s := by
  rw [besideSlots, besideSlots, h]

theorem besideStripes_checkReadOnly (s : State) : besideStripes (checkReadOnly s) = besideStripes s := by
  unfold checkReadOnly
  dsimp only
  split <;> rfl

theorem besideStripes_wipeStripe (k : Nat) (s : State) : besideStripes (wipeStripe k s) = besideStripes s :=
  besideStripes_checkReadOnly _

theorem besideStripes_reclaim (avoid start : Nat) (s : State) : besideStripes (reclaim avoid start s) = besideStripes s := by
  unfold reclaim
  split
  · rfl
  · split
    · exact besideStripes_wipeStripe _ s
    · rfl

theorem besideStripes_pickSlot (avoid : Nat) (s : State) : besideStripes (pickSlot avoid s).2 = besideStripes s :=
  (besideStripes_reclaim avoid _ (freeBits 32 s).2 :)

theorem besideStripes_moveSlot (old new : Nat) (s : State) : besideStripes (moveSlot old new s) = besideStripes s := rfl

theorem besideStripes_wipes (ks : List Nat) (s : State) : besideStripes (ks.foldl (fun x k => wipeStripe k x) s) = besideStripes s := by
  induction ks generalizing s with
  | nil => rfl
  | cons k ks ih => exact (ih _).trans (besideStripes_wipeStripe k s)

theorem besideStripes_wearOn (s : State) : besideStripes (wearOn s) = besideStripes s :=
  (besideStripes_wipes _ (freeBits 40960 s).2 :)

theorem mapOf_of_besideStripes {s t : State} (h : besideStripes t = besideStripes s) (e : Nat) : mapOf t e = mapOf s e := by
  exact congrArg (smGet freeMap e) (congrArg (fun x => x.vault.map) h :)

theorem seq_of_besideStripes {s t : State} (h : besideStripes t = besideStripes s) : t.vault.medium.seq = s.vault.medium.seq :=
  (congrArg (fun x => x.vault.medium.seq) h :)

theorem inFlight_of_besideStripes {s t : State} (h : besideStripes t = besideStripes s) : t.vault.inFlight = s.vault.inFlight :=
  (congrArg (fun x => x.vault.inFlight) h :)

theorem slotLive_of_besideStripes {s t : State} (h : besideStripes t = besideStripes s) (k : Nat) : slotLive t k = slotLive s k := by
  have e : slotLive (besideStripes t) k = slotLive (besideStripes s) k := by rw [h]
  exact e

theorem staleSlots_of_besideStripes {s t : State} (h : besideStripes t = besideStripes s) (e : Nat) : staleSlots t e = staleSlots s e := by
  have e : staleSlots (besideStripes t) e = staleSlots (besideStripes s) e := by rw [h]
  exact e

/-! ### Entries of the map -/

/-- The entry that an extent takes. -/
def newEntry (s : State) (st : ExtState) (slot : Nat) (isSealed : Bool) : MapEntry :=
  { seq := s.vault.medium.seq + 1, isSealed := isSealed, state := st, slot := BitVec.ofNat 21 slot }

theorem putMap_map (e : Nat) (st : ExtState) (slot : Nat) (isSealed : Bool) (s : State) :
    (putMap e st slot isSealed s).vault.map = smSet freeMap e (newEntry s st slot isSealed) s.vault.map := by
  unfold putMap
  dsimp only
  split <;> rfl

theorem besideSlots_putMap (e : Nat) (st : ExtState) (slot : Nat) (isSealed : Bool) (s : State) :
    besideSlots (putMap e st slot isSealed s) = besideSlots s := by
  unfold putMap
  dsimp only
  split <;> rfl

theorem putMap_parts (e : Nat) (st : ExtState) (slot : Nat) (isSealed : Bool) (s : State) :
    let t := putMap e st slot isSealed s
    t.vault.inFlight = s.vault.inFlight ∧ t.vault.medium.candidates = s.vault.medium.candidates ∧
      t.vault.medium.data = s.vault.medium.data ∧ t.dma = s.dma ∧ t.vault.medium.seq = s.vault.medium.seq + 1 := by
  unfold putMap
  dsimp only
  split <;> exact ⟨rfl, rfl, rfl, rfl, rfl⟩

/-- A word other than the default one is read where it was set, whatever the memory was. -/
theorem smGet_smSet_set {α : Type} [DecidableEq α] (d : α) (k : Nat) (v : α) (m : SMem α) (hv : v ≠ d) :
    smGet d k (smSet d k v m) = v := by
  induction m with
  | nil => simp [smSet, hv, smGet]
  | cons p m ih =>
    rw [smSet]
    split
    · simp [hv, smGet]
    · split
      · simp [hv, smGet]
      · next hne => rw [smGet, if_neg (Ne.symm hne), ih]

theorem newEntry_ne_freeMap (s : State) (st : ExtState) (slot : Nat) (isSealed : Bool) : newEntry s st slot isSealed ≠ freeMap := by
  intro h
  have : s.vault.medium.seq + 1 = 0 := congrArg MapEntry.seq h
  omega

theorem mapOf_putMap_same (e : Nat) (st : ExtState) (slot : Nat) (isSealed : Bool) (s : State) :
    mapOf (putMap e st slot isSealed s) e = newEntry s st slot isSealed := by
  rw [mapOf, putMap_map]
  exact smGet_smSet_set freeMap e _ _ (newEntry_ne_freeMap s st slot isSealed)

theorem mapOf_putMap_other (e k : Nat) (st : ExtState) (slot : Nat) (isSealed : Bool) (s : State) (h : k ≠ e) :
    mapOf (putMap e st slot isSealed s) k = mapOf s k := by
  rw [mapOf, putMap_map]
  exact smGet_smSet_other freeMap e k _ _ h

/-! ### Relocations -/

theorem relocateExtent_eq (e : Nat) (s : State) : ∃ k t, besideStripes t = besideStripes s ∧
    relocateExtent e s = putMap e (mapOf s e).state k (mapOf s e).isSealed t :=
  ⟨_, _, (besideStripes_moveSlot _ _ _).trans (besideStripes_pickSlot _ s), rfl⟩

theorem besideSlots_relocateExtent (e : Nat) (s : State) : besideSlots (relocateExtent e s) = besideSlots s := by
  obtain ⟨k, t, ht, h⟩ := relocateExtent_eq e s
  rw [h, besideSlots_putMap, besideSlots_of_besideStripes ht]

theorem mapOf_relocateExtent_same (e : Nat) (s : State) : (mapOf (relocateExtent e s) e).state = (mapOf s e).state ∧
    (mapOf (relocateExtent e s) e).isSealed = (mapOf s e).isSealed ∧ (mapOf (relocateExtent e s) e).seq = s.vault.medium.seq + 1 := by
  obtain ⟨k, t, ht, h⟩ := relocateExtent_eq e s
  rw [h, mapOf_putMap_same]
  exact ⟨rfl, rfl, congrArg (· + 1) (seq_of_besideStripes ht)⟩

theorem mapOf_relocateExtent_other (e k : Nat) (s : State) (hk : k ≠ e) : mapOf (relocateExtent e s) k = mapOf s k := by
  obtain ⟨n, t, ht, h⟩ := relocateExtent_eq e s
  rw [h, mapOf_putMap_other _ _ _ _ _ _ hk, mapOf_of_besideStripes ht]

/-- State and sealing of an extent's entry. -/
def extKind (s : State) (e : Nat) : ExtState × Bool := ((mapOf s e).state, (mapOf s e).isSealed)

theorem extKind_relocateExtent (e k : Nat) (s : State) : extKind (relocateExtent e s) k = extKind s k := by
  by_cases hk : k = e
  · subst hk
    obtain ⟨hstate, hsealed, -⟩ := mapOf_relocateExtent_same k s
    rw [extKind, hstate, hsealed, extKind]
  · rw [extKind, mapOf_relocateExtent_other e k s hk, extKind]

/-! ### The erase of a stripe -/

/-- Nothing but slots moves from `s` to `t`, and every extent keeps its state. -/
def SlotsMove (s t : State) : Prop := besideSlots t = besideSlots s ∧ ∀ k, extKind t k = extKind s k

theorem SlotsMove.trans {s t u : State} (h1 : SlotsMove s t) (h2 : SlotsMove t u) : SlotsMove s u :=
  ⟨h2.1.trans h1.1, fun k => (h2.2 k).trans (h1.2 k)⟩

theorem slotsMove_of_besideStripes {s t : State} (h : besideStripes t = besideStripes s) : SlotsMove s t :=
  ⟨besideSlots_of_besideStripes h, fun k => by rw [extKind, mapOf_of_besideStripes h, extKind]⟩

theorem slotsMove_foldl {α : Type} (f : State → α → State) (h : ∀ x a, SlotsMove x (f x a)) (l : List α) (s : State) :
    SlotsMove s (l.foldl f s) := by
  induction l generalizing s with
  | nil => exact ⟨rfl, fun _ => rfl⟩
  | cons a l ih => exact (h s a).trans (ih _)

theorem slotsMove_moveOut (slot : Nat) (follow : Nat → Nat → State → State) (hf : ∀ o n x, SlotsMove x (follow o n x)) (s : State) :
    SlotsMove s (moveOut slot follow s) :=
  (slotsMove_of_besideStripes ((besideStripes_moveSlot slot _ _).trans (besideStripes_pickSlot _ s))).trans (hf _ _ _)

/-- The candidates in slot `old` follow to slot `new`. -/
def followCandidate (old new : Nat) (s : State) : State :=
  modMedium s (fun m => { m with
    candidates := m.candidates.map (fun z => if z.slot == old then { z with slot := new } else z) })

/-- The writes in progress in slot `old` follow to slot `new`. -/
def followWrite (old new : Nat) (s : State) : State :=
  modVault s (fun v => { v with inFlight := v.inFlight.map (fun z => if z.slot == old then { z with slot := new } else z) })

/-- The slots of a list that lie in stripe `k`. -/
def slotsIn (k : Nat) (slots : List Nat) : List Nat := slots.filter (fun x => x / stripeSlots == k)

/-- The extents, the candidates and the writes in progress of a stripe, moved out of it. -/
def liveMoved (k : Nat) (s : State) : State :=
  let live := (s.vault.map.filter (fun p => patrolled p.2 && p.2.slot.toNat / stripeSlots == k)).map (·.1)
  let s := live.foldl (fun x e => relocateExtent e x) s
  let s := (slotsIn k (s.vault.medium.candidates.map (·.slot))).foldl (fun x c => moveOut c followCandidate x) s
  (slotsIn k (s.vault.inFlight.map (·.slot))).foldl (fun x w => moveOut w followWrite x) s

theorem eraseStripe_eq (k : Nat) (s : State) : eraseStripe k s = wipeStripe k (liveMoved k s) := rfl

theorem slotsMove_followCandidate (old new : Nat) (s : State) : SlotsMove s (followCandidate old new s) := ⟨rfl, fun _ => rfl⟩

theorem slotsMove_followWrite (old new : Nat) (s : State) : SlotsMove s (followWrite old new s) := ⟨rfl, fun _ => rfl⟩

theorem slotsMove_relocateExtent (e : Nat) (s : State) : SlotsMove s (relocateExtent e s) :=
  ⟨besideSlots_relocateExtent e s, fun k => extKind_relocateExtent e k s⟩

theorem slotsMove_liveMoved (k : Nat) (s : State) : SlotsMove s (liveMoved k s) := by
  unfold liveMoved
  dsimp only
  exact (slotsMove_foldl _ (fun x e => slotsMove_relocateExtent e x) _ s).trans
    ((slotsMove_foldl _ (fun x c => slotsMove_moveOut c _ slotsMove_followCandidate x) _ _).trans
      (slotsMove_foldl _ (fun x w => slotsMove_moveOut w _ slotsMove_followWrite x) _ _))

theorem slotsMove_eraseStripe (k : Nat) (s : State) : SlotsMove s (eraseStripe k s) := by
  rw [eraseStripe_eq]
  exact (slotsMove_liveMoved k s).trans (slotsMove_of_besideStripes (besideStripes_wipeStripe k _))

theorem slotsMove_eraseSealed (stale : List (Nat × Bool)) (s : State) : SlotsMove s (eraseSealed stale s) :=
  slotsMove_foldl _ (fun x p => slotsMove_eraseStripe _ x) _ s

theorem eraseSealed_of_unsealed (stale : List (Nat × Bool)) (s : State) (h : ∀ p ∈ stale, p.2 = false) : eraseSealed stale s = s := by
  rw [eraseSealed, List.filter_eq_nil_iff.mpr (fun p hp => by simp [h p hp])]
  rfl

/-! ### Commits -/

/-- An extent with its new entry and no candidates, before the erases that follow. -/
def entryTaken (e : Nat) (st : ExtState) (slot : Nat) (isSealed : Bool) (s : State) : State :=
  modMedium (putMap e st slot isSealed s) (fun m => { m with candidates := m.candidates.filter (fun c => c.extent != e) })

theorem commitExtent_eq (e : Nat) (st : ExtState) (slot : Nat) (isSealed : Bool) (s : State) : commitExtent e st slot isSealed s =
    checkReadOnly (eraseSealed (staleSlots s e) (wearOn (entryTaken e st slot isSealed s))) := rfl

theorem besideSlots_entryTaken (e : Nat) (st : ExtState) (slot : Nat) (isSealed : Bool) (s : State) :
    besideSlots (entryTaken e st slot isSealed s) = besideSlots s := besideSlots_putMap e st slot isSealed s

theorem besideSlots_commitExtent (e : Nat) (st : ExtState) (slot : Nat) (isSealed : Bool) (s : State) :
    besideSlots (commitExtent e st slot isSealed s) = besideSlots s := by
  rw [commitExtent_eq, besideSlots_of_besideStripes (besideStripes_checkReadOnly _), (slotsMove_eraseSealed _ _).1,
    besideSlots_of_besideStripes (besideStripes_wearOn _), besideSlots_entryTaken]

theorem extKind_commitExtent (e : Nat) (st : ExtState) (slot : Nat) (isSealed : Bool) (s : State) :
    extKind (commitExtent e st slot isSealed s) e = (st, isSealed) := by
  rw [commitExtent_eq, (slotsMove_of_besideStripes (besideStripes_checkReadOnly _)).2, (slotsMove_eraseSealed _ _).2,
    (slotsMove_of_besideStripes (besideStripes_wearOn _)).2]
  show extKind (putMap e st slot isSealed s) e = _
  rw [extKind, mapOf_putMap_same]
  rfl

/-- A commit that erases no sealed slot. -/
theorem besideStripes_commitExtent (e : Nat) (st : ExtState) (slot : Nat) (isSealed : Bool) (s : State)
    (h : ∀ p ∈ staleSlots s e, p.2 = false) :
    besideStripes (commitExtent e st slot isSealed s) = besideStripes (entryTaken e st slot isSealed s) := by
  rw [commitExtent_eq, eraseSealed_of_unsealed _ _ h, besideStripes_checkReadOnly, besideStripes_wearOn]

/-! ### What stays on the medium -/

theorem data_checkReadOnly (s : State) : (checkReadOnly s).vault.medium = s.vault.medium := by
  unfold checkReadOnly
  dsimp only
  split <;> rfl

theorem data_wipeStripe (k : Nat) (s : State) (a : Nat) (h : a / extBytes / stripeSlots ≠ k) :
    smGet 0 a (wipeStripe k s).vault.medium.data = smGet 0 a s.vault.medium.data := by
  rw [wipeStripe, data_checkReadOnly]
  exact smGet_filter 0 a (fun x => !(x / extBytes / stripeSlots == k)) (by simpa using h) s.vault.medium.data

theorem data_wipes (ks : List Nat) (s : State) (a : Nat) (h : a / extBytes / stripeSlots ∉ ks) :
    smGet 0 a (ks.foldl (fun x k => wipeStripe k x) s).vault.medium.data = smGet 0 a s.vault.medium.data := by
  induction ks generalizing s with
  | nil => rfl
  | cons k ks ih =>
    rw [List.mem_cons, not_or] at h
    exact (ih _ h.2).trans (data_wipeStripe k s a h.1)

theorem stripeStale_live (s : State) (k slot : Nat) (h : slotLive s slot = true) (hk : slot / stripeSlots = k) : stripeStale s k = false := by
  have hin : slot ∈ (List.range stripeSlots).map (k * stripeSlots + ·) :=
    List.mem_map.mpr ⟨slot % stripeSlots, List.mem_range.mpr (Nat.mod_lt _ (by decide)), by
      subst hk
      rw [Nat.mul_comm]
      exact Nat.div_add_mod slot stripeSlots⟩
  have : ((List.range stripeSlots).map (k * stripeSlots + ·)).any (slotLive s) = true := List.any_eq_true.mpr ⟨slot, hin, h⟩
  rw [stripeStale, this, Bool.not_true, Bool.and_false]

theorem data_wearOn (s : State) (a : Nat) (h : slotLive s (a / extBytes) = true) :
    smGet 0 a (wearOn s).vault.medium.data = smGet 0 a s.vault.medium.data := by
  refine data_wipes _ (freeBits 40960 s).2 a (fun hin => ?_)
  have hstale := (Bool.and_eq_true_iff.mp (List.mem_filter.mp hin).2).2
  exact absurd (hstale.symm.trans (stripeStale_live (freeBits 40960 s).2 _ (a / extBytes) h rfl)) (by decide)

/-- A commit that erases no sealed slot leaves every live slot's content. -/
theorem data_commitExtent (e : Nat) (st : ExtState) (slot : Nat) (isSealed : Bool) (s : State) (h : ∀ p ∈ staleSlots s e, p.2 = false)
    (a : Nat) (hlive : slotLive (commitExtent e st slot isSealed s) (a / extBytes) = true) :
    smGet 0 a (commitExtent e st slot isSealed s).vault.medium.data = smGet 0 a s.vault.medium.data := by
  rw [slotLive_of_besideStripes (besideStripes_commitExtent e st slot isSealed s h)] at hlive
  rw [commitExtent_eq, eraseSealed_of_unsealed _ _ h, data_checkReadOnly, data_wearOn _ a hlive]
  exact congrArg (smGet 0 a) (putMap_parts e st slot isSealed s).2.2.1

end Sys2Proof.Machine
end

section
/-!
PROOF. The events of the Vault's medium (15 R317 to R335).
-/

namespace Sys2Proof.Machine

theorem hbm_of_besideSlots {s t : State} (h : besideSlots t = besideSlots s) : t.hbm = s.hbm := (congrArg State.hbm h :)
theorem gals_of_besideSlots {s t : State} (h : besideSlots t = besideSlots s) : t.gals = s.gals := (congrArg State.gals h :)
theorem hostMem_of_besideSlots {s t : State} (h : besideSlots t = besideSlots s) : t.hostMem = s.hostMem :=
  (congrArg State.hostMem h :)
theorem bytesWritten_of_besideSlots {s t : State} (h : besideSlots t = besideSlots s) :
    t.vault.medium.bytesWritten = s.vault.medium.bytesWritten := (congrArg (fun x => x.vault.medium.bytesWritten) h :)
theorem retired_of_besideSlots {s t : State} (h : besideSlots t = besideSlots s) :
    t.vault.medium.retired = s.vault.medium.retired := (congrArg (fun x => x.vault.medium.retired) h :)
theorem goodStripes_of_besideSlots {s t : State} (h : besideSlots t = besideSlots s) :
    t.vault.medium.goodStripes = s.vault.medium.goodStripes := (congrArg (fun x => x.vault.medium.goodStripes) h :)
theorem progFails_of_besideSlots {s t : State} (h : besideSlots t = besideSlots s) : t.vault.progFails = s.vault.progFails :=
  (congrArg (fun x => x.vault.progFails) h :)
theorem relocations_of_besideSlots {s t : State} (h : besideSlots t = besideSlots s) : t.vault.relocations = s.vault.relocations :=
  (congrArg (fun x => x.vault.relocations) h :)
theorem relocs_of_besideSlots {s t : State} (h : besideSlots t = besideSlots s) : t.vault.relocs = s.vault.relocs :=
  (congrArg (fun x => x.vault.relocs) h :)

theorem uncorrectable_of_besideSlots {s t : State} (h : besideSlots t = besideSlots s) :
    t.vault.uncorrectable = s.vault.uncorrectable := (congrArg (fun x => x.vault.uncorrectable) h :)
theorem passLeft_of_besideSlots {s t : State} (h : besideSlots t = besideSlots s) : t.vault.passLeft = s.vault.passLeft :=
  (congrArg (fun x => x.vault.passLeft) h :)
theorem health_of_besideSlots {s t : State} (h : besideSlots t = besideSlots s) : t.health = s.health := (congrArg State.health h :)

theorem state_of_extKind {s t : State} {e : Nat} (h : extKind t e = extKind s e) : (mapOf t e).state = (mapOf s e).state :=
  congrArg Prod.fst h

theorem isSealed_of_extKind {s t : State} {e : Nat} (h : extKind t e = extKind s e) : (mapOf t e).isSealed = (mapOf s e).isSealed :=
  congrArg Prod.snd h

/-- Few good stripes make the Vault read-only. -/
theorem readOnly_checkReadOnly (s : State) (h : s.vault.medium.goodStripes < 32960) : (checkReadOnly s).vault.readOnly = true := by
  rw [checkReadOnly, if_pos (Or.inl h)]
  rfl

/-! ### EXTENT_COMMIT -/

/-- The state in which the commit of write `w` begins. -/
def commitBegins (w : ExtWrite) (s : State) : State :=
  modMedium (modVault s (fun v => { v with inFlight := v.inFlight.erase w })) (fun m => { m with bytesWritten := m.bytesWritten + extBytes })

theorem doExtentCommit_next {s : State} {e : Nat} {w : ExtWrite} (h : nextCommit s e = some w) : doExtentCommit e s =
    if readHolds s e then s else commitExtent e .written w.slot w.isSealed (commitBegins w s) := by
  rw [doExtentCommit, h]
  rfl

theorem mapOf_commitExtent (e : Nat) (st : ExtState) (slot : Nat) (isSealed : Bool) (s : State) (h : ∀ p ∈ staleSlots s e, p.2 = false)
    (k : Nat) : mapOf (commitExtent e st slot isSealed s) k = if k = e then newEntry s st slot isSealed else mapOf s k := by
  rw [mapOf_of_besideStripes (besideStripes_commitExtent e st slot isSealed s h)]
  show mapOf (putMap e st slot isSealed s) k = _
  split
  · next hk => rw [hk, mapOf_putMap_same]
  · next hk => rw [mapOf_putMap_other _ _ _ _ _ _ hk]

/-! ### EXTENT_RELOCATE -/

/-- The state in which a relocation is noted no longer. -/
def unlisted (e copied : Nat) (s : State) : State := modVault s (fun v => { v with relocs := v.relocs.filter (· ≠ (e, copied)) })

/-- The state after a relocation of extent `e` that the patrol has noted or not. -/
def relocated (patrol : Bool) (e : Nat) (s : State) : State :=
  relocateExtent e (if patrol then
    modTaps (modVault s (fun v => { v with relocations := bump8 v.relocations })) (fun t => { t with rl := t.rl + 1 }) else s)

theorem doExtentRelocate_due {s : State} {e copied : Nat} (hopen : s.vault.isOpen = true)
    (hdue : s.vault.relocs.contains (e, copied) = true ∨ 200 < wearSpread s.vault.medium) (hread : readHolds s e = false) :
    doExtentRelocate e copied s =
      let x := mapOf s e
      let t := relocated (s.vault.relocs.contains (e, copied)) e (unlisted e copied s)
      if x.state = .free ∨ x.state = .conflict ∨ x.slot.toNat ≠ copied then unlisted e copied s
      else if x.isSealed then eraseStripe (copied / stripeSlots) t else t := by
  have hgo : ¬((!s.vault.isOpen || (!s.vault.relocs.contains (e, copied) && decide (wearSpread s.vault.medium ≤ 200)) ||
      readHolds s e) = true) := by
    rw [hopen, hread]
    rcases hdue with h | h
    · rw [h]; simp
    · simp [Nat.not_le.mpr h]
  rw [doExtentRelocate]
  dsimp only
  rw [if_neg hgo]
  rfl

theorem doExtentRelocate_undue {s : State} {e copied : Nat}
    (h : ¬(s.vault.relocs.contains (e, copied) = true ∨ 200 < wearSpread s.vault.medium) ∨ readHolds s e = true) :
    doExtentRelocate e copied s = s := by
  rw [doExtentRelocate]
  dsimp only
  rw [if_pos]
  rcases h with h | h
  · rw [not_or, Bool.not_eq_true, Nat.not_lt] at h
    rw [h.1, decide_eq_true h.2]
    simp
  · rw [h, Bool.or_true]

theorem relocated_parts (patrol : Bool) (e : Nat) (s : State) :
    let t := relocated patrol e s
    extKind t e = extKind s e ∧ (mapOf t e).seq = s.vault.medium.seq + 1 ∧ (∀ k, k ≠ e → mapOf t k = mapOf s k) ∧
      t.vault.relocations = (if patrol then bump8 s.vault.relocations else s.vault.relocations) ∧
      t.vault.relocs = s.vault.relocs ∧ t.hbm = s.hbm ∧ t.gals = s.gals := by
  unfold relocated
  generalize hr : (if patrol then _ else s : State) = r
  have hmap : r.vault.map = s.vault.map ∧ r.vault.medium = s.vault.medium ∧ r.vault.relocs = s.vault.relocs ∧ r.hbm = s.hbm ∧
      r.gals = s.gals ∧ r.vault.relocations = if patrol then bump8 s.vault.relocations else s.vault.relocations := by
    rw [← hr]
    cases patrol <;> exact ⟨rfl, rfl, rfl, rfl, rfl, rfl⟩
  obtain ⟨hmap, hmedium, hrelocs, hhbm, hgals, hcount⟩ := hmap
  have hentry (k : Nat) : mapOf r k = mapOf s k := congrArg (smGet freeMap k) hmap
  have hslots := besideSlots_relocateExtent e r
  refine ⟨?_, ?_, fun k hk => ?_, ?_, ?_, ?_, ?_⟩
  · rw [extKind_relocateExtent, extKind, hentry, extKind]
  · rw [(mapOf_relocateExtent_same e r).2.2, hmedium]
  · rw [mapOf_relocateExtent_other e k r hk, hentry]
  · rw [relocations_of_besideSlots hslots, hcount]
  · rw [relocs_of_besideSlots hslots, hrelocs]
  · rw [hbm_of_besideSlots hslots, hhbm]
  · rw [gals_of_besideSlots hslots, hgals]

/-! ### PROGRAM_FAIL and PATROL_READ -/

/-- Stripe `k` retired after a failed program. -/
def stripeRetired (k : Nat) (s : State) : State :=
  modVault s (fun v => { v with
    progFails := bump8 v.progFails,
    medium := { v.medium with retired := k :: v.medium.retired, goodStripes := v.medium.goodStripes - 1 } })

/-- Stripe `k` erased and retired after a failed program. -/
def programFailed (k : Nat) (s : State) : State := checkReadOnly (stripeRetired k (eraseStripe k s))

theorem doProgramFail_erased {s : State} {e : Nat} {w : ExtWrite} (hw : s.vault.inFlight.find? (fun w => w.extent == e) = some w)
    (hread : stripeRead s (w.slot / 32) = false) : doProgramFail e s = programFailed (w.slot / 32) s := by
  have hfree : stripeRead s (w.slot / stripeSlots) = false := hread
  rw [doProgramFail, hw]
  dsimp only
  rw [hfree, if_neg (by decide), show stripeSlots = 32 from rfl, programFailed, stripeRetired]

theorem programFailed_parts (k : Nat) (s : State) :
    let u := programFailed k s
    u.vault.progFails = bump8 s.vault.progFails ∧ u.vault.medium.retired = k :: s.vault.medium.retired ∧
      u.vault.medium.goodStripes = s.vault.medium.goodStripes - 1 ∧
      (u.vault.medium.goodStripes < 32960 → u.vault.readOnly = true) ∧ u.hbm = s.hbm ∧ u.gals = s.gals := by
  unfold programFailed
  have hslots := (slotsMove_eraseStripe k s).1
  generalize eraseStripe k s = y at hslots ⊢
  have hread := besideSlots_of_besideStripes (besideStripes_checkReadOnly (stripeRetired k y))
  refine ⟨?_, ?_, ?_, fun h => readOnly_checkReadOnly (stripeRetired k y) (by rwa [goodStripes_of_besideSlots hread] at h), ?_, ?_⟩
  · rw [progFails_of_besideSlots hread, ← progFails_of_besideSlots hslots]; rfl
  · rw [retired_of_besideSlots hread, ← retired_of_besideSlots hslots]; rfl
  · rw [goodStripes_of_besideSlots hread, ← goodStripes_of_besideSlots hslots]; rfl
  · rw [hbm_of_besideSlots hread, ← hbm_of_besideSlots hslots]; rfl
  · rw [gals_of_besideSlots hread, ← gals_of_besideSlots hslots]; rfl

/-- The state after a patrol read of extent `e`. -/
def patrolRead (e bits : Nat) (bad : Bool) (s : State) : State :=
  let t := modVault s (fun v => { v with passLeft := v.passLeft.filter (· ≠ e) })
  if bad then damageExtent e (freeBits 11 t).1.toNat (freeBits 11 t).2
  else if s.vault.threshold.toNat < bits then modVault t (fun v => { v with relocs := (e, (mapOf s e).slot.toNat) :: v.relocs })
  else t

theorem doPatrolRead_read {s : State} {e bits : Nat} {bad : Bool} (hopen : s.vault.isOpen = true)
    (hpass : s.vault.patrolEn = true ∨ s.vault.openPass = true) (hstate : (mapOf s e).state = .written ∨ (mapOf s e).state = .damaged) :
    doPatrolRead e bits bad s = patrolRead e bits bad s := by
  have hgo : ¬((!s.vault.isOpen || !(s.vault.patrolEn || s.vault.openPass) || !patrolled (mapOf s e)) = true) := by
    rw [hopen]
    rcases hpass with h | h <;> rcases hstate with h' | h' <;> simp [h, h', patrolled]
  rw [doPatrolRead]
  dsimp only
  rw [if_neg hgo]
  rfl

theorem damageExtent_parts (e unit : Nat) (s : State) :
    let u := damageExtent e unit s
    (mapOf u e).state = .damaged ∧ u.vault.uncorrectable = bump8 s.vault.uncorrectable ∧ u.health.taps.uc = s.health.taps.uc + 1 ∧
      (∀ k, k ≠ e → mapOf u k = mapOf s k) ∧ u.vault.passLeft = s.vault.passLeft ∧ u.vault.medium.data = s.vault.medium.data ∧
      u.hbm = s.hbm ∧ u.gals = s.gals := by
  unfold damageExtent
  dsimp only
  generalize hr : modMedium _ _ = r
  have hslots := besideSlots_putMap e .damaged (mapOf s e).slot.toNat (mapOf s e).isSealed r
  refine ⟨by rw [mapOf_putMap_same]; rfl, ?_, ?_, fun k hk => ?_, ?_, ?_, ?_, ?_⟩
  · rw [uncorrectable_of_besideSlots hslots, ← hr]; rfl
  · rw [health_of_besideSlots hslots, ← hr]; rfl
  · rw [mapOf_putMap_other _ _ _ _ _ _ hk, ← hr]; rfl
  · rw [passLeft_of_besideSlots hslots, ← hr]; rfl
  · rw [(putMap_parts ..).2.2.1, ← hr]; rfl
  · rw [hbm_of_besideSlots hslots, ← hr]; rfl
  · rw [gals_of_besideSlots hslots, ← hr]; rfl

theorem patrolled_parts (e bits : Nat) (bad : Bool) (s : State) :
    let u := patrolRead e bits bad s
    u.vault.passLeft = s.vault.passLeft.filter (· ≠ e) ∧
      (bad = true → (mapOf u e).state = .damaged ∧ u.vault.uncorrectable = bump8 s.vault.uncorrectable ∧
        u.health.taps.uc = s.health.taps.uc + 1 ∧ ∀ k, k ≠ e → mapOf u k = mapOf s k) ∧
      (bad = false → u.vault.map = s.vault.map ∧ u.vault.relocs =
        (if s.vault.threshold.toNat < bits then (e, (mapOf s e).slot.toNat) :: s.vault.relocs else s.vault.relocs)) ∧
      u.vault.medium.data = s.vault.medium.data ∧ u.hbm = s.hbm ∧ u.gals = s.gals := by
  unfold patrolRead
  dsimp only
  cases bad
  · rw [if_neg (by decide)]
    split <;> exact ⟨rfl, fun h => absurd h (by decide), fun _ => ⟨rfl, rfl⟩, rfl, rfl, rfl⟩
  · rw [if_pos rfl]
    obtain ⟨hstate, hcount, huc, hother, hpass, hdata, hhbm, hgals⟩ := damageExtent_parts e
      (freeBits 11 (modVault s (fun v => { v with passLeft := v.passLeft.filter (· ≠ e) }))).1.toNat
      (freeBits 11 (modVault s (fun v => { v with passLeft := v.passLeft.filter (· ≠ e) }))).2
    exact ⟨hpass, fun _ => ⟨hstate, hcount, huc, hother⟩, fun h => absurd h (by decide), hdata, hhbm, hgals⟩

/-- Settles O43. -/
theorem vaultEventsAct : Obligations.VaultEventsAct := by
  intro e s
  refine ⟨fun hread => ?_, fun w hw hread => ⟨commitExtent e.toNat .written w.slot w.isSealed (commitBegins w s), ?_, ?_⟩,
    fun w hw hread => ?_, fun bits bad hopen hpass hstate => ?_, fun copied hopen => ⟨fun h => ?_, fun hdue hread hx => ?_,
      fun hdue hread hslot hx => ?_⟩, fun hopen hpass => ?_⟩
  · rw [exec, execExtentCommit, doExtentCommit]
    split
    · rw [if_pos hread]
    · rfl
  · rw [exec, execExtentCommit, doExtentCommit_next hw, hread]
    rfl
  · have hkind := extKind_commitExtent e.toNat .written w.slot w.isSealed (commitBegins w s)
    have hslots := besideSlots_commitExtent e.toNat .written w.slot w.isSealed (commitBegins w s)
    refine ⟨congrArg Prod.fst hkind, congrArg Prod.snd hkind, bytesWritten_of_besideSlots hslots,
      (hbm_of_besideSlots hslots :), (gals_of_besideSlots hslots :), fun hstale => ?_⟩
    have hmap := mapOf_commitExtent e.toNat .written w.slot w.isSealed (commitBegins w s) hstale
    refine ⟨(hmap e.toNat).trans (if_pos rfl), fun k hk => (hmap k).trans (if_neg hk), ?_, fun a ha =>
      data_commitExtent e.toNat .written w.slot w.isSealed (commitBegins w s) hstale a ha⟩
    rw [inFlight_of_besideStripes (besideStripes_commitExtent e.toNat .written w.slot w.isSealed (commitBegins w s) hstale)]
    exact (putMap_parts e.toNat .written w.slot w.isSealed (commitBegins w s)).1
  · exact ⟨_, congrArg Host.Outcome.next (doProgramFail_erased hw hread), programFailed_parts (w.slot / 32) s⟩
  · exact ⟨_, congrArg Host.Outcome.next (doPatrolRead_read hopen hpass hstate), patrolled_parts e.toNat bits bad s⟩
  · exact congrArg _ (doExtentRelocate_undue h)
  · rw [exec, execExtentRelocate, doExtentRelocate_due hopen hdue hread]
    dsimp only
    rw [if_pos]
    · rfl
    · rcases hx with h | h | h
      · exact Or.inr (Or.inr (fun e => h (BitVec.eq_of_toNat_eq e)))
      · exact Or.inl h
      · exact Or.inr (Or.inl h)
  · have hgo : ¬((mapOf s e.toNat).state = .free ∨ (mapOf s e.toNat).state = .conflict ∨
        (mapOf s e.toNat).slot.toNat ≠ copied.toNat) := by
      rw [hslot]
      rcases hx with h | h <;> simp [h]
    have hrun := doExtentRelocate_due hopen hdue hread
    obtain ⟨hkind, hseq, hother, hcount, hrelocs, hhbm, hgals⟩ :=
      relocated_parts (s.vault.relocs.contains (e.toNat, copied.toNat)) e.toNat (unlisted e.toNat copied.toNat s)
    dsimp only at hrun
    rw [if_neg hgo] at hrun
    generalize relocated _ _ _ = t at hkind hseq hother hcount hrelocs hhbm hgals hrun
    rw [exec, execExtentRelocate, hrun]
    split
    · next hsealed =>
      obtain ⟨hslots, hkinds⟩ := slotsMove_eraseStripe (copied.toNat / stripeSlots) t
      refine ⟨eraseStripe (copied.toNat / stripeSlots) t, rfl, state_of_extKind ((hkinds e.toNat).trans hkind),
        isSealed_of_extKind ((hkinds e.toNat).trans hkind), (relocations_of_besideSlots hslots).trans hcount,
        (relocs_of_besideSlots hslots).trans hrelocs, (hbm_of_besideSlots hslots).trans hhbm, (gals_of_besideSlots hslots).trans hgals,
        fun hplain => ?_⟩
      rw [hsealed] at hplain
      exact absurd hplain (by decide)
    · exact ⟨t, rfl, state_of_extKind hkind, isSealed_of_extKind hkind, hcount, hrelocs, hhbm, hgals, fun _ => ⟨hseq, hother⟩⟩
  · rw [exec, execOpenPassDone, doOpenPassDone, hopen, if_pos]
    · rfl
    · rw [Bool.true_and, List.all_eq_true]
      intro k hk
      rw [hpass k hk]
      rfl

end Sys2Proof.Machine
end

section
/-!
PROOF. Writes of device memory that meet no error and no atomic range (14), and the Vault's commands (15 Table 15-5).
-/

namespace Sys2Proof.Machine

/-! ### Bytes put into a memory -/

theorem smGet_smPut (k j : Nat) (vs : List Byte) (m : SMem Byte) :
    smGet 0 j (smPut 0 k vs m) = if k ≤ j ∧ j < k + vs.length then vs.getD (j - k) 0 else smGet 0 j m := by
  split
  · next h =>
    have hi : j - k < vs.length := by omega
    have e : j = k + (j - k) := by omega
    rw [List.getD_eq_getElem _ _ hi, ← smGet_smPut_in 0 k (j - k) vs m hi, ← e]
  · next h => rw [smGet_smPut_out 0 k j vs m (by omega)]

theorem smGet_smPut_append (k j : Nat) (vs ws : List Byte) (m : SMem Byte) :
    smGet 0 j (smPut 0 (k + vs.length) ws (smPut 0 k vs m)) = smGet 0 j (smPut 0 k (vs ++ ws) m) := by
  rw [smGet_smPut, smGet_smPut, smGet_smPut, List.length_append]
  by_cases hlow : k ≤ j
  · by_cases hv : j < k + vs.length
    · rw [if_neg (by omega), if_pos ⟨hlow, hv⟩, if_pos (by omega), List.getD_append _ _ _ _ (by omega)]
    · by_cases hw : j < k + vs.length + ws.length
      · rw [if_pos (by omega), if_pos (by omega), List.getD_append_right _ _ _ _ (by omega)]
        congr 1
        omega
      · rw [if_neg (by omega), if_neg (by omega), if_neg (by omega)]
  · rw [if_neg (by omega), if_neg (by omega), if_neg (by omega)]

theorem smRead_congr (k n : Nat) (m m' : SMem Byte) (h : ∀ j, k ≤ j → j < k + n → smGet 0 j m = smGet 0 j m') :
    smRead 0 k n m = smRead 0 k n m' := by
  refine List.ext_getElem (by rw [smRead_length, smRead_length]) (fun i h1 h2 => ?_)
  rw [smRead_length] at h1
  rw [smRead_get 0 k n i m h1, smRead_get 0 k n i m' h1, h (k + i) (by omega) (by omega)]

theorem smRead_smPut_part (k i n : Nat) (vs : List Byte) (m : SMem Byte) (h : i + n ≤ vs.length) :
    smRead 0 (k + i) n (smPut 0 k vs m) = (vs.drop i).take n := by
  refine List.ext_getElem (by rw [smRead_length, List.length_take, List.length_drop]; omega) (fun j h1 h2 => ?_)
  rw [smRead_length] at h1
  rw [smRead_get 0 _ n j _ h1, smGet_smPut, if_pos (by omega), List.getD_eq_getElem _ _ (by omega), List.getElem_take, List.getElem_drop]
  congr 1
  omega

/-! ### The hub's writes where no line has an error -/

/-- From `s` to `t` the bytes `bs` were written from `a` on, and nothing else changed but what the host may cache. -/
def WroteBytes (a : Nat) (bs : List Byte) (s t : State) : Prop :=
  t = { s with host := { s.host with hostLines := t.host.hostLines }, hbm := { s.hbm with mem := t.hbm.mem } } ∧
    ∀ b, smGet 0 b t.hbm.mem = smGet 0 b (smPut 0 a bs s.hbm.mem)

/-- No line has an error and no atomic range is open. -/
def CleanHbm (s : State) : Prop := s.hbm.dead = [] ∧ s.hbm.weak = [] ∧ Claims.noRanges s

theorem WroteBytes.clean {a : Nat} {bs : List Byte} {s t : State} (h : WroteBytes a bs s t) (hs : CleanHbm s) : CleanHbm t := by
  rw [h.1]
  exact hs

theorem WroteBytes.trans {a : Nat} {bs cs : List Byte} {s t u : State} (h1 : WroteBytes a bs s t)
    (h2 : WroteBytes (a + bs.length) cs t u) : WroteBytes a (bs ++ cs) s u := by
  refine ⟨?_, fun b => ?_⟩
  · rw [h2.1, h1.1]
  · rw [h2.2, ← smGet_smPut_append, smGet_smPut, h1.2, ← smGet_smPut]

theorem hbm_of_filtered (x : Hbm) (p : Nat → Bool) (hdead : x.dead = []) (hweak : x.weak = []) :
    ({ x with weak := x.weak.filter p, dead := x.dead.filter p } : Hbm) = x := by
  cases x
  simp_all

theorem hbm_of_filteredWeak (x : Hbm) (p : Nat → Bool) (hweak : x.weak = []) : ({ x with weak := x.weak.filter p } : Hbm) = x := by
  cases x
  simp_all

/-- The state after a write within one line. -/
def pieceWritten (a : Nat) (bs : List Byte) (s : State) : State :=
  { snoopLine s (lineOf a) with hbm := { s.hbm with mem := smPut 0 a bs s.hbm.mem } }

theorem wroteBytes_pieceWritten (a : Nat) (bs : List Byte) (s : State) : WroteBytes a bs s (pieceWritten a bs s) :=
  ⟨rfl, fun _ => rfl⟩

theorem hubWriteLine_clean {s : State} (h : CleanHbm s) (a : Nat) (bs : List Byte) :
    hubWriteLine s a bs = (true, pieceWritten a bs s) := by
  obtain ⟨hdead, hweak, hnone⟩ := h
  have hsnoop : Claims.noRanges (snoopLine s (lineOf a)) := hnone
  have hread : readLineEcc 2 (lineOf a) (snoopLine s (lineOf a)) = (false, snoopLine s (lineOf a)) :=
    readLineEcc_of_sound 2 _ (findRange_of_noRanges hsnoop _) (by show s.hbm.dead.contains _ = false; rw [hdead]; rfl)
      (by show s.hbm.weak.contains _ = false; rw [hweak]; rfl)
  rw [hubWriteLine]
  simp only [findRange_of_noRanges hsnoop, hread]
  split
  · rw [hbm_of_filtered (snoopLine s (lineOf a)).hbm (· ≠ lineOf a) hdead hweak]
    rw [hbmPutBytes_of_noRanges hsnoop]
    rfl
  · rw [if_neg (by decide), hbm_of_filteredWeak (snoopLine s (lineOf a)).hbm (· ≠ lineOf a) hweak,
      hbmPutBytes_of_noRanges hsnoop]
    rfl

theorem hubWriteFrom_clean (fuel a : Nat) (bs : List Byte) (done : Nat) {s : State} (h : CleanHbm s) (hf : bs.length < fuel) :
    ∃ t, hubWriteFrom fuel a bs done s = (done + bs.length, t) ∧ WroteBytes a bs s t := by
  induction fuel generalizing a bs done s with
  | zero => exact absurd hf (Nat.not_lt_zero _)
  | succ fuel ih =>
    cases bs with
    | nil =>
      refine ⟨s, rfl, rfl, fun b => ?_⟩
      rw [smGet_smPut, if_neg (by simp only [List.length_nil]; omega)]
    | cons b bs =>
      have hn : 0 < 64 - a % 64 := by have := Nat.mod_lt a (by decide : 0 < 64); omega
      generalize hns : 64 - a % 64 = n at hn
      have hline := wroteBytes_pieceWritten a ((b :: bs).take n) s
      have hdrop : ((b :: bs).drop n).length < fuel := by
        rw [List.length_drop]
        simp only [List.length_cons] at hf ⊢
        omega
      obtain ⟨t, ht, hwrote⟩ := ih (a + ((b :: bs).take n).length) ((b :: bs).drop n) (done + ((b :: bs).take n).length)
        (hline.clean h) hdrop
      refine ⟨t, ?_, ?_⟩
      · have hstep : hubWriteFrom (fuel + 1) a (b :: bs) done s =
            if (hubWriteLine s a ((b :: bs).take n)).1 then hubWriteFrom fuel (a + ((b :: bs).take n).length) ((b :: bs).drop n)
              (done + ((b :: bs).take n).length) (hubWriteLine s a ((b :: bs).take n)).2
            else (done, (hubWriteLine s a ((b :: bs).take n)).2) := by rw [← hns]; rfl
        rw [hstep, hubWriteLine_clean h, if_pos rfl, ht]
        refine congrArg (·, t) ?_
        rw [Nat.add_assoc, ← List.length_append, List.take_append_drop]
      · have := hline.trans hwrote
        rwa [List.take_append_drop] at this

/-- A write of device memory that meets no error and no atomic range writes all its bytes and nothing else. -/
theorem hubWrite_clean {s : State} (h : CleanHbm s) (a : Nat) (bs : List Byte) :
    ∃ t, hubWrite s a bs = (bs.length, t) ∧ WroteBytes a bs s t := by
  obtain ⟨t, ht, hwrote⟩ := hubWriteFrom_clean (bs.length + 1) a bs 0 h (Nat.lt_succ_self _)
  rw [Nat.zero_add] at ht
  exact ⟨t, ht, hwrote⟩

theorem WroteBytes.hbmGet {a : Nat} {bs : List Byte} {s t : State} (h : WroteBytes a bs s t) (hs : CleanHbm s) (i n : Nat)
    (hin : i + n ≤ bs.length) : hbmGet t (a + i) n = (bs.drop i).take n := by
  rw [hbmGet_of_noRanges (h.clean hs).2.2, smRead_congr (a + i) n _ _ (fun j _ _ => h.2 j), smRead_smPut_part a i n bs _ hin]

theorem WroteBytes.outside {a : Nat} {bs : List Byte} {s t : State} (h : WroteBytes a bs s t) (b : Nat)
    (hb : b < a ∨ a + bs.length ≤ b) : smGet 0 b t.hbm.mem = smGet 0 b s.hbm.mem :=
  (h.2 b).trans (smGet_smPut_out 0 a b bs s.hbm.mem hb)

/-- The piece number `i` of a row of pieces of one length. -/
theorem take_drop_flatMap {α : Type} (f : α → List Byte) (n : Nat) (l : List α) (hf : ∀ x ∈ l, (f x).length = n) (i : Nat)
    (hi : i < l.length) : ((l.flatMap f).drop (n * i)).take n = f l[i] := by
  induction l generalizing i with
  | nil => exact absurd hi (Nat.not_lt_zero _)
  | cons x l ih =>
    have hx := hf x (List.mem_cons_self ..)
    rw [List.flatMap_cons]
    cases i with
    | zero => rw [Nat.mul_zero, List.drop_zero, List.take_append_of_le_length hx.ge, ← hx, List.take_length]; rfl
    | succ i =>
      rw [Nat.mul_succ, Nat.add_comm, ← List.drop_drop, ← hx, List.drop_left, hx]
      exact ih (fun y hy => hf y (List.mem_cons_of_mem _ hy)) i (Nat.lt_of_succ_lt_succ hi)

theorem length_flatMap_pieces {α : Type} (f : α → List Byte) (n : Nat) (l : List α) (hf : ∀ x ∈ l, (f x).length = n) :
    (l.flatMap f).length = n * l.length := by
  induction l with
  | nil => rfl
  | cons x l ih =>
    rw [List.flatMap_cons, List.length_append, hf x (List.mem_cons_self ..), ih (fun y hy => hf y (List.mem_cons_of_mem _ hy)),
      List.length_cons, Nat.mul_succ, Nat.add_comm]

/-! ### The Vault's commands -/

theorem mem_insertRising (l x : Nat) (ls : List Nat) : x ∈ insertRising l ls ↔ x = l ∨ x ∈ ls := by
  induction ls with
  | nil => simp [insertRising]
  | cons y ys ih =>
    rw [insertRising]
    split
    · simp
    · split
      · next h => simp [h]
      · simp only [List.mem_cons, ih]
        exact or_left_comm

theorem mem_sortRising (x : Nat) (ls : List Nat) : x ∈ sortRising ls ↔ x ∈ ls := by
  induction ls with
  | nil => rfl
  | cons l ls ih => rw [sortRising, mem_insertRising, ih, List.mem_cons]

/-- A word other than the default one stands in the memory. -/
theorem mem_of_smGet {α : Type} (d : α) (k : Nat) (m : SMem α) (h : smGet d k m ≠ d) : (k, smGet d k m) ∈ m := by
  induction m with
  | nil => exact absurd rfl h
  | cons p m ih =>
    by_cases hk : p.1 = k
    · rw [smGet, if_pos hk, ← hk]
      exact List.mem_cons_self ..
    · rw [smGet, if_neg hk] at h ⊢
      exact List.mem_cons_of_mem _ (ih h)

theorem mem_liveSlots (s : State) (e : Nat) (h : (mapOf s e).state ≠ .free) :
    (mapOf s e).slot.toNat ∈ (s.vault.map.filter (fun p => p.2.state != .free)).map (·.2.slot.toNat) := by
  have hne : mapOf s e ≠ freeMap := fun hfree => h (congrArg MapEntry.state hfree)
  exact List.mem_map.mpr ⟨(e, mapOf s e), List.mem_filter.mpr ⟨mem_of_smGet freeMap e _ hne, by simpa using h⟩, rfl⟩

theorem descriptorActive_of_none (s : State) (h : ∀ k < 64, (chanOf s k).cur = .none) : descriptorActive s = false := by
  rw [descriptorActive, List.any_eq_false]
  intro c hc
  obtain ⟨k, hk, rfl⟩ := List.mem_iff_getElem.mp hc
  have hk' : k < 64 := by simpa using hk
  have := h k hk'
  rw [chanOf, vget, Vector.getElem?_eq_getElem hk', Option.getD_some] at this
  simp [this]

/-- The state without the DRBG's. -/
def besideDrbg (s : State) : State := { s with freeCount := 0, drbg := Drbg.reset }

theorem besideDrbg_drbgReseed (s : State) : besideDrbg (drbgReseed s) = besideDrbg s := rfl

theorem besideDrbg_drbgAnswer (s : State) (r : List Byte × DrbgState) : besideDrbg (drbgAnswer s r).2 = besideDrbg s := rfl

theorem besideDrbg_drbgRequest (n : Nat) (s : State) : besideDrbg (drbgRequest n s).2 = besideDrbg s := by
  rw [drbgRequest]
  refine (besideDrbg_drbgAnswer _ _).trans ?_
  split
  · exact besideDrbg_drbgReseed s
  · rfl

theorem besideDrbg_drbgDrawFrom (fuel n : Nat) (s : State) : besideDrbg (drbgDrawFrom fuel n s).2 = besideDrbg s := by
  induction fuel generalizing n s with
  | zero => rfl
  | succ fuel ih =>
    rw [drbgDrawFrom]
    split
    · rfl
    · exact (ih _ _).trans (besideDrbg_drbgRequest _ s)

theorem besideDrbg_drbgDraw (n : Nat) (s : State) : besideDrbg (drbgDraw n s).2 = besideDrbg s := besideDrbg_drbgDrawFrom _ n s

theorem newKeys_eq (s : State) : newKeys s = modMedium (modVault (drbgDraw 128 s).2 (fun v => { v with openKeys := (drbgDraw 128 s).1 }))
    (fun m => { m with
      keys := wrapKeys (drbgDraw 128 s).1, data := [],
      lost := sortRising ((((drbgDraw 128 s).2.vault.map.filter (fun p => p.2.state != .free)).map (·.2.slot.toNat)) ++
        m.candidates.map (·.slot)) }) := rfl

theorem newKeys_parts (s : State) :
    let u := modVault (newKeys s) (fun v => { v with sanitizing := true })
    u.vault.sanitizing = true ∧ u.vault.openKeys = (drbgDraw 128 s).1 ∧ u.vault.medium.keys = wrapKeys (drbgDraw 128 s).1 ∧
      u.vault.medium.data = [] ∧ (∀ e, (mapOf s e).state ≠ .free → (mapOf s e).slot.toNat ∈ u.vault.medium.lost) ∧
      u.vault.map = s.vault.map ∧ u.hbm = s.hbm ∧ u.hostMem = s.hostMem ∧ u.gals = s.gals := by
  have hdrbg := besideDrbg_drbgDraw 128 s
  rw [newKeys_eq]
  generalize drbgDraw 128 s = r at hdrbg ⊢
  have hmap : r.2.vault.map = s.vault.map := (congrArg (fun x => x.vault.map) hdrbg :)
  refine ⟨rfl, rfl, rfl, rfl, fun e he => (mem_sortRising _ _).mpr (List.mem_append_left _ ?_), hmap, (congrArg State.hbm hdrbg :),
    (congrArg State.hostMem hdrbg :), (congrArg State.gals hdrbg :)⟩
  rw [hmap]
  exact mem_liveSlots s e he

/-- The map entries that EXTENT_QUERY writes. -/
def mapWords (first count : Nat) (s : State) : List Byte :=
  (List.range count).flatMap (fun i => leBytes 8 (mapWord (mapOf s (first + i))))

theorem length_mapWords (first count : Nat) (s : State) : (mapWords first count s).length = 8 * count := by
  rw [mapWords, length_flatMap_pieces _ 8 _ (fun i _ => leBytes_length 8 _), List.length_range]

theorem take_drop_mapWords (first count : Nat) (s : State) (i : Nat) (hi : i < count) :
    ((mapWords first count s).drop (8 * i)).take 8 = leBytes 8 (mapWord (mapOf s (first + i))) := by
  rw [mapWords, take_drop_flatMap _ 8 _ (fun i _ => leBytes_length 8 _) i (by rwa [List.length_range]), List.getElem_range]

/-- Settles O42. -/
theorem vaultCommandsRun : Obligations.VaultCommandsRun := by
  intro h first count addr s hd
  refine ⟨next_command h _ _ s hd _ _ ?_, fun hnamed => next_command h _ _ s hd _ _ ?_,
    fun hcount hfits hdue hro => next_command h _ _ s hd _ _ ?_, fun hcount hmax hfits hroom husable hdead hweak hnone => ?_,
    fun hlive hidle hstage hopen hro => ?_, fun enable threshold henable hthreshold => next_command h _ _ s hd _ _ ?_⟩
  · rw [doVaultOpen]
    split <;> rfl
  · rw [doVaultClose, hnamed]
    rfl
  · have hext : extentsOk first.toNat count.toNat = true := by simp [extentsOk, hcount, extentCount, hfits]
    rw [doExtentRelease, hext, hdue, hro]
    rfl
  · obtain ⟨u, hu, hwrote⟩ := hubWrite_clean ⟨hdead, hweak, hnone⟩ addr.toNat (mapWords first.toNat count.toNat s)
    have hlen : (mapWords first.toNat count.toNat s).length = 8 * count.toNat := length_mapWords _ _ s
    refine ⟨u, next_command h _ _ s hd _ _ ?_, fun i hi => ?_, fun a ha => hwrote.outside a (by rw [hlen]; exact ha), ?_, ?_, ?_, ?_⟩
    · rw [doExtentQuery, if_neg (by omega), if_neg (by rw [extentCount, hbmBytes]; omega), if_neg (by simp [husable])]
      show ((if (hubWrite s addr.toNat (mapWords first.toNat count.toNat s)).1 = 8 * count.toNat then ansOk else ansFail stRegionPoisoned,
        (hubWrite s addr.toNat (mapWords first.toNat count.toNat s)).2) : Answer × State) = _
      rw [hu, hlen, if_pos rfl]
    · rw [hbmNat, hwrote.hbmGet ⟨hdead, hweak, hnone⟩ _ _ (by rw [hlen]; omega), take_drop_mapWords _ _ s i hi, leNat_leBytes]
      rfl
    · rw [hwrote.1]
    · rw [hwrote.1]
    · rw [hwrote.1]
    · rw [hwrote.1]
  · have hbusy : descriptorActive s = false := descriptorActive_of_none s hidle
    have hstage' : (s.health.stage != .idle) = false := by rw [hstage]; decide
    refine ⟨modVault (newKeys s) (fun v => { v with sanitizing := true }), next_command h _ _ s hd _ _ ?_, newKeys_parts s⟩
    rw [doVaultSanitize, doVaultSanitize.checkpointStageBusy, hlive, hbusy, hopen, hro, hstage']
    rfl
  · rw [doPatrolSet, if_neg (by omega), toNat_beq_one, BitVec.ofNat_toNat, BitVec.setWidth_eq]
    rfl

end Sys2Proof.Machine
end

section
/-!
PROOF. The end of long commands (16 R350).
-/

namespace Sys2Proof.Machine

/-! ### LONG_COMMAND_DONE -/

/-- The state without the long command number `i`. -/
def withoutWork (i : Nat) (s : State) : State := { s with host := { s.host with longWork := s.host.longWork.eraseIdx i } }

section
variable {i : Nat} {o : WorkOutcome} {w : LongWork} {s : State} (hd : docentUp s = true) (hw : s.host.longWork[i]? = some w)
  {k : LongKind} (hk : w.kind = k)
include hd hw hk

/-- A long command whose work ends writes its DONE entry. -/
theorem exec_longCommandDone {a : Answer} {t : State} (hbefore : engineBefore s i k = false) (hafter : ∀ x, afterDone k x = x)
    (hf : finishWork k o (withoutWork i s) = some (a, t)) :
    exec (.longCommandDone i o) s = .next (writeDone t w.hdr w.opcode a) := by
  rw [exec, execLongCommandDone, doLongDone, hw]
  dsimp only
  rw [if_neg (by rw [hk, hbefore, firmwareRuns, hd]; simp), hk, show (takeWork i s).2 = withoutWork i s from rfl, hf]
  exact congrArg _ (hafter _)

/-- A long command whose work does not end yet stays. -/
theorem exec_longCommandDone_none (hf : finishWork k o (withoutWork i s) = .none) : exec (.longCommandDone i o) s = .next s := by
  rw [exec, execLongCommandDone, doLongDone, hw]
  dsimp only
  split
  · rfl
  · rw [hk, show (takeWork i s).2 = withoutWork i s from rfl, hf]

end

/-! ### The galleries -/

theorem galOf_startGallery_other (g : Nat) (s : State) (k : Nat) (h : k ≠ g) : galOf (startGallery g s) k = galOf s k :=
  (galOf_modGal_other _ g k _ h).trans (galOf_modGal_other s g k _ h)

theorem clockOn_startGallery (g : Nat) (s : State) (hg : g < 32) : (galOf (startGallery g s) g).regs.clockOn = true := by
  obtain ⟨c, h⟩ := galOf_modCabRegs (modRegs s g (fun r => { r with clockOn := true })) g g (fun c => { c with zeroized := true })
  rw [startGallery, h, modRegs, galOf_modGal_same s g _ hg]

/-- The state without the galleries'. -/
def besideGals (s : State) : State := { s with gals := State.reset.gals }

theorem besideGals_startGallery (g : Nat) (s : State) : besideGals (startGallery g s) = besideGals s := rfl

/-- The galleries' islands locked and the bridge up. -/
def bridgeUp (s : State) : State :=
  { s with
    time := { s.time with islandLock := lockBridge (lockGalleries s.time.islandLock (sumNat ((List.range (numGal s)).map (2 ^ ·)))) 3 }
    bridge := { s.bridge with dir10Up := true, dir01Up := true } }

/-- The module with the clocks of all its galleries on and the bridge up. -/
def galleriesUp (s : State) : State := foldRange (numGal s) startGallery (bridgeUp s)

theorem failedGals_zero (s : State) : failedGals s 0 = [] := by
  rw [failedGals, List.filter_eq_nil_iff]
  intro g _
  simp

theorem finishGalleriesStart_all (s : State) (h : s.power.state = .idle) :
    finishGalleriesStart true 0 s = (ansOk, setPowerState (galleriesUp s) .active) := by
  have hgood : (List.range (numGal s)).filter (fun g => !([] : List Nat).contains g) = List.range (numGal s) :=
    List.filter_eq_self.mpr (fun _ _ => rfl)
  rw [finishGalleriesStart, h, if_neg (by decide), failedGals_zero]
  dsimp only
  rw [hgood]
  rfl

theorem galleriesUp_parts (s : State) :
    let t := setPowerState (galleriesUp s) .active
    t.power.state = .active ∧ (∀ g < numGal s, (galOf t g).regs.clockOn = true) ∧ t.bridge.dir10Up = true ∧
      t.bridge.dir01Up = true ∧ t.hbm = s.hbm ∧ t.hostMem = s.hostMem ∧ t.vault = s.vault ∧ t.tours = s.tours := by
  dsimp only
  obtain ⟨r, q, hframe⟩ := setPowerState_frame (galleriesUp s) .active
  rw [hframe]
  have hbeside : besideGals (galleriesUp s) = besideGals (bridgeUp s) :=
    foldRange_keeps besideGals (numGal s) startGallery besideGals_startGallery (bridgeUp s)
  refine ⟨rfl, fun g hg => ?_, (congrArg (fun x => x.bridge.dir10Up) hbeside :), (congrArg (fun x => x.bridge.dir01Up) hbeside :),
    (congrArg State.hbm hbeside :), (congrArg State.hostMem hbeside :), (congrArg State.vault hbeside :),
    (congrArg State.tours hbeside :)⟩
  obtain ⟨x, -, hx⟩ := (galOf_foldRange startGallery galOf_startGallery_other (bridgeUp s) g).2 hg
  show (galOf (galleriesUp s) g).regs.clockOn = true
  rw [galleriesUp, hx, clockOn_startGallery g x (lt_of_lt_of_le hg (numGal_le s))]

/-! ### EXTENT_RELEASE -/

theorem candidates_of_besideStripes {s t : State} (h : besideStripes t = besideStripes s) :
    t.vault.medium.candidates = s.vault.medium.candidates := (congrArg (fun x => x.vault.medium.candidates) h :)

theorem candidates_entryTaken (e : Nat) (st : ExtState) (slot : Nat) (isSealed : Bool) (s : State) :
    (entryTaken e st slot isSealed s).vault.medium.candidates = s.vault.medium.candidates.filter (fun c => c.extent != e) :=
  congrArg (List.filter _) (putMap_parts e st slot isSealed s).2.1

theorem mem_smSet {α : Type} [DecidableEq α] (d : α) (k : Nat) (v : α) (m : SMem α) (p : Nat × α) (h : p ∈ smSet d k v m) :
    p = (k, v) ∨ p ∈ m := by
  induction m with
  | nil =>
    rw [smSet] at h
    split at h
    · exact absurd h (List.not_mem_nil)
    · exact Or.inl (List.mem_singleton.mp h)
  | cons q m ih =>
    rw [smSet] at h
    split at h
    · split at h
      · exact Or.inr h
      · exact List.mem_cons.mp h
    · split at h
      · split at h
        · exact Or.inr (List.mem_cons_of_mem _ h)
        · exact (List.mem_cons.mp h).imp id (List.mem_cons_of_mem _)
      · rcases List.mem_cons.mp h with h | h
        · exact Or.inr (h ▸ List.mem_cons_self ..)
        · exact (ih h).imp id (List.mem_cons_of_mem _)

section
variable {e : Nat} {s : State} (hstale : ∀ p ∈ staleSlots s e, p.2 = false)
include hstale

/-- The release of an extent makes no slot live. -/
theorem slotLive_released (k : Nat) (h : slotLive (commitExtent e .free 0 false s) k = true) : slotLive s k = true := by
  rw [slotLive_of_besideStripes (besideStripes_commitExtent e .free 0 false s hstale)] at h
  obtain ⟨hflight, -, -, hdma, -⟩ := putMap_parts e .free 0 false s
  have hread : readSlots (entryTaken e .free 0 false s) = readSlots s := by
    rw [readSlots, readSlots, show (entryTaken e .free 0 false s).dma = s.dma from hdma]
  rw [slotLive] at h ⊢
  rw [candidates_entryTaken, hread, show (entryTaken e .free 0 false s).vault.inFlight = s.vault.inFlight from hflight,
    show (entryTaken e .free 0 false s).vault.map = _ from putMap_map e .free 0 false s] at h
  simp only [Bool.or_eq_true, List.any_eq_true] at h ⊢
  rcases h with ((⟨p, hp, hlive⟩ | h) | ⟨c, hc, hslot⟩) | h
  · rcases mem_smSet _ _ _ _ p hp with rfl | hp
    · exact absurd hlive (by simp [newEntry])
    · exact Or.inl (Or.inl (Or.inl ⟨p, hp, hlive⟩))
  · exact Or.inl (Or.inl (Or.inr h))
  · exact Or.inl (Or.inr ⟨c, (List.mem_filter.mp hc).1, hslot⟩)
  · exact Or.inr h

/-- The release of an extent leaves the slots that the others' entries would make stale. -/
theorem staleSlots_released (k : Nat) (hk : k ≠ e) : staleSlots (commitExtent e .free 0 false s) k = staleSlots s k := by
  have hmap : mapOf (commitExtent e .free 0 false s) k = mapOf s k := (mapOf_commitExtent e .free 0 false s hstale k).trans (if_neg hk)
  have hcands : (commitExtent e .free 0 false s).vault.medium.candidates.filter (fun c => c.extent == k) =
      s.vault.medium.candidates.filter (fun c => c.extent == k) := by
    rw [candidates_of_besideStripes (besideStripes_commitExtent e .free 0 false s hstale), candidates_entryTaken, List.filter_filter]
    refine List.filter_congr (fun c _ => ?_)
    by_cases hc : c.extent = k <;> simp [hc, hk]
  rw [staleSlots, staleSlots, hmap, hcands]

end

/-- The extents from `first` on, released one by one. -/
def releaseExtents (first n : Nat) (s : State) : State := foldRange n (fun i x => commitExtent (first + i) .free 0 false x) s

theorem releaseExtents_succ (first n : Nat) (s : State) :
    releaseExtents first (n + 1) s = commitExtent (first + n) .free 0 false (releaseExtents first n s) := by
  simp [releaseExtents, foldRange, List.range_succ]

theorem releaseExtents_parts (first n : Nat) (s : State) (h : ∀ x < n, ∀ p ∈ staleSlots s (first + x), p.2 = false) :
    let t := releaseExtents first n s
    besideSlots t = besideSlots s ∧ (∀ x < n, (mapOf t (first + x)).state = .free) ∧
      (∀ e, e < first ∨ first + n ≤ e → mapOf t e = mapOf s e ∧ staleSlots t e = staleSlots s e) ∧
      (∀ k, slotLive t k = true → slotLive s k = true) ∧
      (∀ a, slotLive t (a / extBytes) = true → smGet 0 a t.vault.medium.data = smGet 0 a s.vault.medium.data) := by
  induction n with
  | zero => exact ⟨rfl, fun x hx => absurd hx (Nat.not_lt_zero x), fun _ _ => ⟨rfl, rfl⟩, fun _ h => h, fun _ _ => rfl⟩
  | succ n ih =>
    obtain ⟨hbeside, hfree, hout, hlive, hdata⟩ := ih (fun x hx => h x (Nat.lt_succ_of_lt hx))
    dsimp only
    rw [releaseExtents_succ]
    have hstale : ∀ p ∈ staleSlots (releaseExtents first n s) (first + n), p.2 = false := by
      rw [(hout (first + n) (Or.inr (Nat.le_refl _))).2]
      exact h n (Nat.lt_succ_self n)
    generalize releaseExtents first n s = t at hbeside hfree hout hlive hdata hstale ⊢
    have hmap := mapOf_commitExtent (first + n) .free 0 false t hstale
    refine ⟨(besideSlots_commitExtent _ _ _ _ t).trans hbeside, fun x hx => ?_, fun e he => ⟨?_, ?_⟩, fun k hk => ?_, fun a ha => ?_⟩
    · rw [hmap]
      split
      · rfl
      · exact hfree x (by omega)
    · rw [hmap, if_neg (by omega), (hout e (by omega)).1]
    · rw [staleSlots_released hstale e (by omega), (hout e (by omega)).2]
    · exact hlive k (slotLive_released hstale k hk)
    · rw [data_commitExtent _ _ _ _ t hstale a ha, hdata a (slotLive_released hstale _ ha)]

/-! ### What other long commands leave -/

/-- The words of a GENERATOR_FILL as bytes. -/
def genFillBytes (seed lidx : Quad) (n : Nat) : List Byte := (genFillWords seed lidx n).flatMap (fun w => leBytes 4 w.toNat)

theorem length_genFillBytes (seed lidx : Quad) (n : Nat) : (genFillBytes seed lidx n).length = 4 * n := by
  rw [genFillBytes, length_flatMap_pieces _ 4 _ (fun w _ => leBytes_length 4 _), genFillWords, List.length_map, List.length_range]

theorem take_drop_genFillBytes (seed lidx : Quad) (n x : Nat) (hx : x < n) : ((genFillBytes seed lidx n).drop (4 * x)).take 4 =
    leBytes 4 ((mix seed (lidx + BitVec.ofNat 64 x) 0).toNat % 2 ^ 32) := by
  rw [genFillBytes, take_drop_flatMap _ 4 _ (fun w _ => leBytes_length 4 _) x (by rwa [genFillWords, List.length_map, List.length_range])]
  simp [genFillWords, BitVec.toNat_setWidth]

/-- A PK_OPERATION among long commands. -/
def isPk (k : LongKind) : Bool := match k with | .pkOperation .. => true | _ => false

theorem isPk_of_ne (k : LongKind) (h : ∀ a st res n, k ≠ .pkOperation a st res n) : isPk k = false := by
  unfold isPk
  split
  · exact absurd rfl (h _ _ _ _)
  · rfl

theorem engineBefore_of_first (s : State) (i : Nat) (k : LongKind)
    (h : ∀ j < i, ∀ x, s.host.longWork[j]? = some x → ∀ a st res n, x.kind ≠ .pkOperation a st res n) : engineBefore s i k = false := by
  have hnone : (s.host.longWork.take i).any (fun w => isPk w.kind) = false := by
    rw [List.any_eq_false]
    intro w hw
    obtain ⟨j, hj, rfl⟩ := List.mem_iff_getElem.mp hw
    rw [List.length_take] at hj
    rw [List.getElem_take, isPk_of_ne _ (h j (by omega) _ (List.getElem?_eq_getElem (by omega)))]
    decide
  show (isPk k && (s.host.longWork.take i).any (fun w => isPk w.kind)) = false
  rw [hnone, Bool.and_false]

/-- What the end of a PK_OPERATION leaves. -/
def pkEnded (addr : Nat) (st : BitVec 16) (res : List Byte) (cycles : Nat) (s : State) : State :=
  { hostPut s (addr + 0x840) res with sec := { s.sec with
      pkBusy := s.host.longWork.any (fun w => isPk w.kind), pkCycles := BitVec.ofNat 64 cycles,
      pkFails := if st = stOk then s.sec.pkFails else bump8 s.sec.pkFails } }

theorem finishPk_eq (addr : Nat) (st : BitVec 16) (res : List Byte) (cycles : Nat) (s : State) :
    finishPk addr st res cycles s = (if st = stOk then ansOk else ansFail st, pkEnded addr st res cycles s) := rfl

theorem checkReadOnly_frame (s : State) : ∃ b, checkReadOnly s = { s with vault := { s.vault with readOnly := b } } := by
  rw [checkReadOnly]
  split
  · exact ⟨true, rfl⟩
  · exact ⟨s.vault.readOnly, rfl⟩

/-- The DRBG after a failed start-up test. -/
def startTestFailed (failed : BitVec 64) (d : Drbg) : Drbg :=
  { d with
    error := true, esOk := false, instantiated := false,
    rctFails := if failed.getLsbD 0 then bump8 d.rctFails else d.rctFails,
    aptFails := if failed.getLsbD 1 then bump8 d.aptFails else d.aptFails }

/-- The Vault after the erase of every stripe. -/
def wiped (s : State) : State :=
  modVault s (fun v => { v with sanitizing := false, map := [], passLeft := [], relocs := [], medium := wipeMedium v })

theorem sanitized_parts (s : State) : let t := checkReadOnly (wiped s)
    (∀ e, (mapOf t e).state = .free) ∧ t.vault.sanitizing = false ∧ t.vault.medium.lost = [] ∧
      t.vault.medium.keys = s.vault.medium.keys ∧ t.hbm = s.hbm ∧ t.gals = s.gals ∧ t.hostMem = s.hostMem := by
  obtain ⟨b, hb⟩ := checkReadOnly_frame (wiped s)
  rw [hb]
  exact ⟨fun _ => rfl, rfl, rfl, rfl, rfl, rfl, rfl⟩

/-- Settles O10. -/
theorem longCommandsEnd : Obligations.LongCommandsEnd := by
  intro i o w s hd hw
  have hdone {k : LongKind} {a : Answer} {t : State} (hk : w.kind = k) (hbefore : engineBefore s i k = false)
      (hafter : ∀ x, afterDone k x = x) (hf : finishWork k o (withoutWork i s) = some (a, t)) :
      exec (.longCommandDone i o) s = .next (writeDone t w.hdr w.opcode a) := exec_longCommandDone hd hw hk hbefore hafter hf
  have hstays {k : LongKind} (hk : w.kind = k) (hf : finishWork k o (withoutWork i s) = .none) :
      exec (.longCommandDone i o) s = .next s := exec_longCommandDone_none hd hw hk hf
  refine ⟨fun stks hk => hdone hk rfl (fun _ => rfl) rfl, fun hk hfailed hidle => ?_, fun idle hk hactive => ?_,
    fun addr hk => hdone hk rfl (fun _ => rfl) rfl, fun hk hmoving => ?_, fun code hk => ?_, fun hk => ?_, fun a hk hv => ?_,
    fun k r hk => hdone hk rfl (fun _ => rfl) rfl, fun k r hk => hdone hk rfl (fun _ => rfl) rfl,
    fun rdy g j n a seed lidx hk hdead hweak hnone => ?_, fun first n hk hopen hstale => ?_, fun hk => ?_,
    fun domain root hk => ⟨fun hal => ?_, fun hal htime => ?_, fun hal htime => ?_⟩, fun partner enable hk => ?_, fun hk hbad => ?_,
    fun b image hk => hdone hk rfl (fun _ => rfl) rfl, fun a st res n hk hfirst => ?_, fun a image hk => ⟨fun himg => ?_, fun himg => ?_⟩⟩
  · refine ⟨setPowerState (galleriesUp (withoutWork i s)) .active, hdone hk rfl (fun _ => rfl) (congrArg some ?_),
      galleriesUp_parts (withoutWork i s)⟩
    rw [hfailed]
    exact finishGalleriesStart_all (withoutWork i s) hidle
  · refine hdone hk rfl (fun _ => rfl) (congrArg some ?_)
    have hgone : (!idle || (withoutWork i s).power.state == .active) = true := by
      rcases hactive with h | h
      · rw [h]; rfl
      · rw [show (withoutWork i s).power.state = .active from h]; simp
    rw [finishGalleriesStart, if_pos hgone]
    rfl
  · refine hdone hk rfl (fun _ => rfl) ?_
    show finishVaultClose (withoutWork i s) = _
    rw [finishVaultClose, show vaultMoving (withoutWork i s) = false from hmoving, if_neg (by decide)]
    cases hopen : s.vault.isOpen <;> rw [show (withoutWork i s).vault.isOpen = _ from hopen] <;> rfl
  · exact hdone hk rfl (fun _ => rfl) rfl
  · rcases hk with ⟨_, _, _, hk⟩ | ⟨_, _, _, hk⟩ | hk | ⟨_, _, hk⟩ <;> exact hstays hk rfl
  · refine hdone hk rfl (fun _ => rfl) (congrArg some ?_)
    rw [finishRestorationEnable, if_pos (show (rgnOf (withoutWork i s) 0 60).valid = true from hv)]
    rfl
  · have hclean : CleanHbm (withoutWork i s) := ⟨hdead, hweak, hnone⟩
    obtain ⟨t, ht, hwrote⟩ := hubWrite_clean hclean a (genFillBytes seed lidx n)
    have hlen := length_genFillBytes seed lidx n
    refine ⟨t, hdone hk rfl (fun _ => rfl) ?_, fun x hx => ?_, fun b hb => hwrote.outside b (by rwa [hlen]), ?_, ?_, ?_⟩
    · show some ((if (hubWrite (withoutWork i s) a (genFillBytes seed lidx n)).1 = 4 * n then ansOk else ansFail stRegionPoisoned,
        (hubWrite (withoutWork i s) a (genFillBytes seed lidx n)).2) : Answer × State) = _
      rw [ht, hlen, if_pos rfl]
    · rw [hbmNat, hwrote.hbmGet hclean _ _ (by rw [hlen]; omega), take_drop_genFillBytes _ _ _ x hx, leNat_leBytes]
      exact Nat.mod_mod_of_dvd _ (dvd_refl _)
    · rw [hwrote.1]; rfl
    · rw [hwrote.1]; rfl
    · rw [hwrote.1]; rfl
  · obtain ⟨hbeside, hfree, hout, -, hdata⟩ := releaseExtents_parts first n (withoutWork i s) hstale
    refine ⟨releaseExtents first n (withoutWork i s), hdone hk rfl (fun _ => rfl) ?_, hfree, fun e he => (hout e he).1, hdata,
      (hbm_of_besideSlots hbeside :), (gals_of_besideSlots hbeside :), (hostMem_of_besideSlots hbeside :)⟩
    show finishExtentRelease first n (withoutWork i s) = _
    have hread : (List.range n).any (fun x => readHolds (withoutWork i s) (first + x)) = false := by
      rw [List.any_eq_false]
      intro x hx
      rw [readHolds, List.any_eq_true]
      rintro ⟨p, hp, hheld⟩
      rw [hstale x (List.mem_range.mp hx) p hp] at hheld
      exact absurd hheld (by simp)
    rw [finishExtentRelease, show (withoutWork i s).vault.isOpen = true from hopen, hread]
    rfl
  · exact ⟨checkReadOnly (wiped (withoutWork i s)), hdone hk rfl (fun _ => rfl) rfl, sanitized_parts (withoutWork i s)⟩
  · refine hdone hk rfl (fun _ => rfl) ?_
    show finishJoin (withoutWork i s) = _
    rw [finishJoin, if_pos (show (withoutWork i s).time.aligned = true from hal)]
    rfl
  · refine hdone hk rfl (fun _ => rfl) ?_
    show finishJoin (withoutWork i s) = _
    rw [finishJoin, if_neg (by rw [show (withoutWork i s).time.aligned = false from hal]; decide), 
      if_pos (show (withoutWork i s).time.lastMessage + 1024 ≤ (withoutWork i s).time.now from htime)]
    rfl
  · refine hstays hk ?_
    show finishJoin (withoutWork i s) = _
    rw [finishJoin, if_neg (by rw [show (withoutWork i s).time.aligned = false from hal]; decide),
      if_neg (show ¬((withoutWork i s).time.lastMessage + 1024 ≤ (withoutWork i s).time.now) from Nat.not_le.mpr htime)]
  · cases hheard : o.heard
    · refine hdone hk rfl (fun _ => rfl) (congrArg some ?_)
      rw [hheard]; rfl
    · refine hdone hk rfl (fun _ => rfl) (congrArg some ?_)
      rw [hheard]; rfl
  · have hany : (o.failed.getLsbD 0 || o.failed.getLsbD 1) = true := by rwa [Bool.or_eq_true]
    refine ⟨startTestFailed o.failed s.drbg, hdone hk rfl (fun _ => rfl) (congrArg some ?_), rfl, rfl, rfl, rfl⟩
    rw [finishDrbgInstantiate]
    dsimp only
    rw [if_pos hany]
    rfl
  · refine ⟨pkEnded a st res n (withoutWork i s), hdone hk (engineBefore_of_first s i _ hfirst) (fun _ => rfl) rfl,
      hostGet_hostPut (withoutWork i s) (a + 0x840) res _ rfl, fun b hb => smGet_smPut_out 0 (a + 0x840) b res s.hostMem hb, rfl, rfl,
      fun hnone => ?_, rfl, rfl⟩
    exact List.any_eq_false.mpr (fun x hx => by rw [isPk_of_ne _ (hnone x hx)]; decide)
  · subst himg
    exact hstays hk rfl
  · refine hdone hk rfl (fun _ => rfl) ?_
    show finishSnapshot false a image (withoutWork i s) = _
    rw [finishSnapshot, if_neg (by simpa using himg)]
    rfl

end Sys2Proof.Machine
end

section
/-!
PROOF. The resets of the whole module and the loss of power (20 Table 20-3).
-/

namespace Sys2Proof.Machine

/-- A reset that cuts BOOT short may blow SVN fuses, and nothing else. -/
theorem cutBoot_frame (s : State) : ∃ n b, cutBoot s = { s with freeCount := n, fuses := { s.fuses with svnBlown := b } } ∧
    s.fuses.svnBlown ≤ b ∧ (s.power.state ≠ .boot ∨ s.power.perst = true → b = s.fuses.svnBlown) := by
  unfold cutBoot
  split
  · exact ⟨s.freeCount, s.fuses.svnBlown, rfl, Nat.le_refl _, fun _ => rfl⟩
  · next h =>
    split
    · exact ⟨s.freeCount, s.fuses.svnBlown, rfl, Nat.le_refl _, fun _ => rfl⟩
    · exact ⟨_, _, rfl, Nat.le_max_left _ _, fun hs => absurd hs h⟩

theorem galOf_reset (g : Nat) (h : g < 32) : vget (Vector.replicate 32 Gallery.reset) g Gallery.reset = Gallery.reset := by
  simp [vget, h]

/-- What a reset leaves, told of the fuses that it may blow. -/
theorem resetLeaves_of_fuses {s t : State} {m : Medium} {n b : Nat} {r : Bool}
    (hb : s.fuses.svnBlown ≤ b ∧ (s.power.state ≠ .boot ∨ s.power.perst = true → b = s.fuses.svnBlown))
    (ht : t = { deviceReset 0 { s with freeCount := n, fuses := { s.fuses with svnBlown := b } } with
      flash := t.flash, freeCount := t.freeCount, time := t.time, host := t.host, power := t.power,
      vault := { Vault.resetOn m with wearRead := r } }) : Claims.resetLeaves s t m := by
  rw [ht]
  refine ⟨rfl, fun g hg => galOf_reset g hg, rfl, rfl, rfl, rfl, rfl, rfl, rfl, rfl, rfl, rfl, rfl, rfl, fun h => ?_, rfl, rfl, hb.1, rfl, rfl⟩
  rw [hb.2 h]
  rfl

theorem resetLeaves_deviceReset (cause : BitVec 3) (s : State) {n b : Nat}
    (hb : s.fuses.svnBlown ≤ b ∧ (s.power.state ≠ .boot ∨ s.power.perst = true → b = s.fuses.svnBlown)) :
    Claims.resetLeaves s (deviceReset cause { s with freeCount := n, fuses := { s.fuses with svnBlown := b } }) (Claims.restMedium s) :=
  resetLeaves_of_fuses (n := n) (r := s.vault.wearRead) hb rfl

/-! ### The loss of power -/

theorem smGet_smFill_zero (k n j : Nat) (m : SMem Byte) (h : smGet 0 j m = 0) : smGet 0 j (smFill 0 k n 0 m) = 0 := by
  by_cases hj : k ≤ j ∧ j < k + n
  · have e : j = k + (j - k) := by omega
    rw [e, smGet_smFill_in 0 k n (j - k) 0 m (by omega)]
  · rw [smGet_smFill_out 0 k n j 0 m (by omega), h]

/-- One long command's trace in the flash when power is lost. -/
def tornBy (f : SMem Byte) (w : LongWork) : SMem Byte :=
  match w.kind with | .firmwareWrite slot1 _ => smFill 0 (slotBase slot1) 0xFF0000 0 f | _ => f

theorem tornFlash_eq (s : State) : tornFlash s = s.host.longWork.foldl tornBy s.flash := rfl

theorem tornBy_zero (f : SMem Byte) (w : LongWork) (j : Nat) (h : smGet 0 j f = 0) : smGet 0 j (tornBy f w) = 0 := by
  unfold tornBy
  split
  · exact smGet_smFill_zero _ _ j f h
  · exact h

theorem foldl_tornBy_zero (ws : List LongWork) (f : SMem Byte) (j : Nat) (h : smGet 0 j f = 0) : smGet 0 j (ws.foldl tornBy f) = 0 := by
  induction ws generalizing f with
  | nil => exact h
  | cons w ws ih => exact ih _ (tornBy_zero f w j h)

theorem foldl_tornBy_written (ws : List LongWork) (f : SMem Byte) (w : LongWork) (hw : w ∈ ws) (b : Bool) (image : List Byte)
    (hk : w.kind = .firmwareWrite b image) (j : Nat) (hj : slotBase b ≤ j ∧ j < slotBase b + 0xFF0000) :
    smGet 0 j (ws.foldl tornBy f) = 0 := by
  induction ws generalizing f with
  | nil => exact absurd hw (List.not_mem_nil)
  | cons x ws ih =>
    rcases List.mem_cons.mp hw with rfl | hw
    · refine foldl_tornBy_zero ws _ j ?_
      have e : j = slotBase b + (j - slotBase b) := by omega
      rw [tornBy, hk]
      dsimp only
      rw [e]
      exact smGet_smFill_in 0 (slotBase b) 0xFF0000 (j - slotBase b) 0 f (by omega)
    · exact ih _ hw

theorem foldl_tornBy_none (ws : List LongWork) (f : SMem Byte) (h : ∀ w ∈ ws, ∀ b image, w.kind ≠ .firmwareWrite b image) :
    ws.foldl tornBy f = f := by
  induction ws with
  | nil => rfl
  | cons w ws ih =>
    have hw : tornBy f w = f := by
      unfold tornBy
      split
      · next hk => exact absurd hk (h w (List.mem_cons_self ..) _ _)
      · rfl
    rw [List.foldl_cons, hw]
    exact ih (fun x hx => h x (List.mem_cons_of_mem _ hx))

theorem leNat_zeros (bs : List Byte) (h : ∀ b ∈ bs, b = 0) : leNat bs = 0 := by
  induction bs with
  | nil => rfl
  | cons b bs ih =>
    rw [leNat, h b (List.mem_cons_self ..), ih (fun x hx => h x (List.mem_cons_of_mem _ hx))]
    rfl

theorem bytesAt_zeros (bs : List Byte) (o n : Nat) (h : ∀ b ∈ bs, b = 0) : bytesAt bs o n = 0 :=
  leNat_zeros _ (fun b hb => h b (List.mem_of_mem_drop (List.mem_of_mem_take hb)))

/-- The flash of a slot that was being written when power was lost begins with zeros. -/
theorem torn_magic (s t : State) (ht : t.flash = tornFlash s) (w : LongWork) (hw : w ∈ s.host.longWork) (b : Bool) (image : List Byte)
    (hk : w.kind = .firmwareWrite b image) : bytesAt (flashGet t (slotBase b) 512) 0 4 = 0 := by
  refine bytesAt_zeros _ 0 4 (fun x hx => ?_)
  obtain ⟨i, hi, rfl⟩ := List.mem_iff_getElem.mp hx
  simp only [flashGet, smRead_length] at hi
  simp only [flashGet]
  rw [smRead_get 0 _ 512 i _ hi, ht, tornFlash_eq]
  exact foldl_tornBy_written _ _ w hw b image hk _ ⟨Nat.le_add_right _ _, Nat.add_lt_add_left (hi.trans (by norm_num)) _⟩

theorem tornFlash_of_none (s : State) (h : firmwareRunning s = false) : tornFlash s = s.flash := by
  refine foldl_tornBy_none _ _ (fun w hw b image hk => ?_)
  have := List.any_eq_false.mp h w hw
  rw [hk] at this
  exact this rfl

theorem unpowered_of_none (s : State) (h : s.vault.inFlight = []) : (unpowered s).1 = s.vault.medium := by
  have hall : s.vault.medium.data.filter (fun _ => true) = s.vault.medium.data := List.filter_eq_self.mpr (fun _ _ => rfl)
  rw [unpowered, h]
  show abandonWrites s.vault = _
  rw [abandonWrites, dropData, h]
  show ({ s.vault.medium with data := s.vault.medium.data.filter (fun _ => true) } : Medium) = _
  rw [hall]

theorem loseVolatile_parts (p : PowerState) (s : State) : Claims.resetLeaves s (loseVolatile p s) (loseVolatile p s).vault.medium ∧
    (loseVolatile p s).power.state = p ∧ (s.vault.inFlight = [] → (loseVolatile p s).vault.medium = s.vault.medium) ∧
    Claims.powerGone s (loseVolatile p s) := by
  obtain ⟨n, b, hcut, hb⟩ := cutBoot_frame s
  have hflash : (loseVolatile p s).flash = tornFlash s := by rw [loseVolatile, hcut]; rfl
  have hmedium : (loseVolatile p s).vault.medium = (unpowered (cutBoot s)).1 := rfl
  refine ⟨resetLeaves_of_fuses (n := n) (r := false) hb (by rw [← hcut]; rfl), rfl, fun h => ?_, rfl, rfl, fun h => ?_,
    fun w hw b image hk => torn_magic s _ hflash w hw b image hk⟩
  · rw [hmedium, unpowered_of_none, hcut]
    rw [hcut]
    exact h
  · rw [hflash, tornFlash_of_none s h]

theorem state_of_hubRuns {s : State} (h : hubRuns s = true) : railsUp s = true ∧ s.power.state ≠ .off ∧ s.power.perst = false := by
  simp only [hubRuns, railsUp, Bool.and_eq_true, bne_iff_ne, ne_eq, Bool.not_eq_true'] at h ⊢
  tauto

/-- Settles O11. -/
theorem wholeModuleResets : Obligations.WholeModuleResets := by
  intro s
  obtain ⟨n, b, hcut, hb⟩ := cutBoot_frame s
  refine ⟨fun h hd => ?_, fun hruns => ?_, fun hruns => ?_, fun hstate => ?_, fun hstate => ?_, fun hruns => ?_⟩
  · have hbeside := besideEntries_writeReply s h 0x0104 ansOk
    have hleaves := resetLeaves_deviceReset 2 (writeReply s h 0x0104 ansOk) (n := (writeReply s h 0x0104 ansOk).freeCount)
      ⟨Nat.le_refl _, fun _ => rfl⟩
    refine ⟨deviceReset 2 (writeReply s h 0x0104 ansOk), ?_, ?_, rfl, rfl, rfl, rfl⟩
    · rw [exec, execModuleResetDevice, resetDevice, commandTaken, hd, if_pos (by simp)]
    · have hrest : Claims.restMedium s = Claims.restMedium (writeReply s h 0x0104 ansOk) := by
        rw [Claims.restMedium, Claims.restMedium, vault_of_beside hbeside]
      rw [hrest]
      exact hleaves
  · refine ⟨deviceReset 4 (cutBoot s), ?_, ?_, rfl, rfl, ?_, ?_⟩
    · rw [exec, execFunctionLevelReset, doFlr, hruns]; rfl
    · rw [hcut]
      exact resetLeaves_deviceReset 4 s hb
    · rw [hcut]; rfl
    · rw [hcut]; rfl
  · obtain ⟨hrails, -, -⟩ := state_of_hubRuns hruns
    have hhold : doPerst true s = { deviceReset 1 (modPower (cutBoot s) (fun p => { p with perst := true })) with
        host := { HostPort.reset with raised := s.host.raised } } := by
      rw [doPerst, hrails]
      rfl
    refine ⟨_, congrArg Host.Outcome.next hhold, ?_, rfl, rfl, rfl, ?_, ?_⟩
    · rw [hcut]
      exact resetLeaves_of_fuses (n := n) (r := s.vault.wearRead) hb rfl
    · rw [hcut]; rfl
    · rw [hcut]; rfl
  · refine ⟨loseVolatile .off s, ?_, ?_⟩
    · rw [exec, execPowerInputLoss, doInputLoss, if_neg hstate]
    · exact loseVolatile_parts .off s
  · by_cases hfree : (freeBits 1 s).1 = 1
    · obtain ⟨hleaves, hoff, -, hgone⟩ := loseVolatile_parts .off (freeBits 1 s).2
      refine ⟨loseVolatile .off (freeBits 1 s).2, ?_, Or.inl hoff, fun _ => ⟨hleaves, hgone⟩, fun h => ?_⟩
      · rw [exec, execPowerInputLoss, doInputLoss, if_pos hstate]
        exact congrArg _ (if_pos hfree)
      · rw [hoff] at h
        exact absurd h (by decide)
    · refine ⟨(freeBits 1 s).2, ?_, Or.inr hstate, fun h => ?_, fun _ => rfl⟩
      · rw [exec, execPowerInputLoss, doInputLoss, if_pos hstate]
        exact congrArg _ (if_neg hfree)
      · rw [show (freeBits 1 s).2.power.state = .latchedOff from hstate] at h
        exact absurd h (by decide)
  · obtain ⟨hrails, -, -⟩ := state_of_hubRuns hruns
    refine ⟨loseVolatile .latchedOff s, ?_, loseVolatile_parts .latchedOff s⟩
    rw [exec, execShutdown, doShutdown, hrails, if_pos rfl]

end Sys2Proof.Machine
end

section
/-!
PROOF. A tick of module time in which no step runs (02 R25, R45): what passes at its edge, and what stays.
-/

namespace Sys2Proof.Machine

/-! ### What the halt of tours leaves -/

theorem foldl_keeps {α β : Type} (proj : State → α) (f : State → β → State) (hf : ∀ x b, proj (f x b) = proj x) (l : List β)
    (s : State) : proj (l.foldl f s) = proj s := by
  induction l generalizing s with
  | nil => rfl
  | cons b l ih => exact (ih _).trans (hf s b)

/-- The state without its galleries and tours. -/
def besideTours (s : State) : State := { s with gals := State.reset.gals, tours := [] }

@[simp] theorem besideTours_modGal (s g f) : besideTours (modGal s g f) = besideTours s := rfl
@[simp] theorem besideTours_setRgn (s g j r) : besideTours (setRgn s g j r) = besideTours s := rfl
@[simp] theorem besideTours_modRgn (s g j f) : besideTours (modRgn s g j f) = besideTours s := rfl
@[simp] theorem besideTours_modRegs (s g f) : besideTours (modRegs s g f) = besideTours s := rfl
@[simp] theorem besideTours_modWork (s g f) : besideTours (modWork s g f) = besideTours s := rfl
@[simp] theorem besideTours_modTour (s id f) : besideTours (modTour s id f) = besideTours s := rfl
@[simp] theorem besideTours_leaveStep (g s) : besideTours (leaveStep g s) = besideTours s := rfl

@[simp] theorem besideTours_completeStep (g i s) : besideTours (completeStep g i s) = besideTours s := by
  unfold completeStep
  dsimp only
  have hstart : besideTours (foldRange 64 (fun j x => if bitAt (imgStep (fetchedImage s g) i).relMask j
      then modRgn x g j (fun r => { r with ready := false }) else x) s) = besideTours s :=
    foldRange_keeps besideTours 64 _ (fun j x => by split <;> rfl) s
  rw [apply_ite besideTours, besideTours_modWork, ite_self, besideTours_modRegs, ← hstart]
  exact foldl_keeps besideTours _ (fun x b => by split <;> rfl) _ _

@[simp] theorem besideTours_settleStep (g s) : besideTours (settleStep g s) = besideTours s := by
  unfold settleStep
  split
  · split
    · rw [besideTours_leaveStep, besideTours_completeStep]
    · rfl
  · rfl

@[simp] theorem besideTours_poisonRgns (st ps s) : besideTours (poisonRgns st ps s) = besideTours s :=
  foldl_keeps besideTours _ (fun x p => by split <;> rfl) ps s

@[simp] theorem besideTours_haltGallery (t st g s) : besideTours (haltGallery t st g s) = besideTours s := by
  unfold haltGallery
  dsimp only
  simp only [apply_ite besideTours, besideTours_modWork, besideTours_leaveStep, besideTours_modTour, besideTours_poisonRgns,
    besideTours_settleStep, ite_self]

@[simp] theorem besideTours_haltTour (id s) : besideTours (haltTour id s) = besideTours s := by
  unfold haltTour
  split
  · rfl
  · split
    · rfl
    · split
      · rfl
      · rw [besideTours_modTour]
        split
        · exact foldl_keeps besideTours _ (fun x g => besideTours_haltGallery _ _ g x) _ s
        · rfl

@[simp] theorem besideTours_haltAtEdge (id s) : besideTours (haltAtEdge id s) = besideTours s := by
  unfold haltAtEdge
  split
  · rfl
  · split
    · exact besideTours_haltTour id s
    · rfl

@[simp] theorem besideTours_haltTours (s) : besideTours (haltTours s) = besideTours s :=
  foldl_keeps besideTours (fun x (t : Tour) => haltAtEdge t.tourId x) (fun x t => besideTours_haltAtEdge t.tourId x) s.tours s

/-- No gallery stops where every accepted tour that has ended has stopped or stops later. -/
theorem haltAtEdge_quiet (s : State) (id : Quad)
    (h : ∀ x ∈ s.tours, tourAccepted x = true → x.status = .none ∨ x.halted = true ∨ s.time.now < x.stopAt) : haltAtEdge id s = s := by
  unfold haltAtEdge
  split
  · rfl
  · next t ht =>
    split
    · next hend =>
      simp only [Bool.and_eq_true, decide_eq_true_eq] at hend
      obtain ⟨⟨hacc, hstatus⟩, hstop⟩ := hend
      rcases h t (List.mem_of_find?_eq_some ht) hacc with hnone | hhalted | hlater
      · rw [hnone] at hstatus
        exact absurd hstatus (by decide)
      · rw [haltTour, ht]
        dsimp only
        split
        · rfl
        · rw [if_pos hhalted]
      · exact absurd hlater (Nat.not_lt.mpr hstop)
    · rfl

theorem haltTours_quiet (s : State)
    (h : ∀ x ∈ s.tours, tourAccepted x = true → x.status = .none ∨ x.halted = true ∨ s.time.now < x.stopAt) : haltTours s = s := by
  unfold haltTours
  induction s.tours with
  | nil => rfl
  | cons t l ih => rw [List.foldl_cons, haltAtEdge_quiet s _ h, ih]

/-! ### The edge of a tick -/

/-- What passes at the edge of a tick once its cycles have run. -/
def tickEdge (s : State) : State :=
  timeExchange (monitorEdge (haltTours (modTime (s.tours.foldl (fun x t => restoreChecks t.tourId x) s) advanceTime)))

theorem idleTick_eq (s : State) (h : timeRuns s = true) : idleTick s = tickEdge (runTo 100 (serveHeld (countWaits s))) := by
  rw [idleTick, if_pos h]
  rfl

theorem restoreChecks_idle (id : Quad) (s : State) (h : ∀ x ∈ s.tours, x.state ≠ .running) : restoreChecks id s = s := by
  unfold restoreChecks
  split
  · next t ht =>
    have hstate : (t.state != .running) = true := by simpa using h t (List.mem_of_find?_eq_some ht)
    split
    · rw [hstate, Bool.true_or, if_pos rfl]
    · rfl
  · rfl

theorem tickEdge_idle (s : State) (h : ∀ x ∈ s.tours, x.state ≠ .running) :
    tickEdge s = timeExchange (monitorEdge (haltTours (modTime s advanceTime))) := by
  have hchecks : s.tours.foldl (fun x t => restoreChecks t.tourId x) s = s := by
    induction s.tours with
    | nil => rfl
    | cons t l ih => rw [List.foldl_cons, restoreChecks_idle t.tourId s h, ih]
  rw [tickEdge, hchecks]

/-- The state without what passes at the edge of a tick. -/
def besideEdge (s : State) : State :=
  { besideTours s with
    time := TimeSt.reset, mon := Monitors.reset, fab := { s.fab with timeSent := [] }, host := { s.host with longWork := [] } }

theorem besideEdge_of_besideTours {s t : State} (h : besideTours t = besideTours s) : besideEdge t = besideEdge s := by
  have hfab : t.fab = s.fab := (congrArg State.fab h :)
  have hhost : t.host = s.host := (congrArg State.host h :)
  rw [besideEdge, besideEdge, h, hfab, hhost]

section
variable {s t : State} (h : besideEdge t = besideEdge s)
include h

theorem pending_of_edge : t.pending = s.pending := (congrArg State.pending h :)
theorem held_of_edge : t.held = s.held := (congrArg State.held h :)
theorem hbm_of_edge : t.hbm = s.hbm := (congrArg State.hbm h :)
theorem vault_of_edge : t.vault = s.vault := (congrArg State.vault h :)
theorem cat_of_edge : t.cat = s.cat := (congrArg State.cat h :)
theorem health_of_edge : t.health = s.health := (congrArg State.health h :)
theorem drbg_of_edge : t.drbg = s.drbg := (congrArg State.drbg h :)
theorem sec_of_edge : t.sec = s.sec := (congrArg State.sec h :)
theorem power_of_edge : t.power = s.power := (congrArg State.power h :)
theorem hostMem_of_edge : t.hostMem = s.hostMem := (congrArg State.hostMem h :)
theorem fuses_of_edge : t.fuses = s.fuses := (congrArg State.fuses h :)
theorem flash_of_edge : t.flash = s.flash := (congrArg State.flash h :)
theorem dma_of_edge : t.dma = s.dma := (congrArg State.dma h :)
theorem qps_of_edge : t.host.qps = s.host.qps := (congrArg (fun x => x.host.qps) h :)

end

theorem timeExchange_frame (s : State) : ∃ x l, timeExchange s = { s with
    time := { s.time with lastExchange := x }, fab := { s.fab with timeSent := l } } := by
  unfold timeExchange
  dsimp only
  split
  · split
    · exact ⟨s.time.now, _, rfl⟩
    · exact ⟨s.time.now, s.fab.timeSent, rfl⟩
  · exact ⟨s.time.lastExchange, s.fab.timeSent, rfl⟩

theorem monitorEdge_frame (s : State) : ∃ u l, monitorEdge s = { s with
    mon := { s.mon with units := u }, host := { s.host with longWork := l } } := ⟨_, _, rfl⟩

theorem besideEdge_timeExchange (s : State) : besideEdge (timeExchange s) = besideEdge s := by
  obtain ⟨x, l, h⟩ := timeExchange_frame s
  rw [h]
  rfl

theorem besideEdge_monitorEdge (s : State) : besideEdge (monitorEdge s) = besideEdge s := rfl

theorem besideEdge_tickEdge (s : State) (h : ∀ x ∈ s.tours, x.state ≠ .running) : besideEdge (tickEdge s) = besideEdge s := by
  rw [tickEdge_idle s h, besideEdge_timeExchange, besideEdge_monitorEdge, besideEdge_of_besideTours (besideTours_haltTours _)]
  rfl

theorem now_advanceTime (t : TimeSt) :
    (advanceTime t).now = (match t.pendingSet with | some v => v | .none => (t.now + 1) % 2 ^ 64) ∧
      (advanceTime t).cycle = 0 ∧ (advanceTime t).pendingSet = .none ∧
      (advanceTime t).lastExchange = (match t.pendingSet with | some v => v | .none => t.lastExchange) ∧
      (advanceTime t).joined = t.joined ∧ (advanceTime t).isRoot = t.isRoot ∧ (advanceTime t).root = t.root := by
  unfold advanceTime
  cases h : t.pendingSet
  · exact ⟨rfl, rfl, rfl, rfl, rfl, rfl, rfl⟩
  · exact ⟨rfl, rfl, rfl, rfl, rfl, rfl, rfl⟩

theorem time_haltTours (s : State) : (haltTours s).time = s.time := (congrArg State.time (besideTours_haltTours s) :)

theorem time_tickEdge (s : State) (h : ∀ x ∈ s.tours, x.state ≠ .running) :
    (tickEdge s).time.now = (advanceTime s.time).now ∧ (tickEdge s).time.cycle = 0 ∧ (tickEdge s).time.pendingSet = .none := by
  obtain ⟨x, l, he⟩ := timeExchange_frame (monitorEdge (haltTours (modTime s advanceTime)))
  have htime : (monitorEdge (haltTours (modTime s advanceTime))).time = advanceTime s.time := time_haltTours _
  obtain ⟨-, hcycle, hset, -⟩ := now_advanceTime s.time
  rw [tickEdge_idle s h, he]
  dsimp only
  rw [htime]
  exact ⟨rfl, hcycle, hset⟩

/-- Where no gallery stops, the edge changes time, monitors and the time message alone. -/
theorem tickEdge_quiet (s : State) (h : ∀ x ∈ s.tours, x.state ≠ .running) (hquiet : ∀ x ∈ s.tours, tourAccepted x = true →
    x.status = .none ∨ x.halted = true ∨ (advanceTime s.time).now < x.stopAt) :
    tickEdge s = timeExchange (monitorEdge (modTime s advanceTime)) := by
  rw [tickEdge_idle s h, haltTours_quiet (modTime s advanceTime) hquiet]

theorem gals_timeExchange (s : State) : (timeExchange s).gals = s.gals := by
  obtain ⟨x, l, h⟩ := timeExchange_frame s
  rw [h]

theorem tours_timeExchange (s : State) : (timeExchange s).tours = s.tours := by
  obtain ⟨x, l, h⟩ := timeExchange_frame s
  rw [h]

/-- Whether a time message is due. -/
def messageDue (s : State) : Prop := s.time.joined = true ∧ s.time.isRoot = false ∧ s.time.lastExchange + 256 ≤ s.time.now

theorem fab_timeExchange (s : State) :
    (messageDue s → (routeOf s s.time.root.toNat).valid = true → (portOf s (routeOf s s.time.root.toNat).dport.toNat).up = true →
      (timeExchange s).fab = { s.fab with timeSent := ((routeOf s s.time.root.toNat).dport, s.time.now) :: s.fab.timeSent }) ∧
    (¬(messageDue s ∧ (routeOf s s.time.root.toNat).valid = true ∧ (portOf s (routeOf s s.time.root.toNat).dport.toNat).up = true) →
      (timeExchange s).fab = s.fab) := by
  have hdue : (s.time.joined && !s.time.isRoot && decide (s.time.lastExchange + 256 ≤ s.time.now)) = true ↔ messageDue s := by
    simp [messageDue, and_assoc]
  refine ⟨fun h hvalid hup => ?_, fun h => ?_⟩
  · have hgo : ((routeOf (modTime s (fun x => { x with lastExchange := x.now })) s.time.root.toNat).valid &&
        (portOf (modTime s (fun x => { x with lastExchange := x.now })) (routeOf s s.time.root.toNat).dport.toNat).up) = true :=
      Bool.and_eq_true_iff.mpr ⟨hvalid, hup⟩
    unfold timeExchange
    dsimp only
    rw [if_pos (hdue.mpr h)]
    exact congrArg State.fab (if_pos hgo)
  · unfold timeExchange
    dsimp only
    split
    · next hd =>
      split
      · next hgo => exact absurd ⟨hdue.mp hd, Bool.and_eq_true_iff.mp hgo⟩ h
      · rfl
    · rfl

/-! ### A tick in which nothing runs -/

theorem runningOn_idle (s : State) (g : Nat) (h : ∀ x ∈ s.tours, x.state ≠ .running) : runningOn s g = .none := by
  rw [runningOn, List.filter_eq_nil_iff.mpr]
  · rfl
  · intro t ht
    simp [h t ht]

theorem tickBursts_idle (s : State) (h : ∀ x ∈ s.tours, x.state ≠ .running) : tickBursts s = [] := by
  rw [tickBursts, List.flatMap_eq_nil_iff]
  intro g _
  rw [galBursts, runningOn_idle s g h]

theorem relayLive_idle (s : State) (h : ∀ x ∈ s.tours, x.state ≠ .running) : relayLive s = false := by
  rw [relayLive, List.any_eq_false]
  intro t ht
  simp [h t ht]

theorem lanesOfTick_idle (s : State) (h : ∀ g < 32, (galOf s g).run = .none) : lanesOfTick s = [] := by
  rw [lanesOfTick, List.filterMap_eq_nil_iff]
  intro g hg
  rw [h g (lt_of_lt_of_le (List.mem_range.mp hg) (numGal_le s))]

/-- The cycles of a tick in which nothing runs. -/
theorem runTo_idle (n : Nat) (s : State) (hrun : ∀ g < 32, (galOf s g).run = .none) (htours : ∀ x ∈ s.tours, x.state ≠ .running)
    (hfill : filling s = false) (hlog : s.useLog = [] ∨ watching s = false) :
    runTo n s = s ∨ runTo n s = { s with useLog := [], time := { s.time with cycle := n } } := by
  have hidle : ((lanesOfTick s).isEmpty && (tickBursts s).isEmpty && !relayLive s && !filling s &&
      (s.useLog.isEmpty || !watching s)) = true := by
    rw [lanesOfTick_idle s hrun, tickBursts_idle s htours, relayLive_idle s htours, hfill]
    rcases hlog with h | h <;> simp [h]
  unfold runTo
  split
  · exact Or.inl rfl
  · dsimp only
    rw [if_pos hidle]
    exact Or.inr rfl

theorem countWaits_frame (s : State) : countWaits s = { s with dma := { s.dma with chans := (countWaits s).dma.chans } } := rfl

theorem serveHeld_none (s : State) (h : s.held = []) : serveHeld s = s := by
  rw [serveHeld, h]
  rfl

/-- The state in which the cycles of an idle tick have run. -/
theorem idleCycles (s : State) (hheld : s.held = []) (hrun : ∀ g < 32, (galOf s g).run = .none)
    (htours : ∀ x ∈ s.tours, x.state ≠ .running) (hfill : filling s = false) (hlog : s.useLog = [] ∨ watching s = false) :
    ∃ c u k, runTo 100 (serveHeld (countWaits s)) = { s with
      dma := { s.dma with chans := c }, useLog := u, time := { s.time with cycle := k } } := by
  rw [serveHeld_none (countWaits s) hheld]
  rcases runTo_idle 100 (countWaits s) hrun htours hfill hlog with h | h
  · exact ⟨(countWaits s).dma.chans, s.useLog, s.time.cycle, h⟩
  · exact ⟨(countWaits s).dma.chans, [], 100, h⟩

/-- Settles O2. -/
theorem anEmptyQueueLetsOneTickPass : Obligations.AnEmptyQueueLetsOneTickPass := by
  intro s hpending hruns hlock hheld hrun htours hfill hlog
  obtain ⟨c, u, k, hw⟩ := idleCycles s hheld hrun htours hfill hlog
  generalize hv : ({ s with dma := { s.dma with chans := c }, useLog := u, time := { s.time with cycle := k } } : State) = v at hw
  have hvtours : v.tours = s.tours := by rw [← hv]
  have hidle : ∀ x ∈ v.tours, x.state ≠ .running := by rw [hvtours]; exact htours
  have hbeside := besideEdge_tickEdge v hidle
  have htime : (advanceTime v.time).now = (match s.time.pendingSet with | some v => v | .none => (s.time.now + 1) % 2 ^ 64) := by
    rw [(now_advanceTime v.time).1, ← hv] <;> rfl
  have hlast : (advanceTime v.time).lastExchange = (match s.time.pendingSet with | some v => v | .none => s.time.lastExchange) := by
    rw [(now_advanceTime v.time).2.2.2.1, ← hv] <;> rfl
  obtain ⟨-, -, -, -, hjoined, hisRoot, hroots⟩ := now_advanceTime v.time
  obtain ⟨hnow, hcycle, hset⟩ := time_tickEdge v hidle
  refine ⟨tickEdge v, ?_, hnow.trans htime, hcycle, hset, ?_, ?_, fun hquiet => ?_, ?_⟩
  · rw [step_of_nil s hpending, idleTick_eq s (by rw [timeRuns, hruns, hlock]; rfl), hw]
  · rw [pending_of_edge hbeside, ← hv]; exact hpending
  · rw [held_of_edge hbeside, ← hv]; exact hheld
  · rw [tickEdge_quiet v hidle (by rw [hvtours, htime]; exact hquiet)]
    obtain ⟨hsent, hnot⟩ := fab_timeExchange (monitorEdge (modTime v advanceTime))
    have hroot : (monitorEdge (modTime v advanceTime)).time.root = s.time.root := by
      show (advanceTime v.time).root = _
      rw [hroots, ← hv]
    have hdue : messageDue (monitorEdge (modTime v advanceTime)) ↔ s.time.joined = true ∧ s.time.isRoot = false ∧
        (match s.time.pendingSet with | some v => v | .none => s.time.lastExchange) + 256 ≤
          (match s.time.pendingSet with | some v => v | .none => (s.time.now + 1) % 2 ^ 64) := by
      show (advanceTime v.time).joined = true ∧ (advanceTime v.time).isRoot = false ∧
        (advanceTime v.time).lastExchange + 256 ≤ (advanceTime v.time).now ↔ _
      rw [hjoined, hisRoot, htime, hlast, ← hv]
    have hedge : (monitorEdge (modTime v advanceTime)).fab = s.fab := by rw [← hv]; rfl
    have hsentAt : (monitorEdge (modTime v advanceTime)).time.now =
      (match s.time.pendingSet with | some v => v | .none => (s.time.now + 1) % 2 ^ 64) := htime
    have hroute (m : Nat) : routeOf (monitorEdge (modTime v advanceTime)) m = routeOf s m := by rw [routeOf, hedge, routeOf]
    have hport (p : Nat) : portOf (monitorEdge (modTime v advanceTime)) p = portOf s p := by rw [portOf, hedge, portOf]
    rw [hroot, hroute, hport, hedge, hsentAt, hdue] at hsent
    rw [hroot, hroute, hport, hedge, hdue] at hnot
    refine ⟨?_, ?_, hsent, hnot⟩
    · rw [gals_timeExchange, ← hv]; rfl
    · rw [tours_timeExchange, ← hv]; rfl
  · rw [hbm_of_edge hbeside, vault_of_edge hbeside, cat_of_edge hbeside, health_of_edge hbeside, drbg_of_edge hbeside,
      sec_of_edge hbeside, power_of_edge hbeside, hostMem_of_edge hbeside, fuses_of_edge hbeside, flash_of_edge hbeside,
      dma_of_edge hbeside, qps_of_edge hbeside, ← hv]
    exact ⟨rfl, rfl, rfl, rfl, rfl, rfl, rfl, rfl, rfl, rfl, rfl, rfl⟩

end Sys2Proof.Machine
end

section
/-!
PROOF. The fills of the cabinet engine (04 R92, R470), chunk by chunk.
-/

namespace Sys2Proof.Machine

/-! ### One chunk -/

/-- What the last chunk of a fill leaves of its region. -/
def landedRgn (f : CabFill) (now : Nat) (r : Region) : Region :=
  if f.release then Region.none else if (unpoisonRgn r).feed = 0 then readyRgn now (unpoisonRgn r) else unpoisonRgn r

theorem fillLanded_eq (g : Nat) (f : CabFill) (s : State) :
    fillLanded g f s = setRgn s g f.region (landedRgn f s.time.now (rgnOf s g f.region)) := by
  unfold fillLanded landedRgn modRgn
  split <;> rfl

/-- The fills of a gallery whose only one has landed a chunk. -/
def nextFills (f : CabFill) : List CabFill :=
  if f.release && decide (f.rows ≤ f.chunk + 1) then [] else [{ f with chunk := f.chunk + 1 }]

theorem fillSteps_single (f : CabFill) : fillSteps f [f] = nextFills f := by
  rw [fillSteps, if_pos (by simp)]
  rfl

/-- A gallery after a chunk of its only fill. -/
def chunkLanded (g : Nat) (f : CabFill) (s : State) : Gallery :=
  { galOf s g with
    cab := smFill 0 (fillChunkAt s g f) 256 f.value (galOf s g).cab
    fills := nextFills f
    regions := if f.rows ≤ f.chunk + 1 then vset (galOf s g).regions f.region (landedRgn f s.time.now (rgnOf s g f.region))
      else (galOf s g).regions
    cabRegs := { (galOf s g).cabRegs with engineBusy := (nextFills f).any fillOpen } }

theorem galOf_landChunk_same (g : Nat) (f : CabFill) (s : State) (hg : g < 32) (hfills : (galOf s g).fills = [f]) :
    galOf (landChunk g f s) g = chunkLanded g f s := by
  unfold landChunk chunkLanded modCabRegs
  dsimp only
  rw [galOf_modGal_same _ g _ hg]
  by_cases hlast : f.rows ≤ f.chunk + 1
  · rw [if_pos (decide_eq_true hlast), fillLanded_eq, galOf_setRgn_same _ g _ _ hg, rgnOf, galOf_modGal_same _ g _ hg, hfills,
      fillSteps_single, if_pos hlast]
    rfl
  · rw [if_neg (by simpa using hlast), galOf_modGal_same _ g _ hg, hfills, fillSteps_single, if_neg hlast]

theorem galOf_landChunk_other (g : Nat) (f : CabFill) (s : State) (k : Nat) (h : k ≠ g) : galOf (landChunk g f s) k = galOf s k := by
  unfold landChunk modCabRegs
  dsimp only
  rw [galOf_modGal_other _ g k _ h]
  split
  · rw [fillLanded_eq, galOf_setRgn_other _ g _ k _ h, galOf_modGal_other _ g k _ h]
  · rw [galOf_modGal_other _ g k _ h]

theorem besideGals_landChunk (g : Nat) (f : CabFill) (s : State) : besideGals (landChunk g f s) = besideGals s := by
  unfold landChunk
  dsimp only
  split
  · rw [fillLanded_eq]; rfl
  · rfl

/-! ### One cycle -/

/-- The use of the write ports that a chunk stands in the log with. -/
def fillUse (X g : Nat) (f : CabFill) (s : State) : PortUse :=
  { owner := g, isWrite := true, cycle := X, requester := 32, gallery := 32, step := 0, launched := 0, unit := 0,
    words := List.zipWith (fun i o => ({ pa := fillChunkAt s g f + i, val := f.value.toNat, old := o, first := false } : PortWord))
      (List.range 256) (cabWords s g ((List.range 256).map (fillChunkAt s g f + ·))), dropped := [] }

/-- What a cycle does for the fills of one gallery. -/
def fillOne (X g : Nat) (s : State) : State :=
  match (galOf s g).fills.find? fillOpen with
  | some f =>
    if !(galOf s g).regs.clockOn || writeBusy s g X then s
    else landChunk g f { s with useLog := fillUse X g f s :: s.useLog }
  | .none => s

theorem fillCycle_eq (X : Nat) (s : State) : fillCycle X s = foldRange (numGal s) (fillOne X) s := rfl

theorem foldRange_single (n g : Nat) (F : Nat → State → State) (s : State) (hg : g < n) (hbefore : ∀ i, i ≠ g → F i s = s)
    (hafter : ∀ i, i ≠ g → F i (F g s) = F g s) : foldRange n F s = F g s := by
  have key : ∀ m, foldRange m F s = if g < m then F g s else s := by
    intro m
    induction m with
    | zero => rfl
    | succ m ih =>
      have e : foldRange (m + 1) F s = F m (foldRange m F s) := by simp [foldRange, List.range_succ]
      rw [e, ih]
      by_cases hm : g < m
      · rw [if_pos hm, if_pos (by omega), hafter m (by omega)]
      · rw [if_neg hm]
        by_cases he : m = g
        · rw [if_pos (by omega), he]
        · rw [if_neg (by omega), hbefore m he]
  rw [key n, if_pos hg]

theorem fillOne_none (X g : Nat) (s : State) (h : (galOf s g).fills = []) : fillOne X g s = s := by
  rw [fillOne, h]
  rfl

theorem writeBusy_of_past (s : State) (g X : Nat) (h : ∀ u ∈ s.useLog, u.cycle < X) : writeBusy s g X = false := by
  rw [writeBusy, List.any_eq_false]
  intro u hu
  simp [Nat.ne_of_lt (h u hu)]

/-- Only gallery `g` has a fill, and its clock runs. -/
structure FillsAlone (g : Nat) (f : CabFill) (s : State) : Prop where
  fills : (galOf s g).fills = [f]
  others : ∀ k < 32, k ≠ g → (galOf s k).fills = []
  clock : (galOf s g).regs.clockOn = true

theorem galOf_beyond (s : State) (k : Nat) (h : 32 ≤ k) : galOf s k = Gallery.reset := by
  simp [galOf, vget, h]

theorem FillsAlone.none {g : Nat} {f : CabFill} {s : State} (h : FillsAlone g f s) (k : Nat) (hk : k ≠ g) : (galOf s k).fills = [] := by
  by_cases hlt : k < 32
  · exact h.others k hlt hk
  · rw [galOf_beyond s k (Nat.le_of_not_lt hlt)]
    rfl

theorem fillCycle_alone (X g : Nat) (f : CabFill) (s : State) (h : FillsAlone g f s) (hg : g < numGal s) (hopen : f.chunk < f.rows)
    (hlog : ∀ u ∈ s.useLog, u.cycle < X) :
    fillCycle X s = landChunk g f { s with useLog := fillUse X g f s :: s.useLog } := by
  have hone : fillOne X g s = landChunk g f { s with useLog := fillUse X g f s :: s.useLog } := by
    rw [fillOne, h.fills, List.find?_cons_of_pos (by simpa [fillOpen] using hopen)]
    dsimp only
    rw [if_neg (by rw [h.clock, writeBusy_of_past s g X hlog]; decide)]
  rw [fillCycle_eq, foldRange_single (numGal s) g (fillOne X) s hg (fun i hi => fillOne_none X i s (h.none i hi)), hone]
  intro i hi
  refine fillOne_none X i _ ?_
  rw [hone, galOf_landChunk_other _ _ _ _ hi]
  exact h.none i hi

/-! ### Many cycles -/

/-- The state without its galleries and the log of uses. -/
def besideFills (s : State) : State := { s with gals := State.reset.gals, useLog := [] }

/-- From `s` to `x` the only fill has landed `d` chunks more. -/
structure Landed (g : Nat) (f : CabFill) (d : Nat) (s x : State) : Prop where
  beside : besideFills x = besideFills s
  others : ∀ k, k ≠ g → galOf x k = galOf s k
  regs : (galOf x g).regs = (galOf s g).regs
  inv : (galOf x g).inv = (galOf s g).inv
  run : (galOf x g).run = (galOf s g).run
  words : ∀ pa, cabWord x g pa = if 256 * (rgnOf s g f.region).baseRow.toNat + 256 * f.chunk ≤ pa ∧
    pa < 256 * (rgnOf s g f.region).baseRow.toNat + 256 * f.chunk + 256 * d then f.value else cabWord s g pa
  rgns : ∀ m, m ≠ f.region → rgnOf x g m = rgnOf s g m
  going : f.chunk + d < f.rows → (galOf x g).fills = [{ f with chunk := f.chunk + d }] ∧
    rgnOf x g f.region = rgnOf s g f.region ∧ (0 < d → (galOf x g).cabRegs.engineBusy = true)
  done : f.chunk + d = f.rows → (galOf x g).fills = (if f.release then [] else [{ f with chunk := f.rows }]) ∧
    rgnOf x g f.region = landedRgn f s.time.now (rgnOf s g f.region) ∧ (galOf x g).cabRegs.engineBusy = false

theorem Landed.start {g : Nat} {f : CabFill} {s : State} (hfills : (galOf s g).fills = [f]) (hopen : f.chunk < f.rows) :
    Landed g f 0 s s where
  beside := rfl
  others := fun _ _ => rfl
  regs := rfl
  inv := rfl
  run := rfl
  words := fun pa => (if_neg (by omega)).symm
  rgns := fun _ _ => rfl
  going := fun _ => ⟨hfills, rfl, fun h => absurd h (Nat.lt_irrefl 0)⟩
  done := fun h => absurd h (Nat.ne_of_lt hopen)

theorem Landed.relog {g : Nat} {f : CabFill} {d : Nat} {s x : State} (h : Landed g f d s x) (u : List PortUse) :
    Landed g f d s { x with useLog := u } where
  beside := h.beside
  others := h.others
  regs := h.regs
  inv := h.inv
  run := h.run
  words := h.words
  rgns := h.rgns
  going := h.going
  done := h.done

theorem Landed.same_tours {g : Nat} {f : CabFill} {d : Nat} {s x : State} (h : Landed g f d s x) : x.tours = s.tours :=
  (congrArg State.tours h.beside :)

theorem Landed.same_numGal {g : Nat} {f : CabFill} {d : Nat} {s x : State} (h : Landed g f d s x) : numGal x = numGal s := by
  have hfuses : x.fuses = s.fuses := (congrArg State.fuses h.beside :)
  rw [numGal, numGal, hfuses]

theorem useLog_landChunk (g : Nat) (f : CabFill) (s : State) : (landChunk g f s).useLog = s.useLog :=
  (congrArg State.useLog (besideGals_landChunk g f s) :)

theorem fillOpen_iff (f : CabFill) : fillOpen f = true ↔ f.chunk < f.rows := by simp [fillOpen]

theorem busy_nextFills (f : CabFill) : (nextFills f).any fillOpen = decide (f.chunk + 1 < f.rows) := by
  unfold nextFills
  by_cases h : f.rows ≤ f.chunk + 1
  · rw [decide_eq_true h, decide_eq_false (Nat.not_lt.mpr h), Bool.and_true]
    cases f.release
    · simp [fillOpen, h]
    · rfl
  · rw [decide_eq_false h, Bool.and_false, decide_eq_true (Nat.lt_of_not_le h)]
    simp [fillOpen, Nat.lt_of_not_le h]

theorem Landed.next {g : Nat} {f : CabFill} {d : Nat} {s x : State} (h : Landed g f d s x) (hg : g < 32) (hreg : f.region < 64)
    (hd : f.chunk + d < f.rows) : Landed g f (d + 1) s (landChunk g { f with chunk := f.chunk + d } x) := by
  obtain ⟨hfills, hrgn, -⟩ := h.going hd
  have hgal := galOf_landChunk_same g { f with chunk := f.chunk + d } x hg hfills
  have hat : fillChunkAt x g { f with chunk := f.chunk + d } =
      256 * (rgnOf s g f.region).baseRow.toNat + 256 * f.chunk + 256 * d := by
    rw [fillChunkAt, hrgn, rgnBase]
    dsimp only
    omega
  have hnow : x.time = s.time := (congrArg State.time h.beside :)
  refine { beside := ?_, others := fun k hk => ?_, regs := ?_, inv := ?_, run := ?_, words := fun pa => ?_, rgns := fun m hm => ?_,
           going := fun hlt => ⟨?_, ?_, fun _ => ?_⟩, done := fun heq => ⟨?_, ?_, ?_⟩ }
  · rw [← h.beside]
    exact (congrArg (fun y : State => { y with useLog := [] }) (besideGals_landChunk g { f with chunk := f.chunk + d } x) :)
  · rw [galOf_landChunk_other _ _ _ _ hk, h.others k hk]
  · rw [hgal]; exact h.regs
  · rw [hgal]; exact h.inv
  · rw [hgal]; exact h.run
  · rw [cabWord, hgal]
    show smGet 0 pa (smFill 0 _ 256 f.value (galOf x g).cab) = _
    rw [hat]
    by_cases hin : 256 * (rgnOf s g f.region).baseRow.toNat + 256 * f.chunk + 256 * d ≤ pa ∧
        pa < 256 * (rgnOf s g f.region).baseRow.toNat + 256 * f.chunk + 256 * d + 256
    · rw [if_pos (by omega), ← Nat.add_sub_cancel' hin.1]
      exact smGet_smFill_in 0 _ 256 _ f.value _ (by omega)
    · rw [smGet_smFill_out 0 _ 256 pa f.value _ (by omega)]
      refine (h.words pa).trans ?_
      by_cases hold : 256 * (rgnOf s g f.region).baseRow.toNat + 256 * f.chunk ≤ pa ∧
          pa < 256 * (rgnOf s g f.region).baseRow.toNat + 256 * f.chunk + 256 * d
      · rw [if_pos hold, if_pos (by omega)]
      · rw [if_neg hold, if_neg (by omega)]
  · rw [rgnOf, hgal]
    show vget (if _ then vset (galOf x g).regions f.region _ else (galOf x g).regions) m _ = _
    split
    · rw [vget_vset_other _ _ _ _ _ hm]
      exact h.rgns m hm
    · exact h.rgns m hm
  · rw [hgal]
    show nextFills _ = _
    rw [nextFills, decide_eq_false (by show ¬(f.rows ≤ f.chunk + d + 1); omega), Bool.and_false]
    rfl
  · rw [rgnOf, hgal]
    show vget (if f.rows ≤ f.chunk + d + 1 then _ else (galOf x g).regions) f.region _ = _
    rw [if_neg (by omega)]
    exact hrgn
  · rw [hgal]
    show (nextFills _).any fillOpen = true
    rw [busy_nextFills]
    exact decide_eq_true hlt
  · rw [hgal]
    show nextFills _ = _
    rw [nextFills, decide_eq_true (by show f.rows ≤ f.chunk + d + 1; omega), Bool.and_true]
    show (if f.release then [] else [({ f with chunk := f.chunk + d + 1 } : CabFill)]) = _
    rw [← heq, Nat.add_assoc]
  · rw [rgnOf, hgal]
    show vget (if f.rows ≤ f.chunk + d + 1 then vset (galOf x g).regions f.region (landedRgn _ _ (rgnOf x g f.region)) else _) f.region _ = _
    rw [if_pos (by omega), vget_vset_same _ _ _ _ hreg, hrgn, hnow]
    rfl
  · rw [hgal]
    show (nextFills _).any fillOpen = false
    rw [busy_nextFills]
    exact decide_eq_false (by show ¬(f.chunk + d + 1 < f.rows); omega)

theorem mem_gals (s : State) (k : Nat) (hk : k < 32) : galOf s k ∈ s.gals.toList := by
  rw [galOf, vget, Vector.getElem?_eq_getElem hk, Option.getD_some]
  simp

theorem exists_of_mem_gals (s : State) (x : Gallery) (h : x ∈ s.gals.toList) : ∃ k < 32, galOf s k = x := by
  obtain ⟨k, hk, rfl⟩ := List.mem_iff_getElem.mp h
  have hk' : k < 32 := by simpa using hk
  exact ⟨k, hk', by rw [galOf, vget, Vector.getElem?_eq_getElem hk', Option.getD_some]; simp⟩

theorem filling_of_open (s : State) (k : Nat) (hk : k < 32) (f : CabFill) (hf : f ∈ (galOf s k).fills) (hopen : f.chunk < f.rows) :
    filling s = true :=
  List.any_eq_true.mpr ⟨galOf s k, mem_gals s k hk, List.any_eq_true.mpr ⟨f, hf, (fillOpen_iff f).mpr hopen⟩⟩

theorem filling_of_closed (s : State) (h : ∀ k < 32, ∀ f ∈ (galOf s k).fills, f.rows ≤ f.chunk) : filling s = false := by
  rw [filling, List.any_eq_false]
  intro x hx
  obtain ⟨k, hk, rfl⟩ := exists_of_mem_gals s x hx
  rw [List.any_eq_true]
  rintro ⟨f, hf, hopen⟩
  exact absurd ((fillOpen_iff f).mp hopen) (Nat.not_lt.mpr (h k hk f hf))

theorem watching_congr (s x : State) (hsec : x.sec = s.sec) (hinv : ∀ k < 32, (galOf x k).inv = (galOf s k).inv)
    (h : watching s = false) : watching x = false := by
  rw [watching, hsec]
  cases hdebug : s.sec.debug
  · rfl
  · rw [watching, hdebug, Bool.true_and] at h
    rw [Bool.true_and, List.any_eq_false]
    intro y hy
    obtain ⟨k, hk, rfl⟩ := exists_of_mem_gals x y hy
    rw [hinv k hk]
    exact List.any_eq_false.mp h _ (mem_gals s k hk)

theorem laneCycle_none (X : Nat) (s : State) : laneCycle X ([], s) = ([], s) := rfl

/-- A cycle in which no step runs, no burst starts and nothing is compared. -/
theorem moduleCycle_idle (X : Nat) (s : State) (hrelay : relayLive s = false)
    (hwatch : watching (if filling s then fillCycle X s else s) = false) : moduleCycle [] X ([], s) =
      ([], { (if filling s then fillCycle X s else s) with useLog := recentUses X (if filling s then fillCycle X s else s).useLog }) := by
  unfold moduleCycle
  simp only [List.filter_nil, List.foldl_nil, laneCycle_none, hrelay, Bool.false_eq_true, if_false, hwatch]

section
variable {g : Nat} {f : CabFill} {s : State} (hg : g < numGal s) (hreg : f.region < 64)
  (hothers : ∀ k < 32, k ≠ g → (galOf s k).fills = []) (hclock : (galOf s g).regs.clockOn = true)
  (htours : ∀ x ∈ s.tours, x.state ≠ .running) (hwatch : watching s = false)
include hg hreg hothers hclock htours hwatch

theorem Landed.watching_false {d : Nat} {x : State} (h : Landed g f d s x) : watching x = false := by
  have hsec : x.sec = s.sec := (congrArg State.sec h.beside :)
  refine watching_congr s x hsec (fun k _ => ?_) hwatch
  by_cases hk : k = g
  · rw [hk, h.inv]
  · rw [h.others k hk]

/-- One cycle lands a chunk while one is left, and none afterwards. -/
theorem Landed.cycle {d X : Nat} {x : State} (h : Landed g f d s x) (hd : f.chunk + d ≤ f.rows) (hlog : ∀ u ∈ x.useLog, u.cycle < X) :
    ∃ y, moduleCycle [] X ([], x) = ([], y) ∧ Landed g f (min (d + 1) (f.rows - f.chunk)) s y ∧ ∀ u ∈ y.useLog, u.cycle < X + 1 := by
  have hg32 : g < 32 := lt_of_lt_of_le hg (numGal_le s)
  have hrelay : relayLive x = false := relayLive_idle x (by rw [h.same_tours]; exact htours)
  by_cases hlt : f.chunk + d < f.rows
  · obtain ⟨hfills, -, -⟩ := h.going hlt
    have hfilling : filling x = true := filling_of_open x g hg32 _ (by rw [hfills]; exact List.mem_singleton_self _) hlt
    have halone : FillsAlone g { f with chunk := f.chunk + d } x :=
      { fills := hfills, others := fun k hk hne => by rw [h.others k hne, hothers k hk hne], clock := by rw [h.regs, hclock] }
    have hcycle := fillCycle_alone X g _ x halone (by rw [h.same_numGal]; exact hg) hlt hlog
    have hnext := (h.relog (fillUse X g { f with chunk := f.chunk + d } x :: x.useLog)).next hg32 hreg hlt
    refine ⟨_, (moduleCycle_idle X x hrelay ?_).trans (by rw [hfilling, if_pos rfl, hcycle]), ?_, fun u hu => ?_⟩
    · rw [hfilling, if_pos rfl, hcycle]
      exact hnext.watching_false hg hreg hothers hclock htours hwatch
    · rw [Nat.min_eq_left (by omega)]
      exact hnext.relog _
    · have hmem := (List.mem_filter.mp hu).1
      rw [useLog_landChunk] at hmem
      rcases List.mem_cons.mp hmem with rfl | hold
      · exact Nat.lt_succ_self X
      · exact Nat.lt_succ_of_lt (hlog u hold)
  · have hdone : f.chunk + d = f.rows := by omega
    obtain ⟨hfills, -, -⟩ := h.done hdone
    have hfilling : filling x = false := by
      refine filling_of_closed x (fun k hk c hc => ?_)
      by_cases hkg : k = g
      · rw [hkg, hfills] at hc
        split at hc
        · exact absurd hc (List.not_mem_nil)
        · rw [List.mem_singleton.mp hc]
      · rw [h.others k hkg, hothers k hk hkg] at hc
        exact absurd hc (List.not_mem_nil)
    refine ⟨_, (moduleCycle_idle X x hrelay ?_).trans (by rw [hfilling, if_neg (by decide)]), ?_, fun u hu => ?_⟩
    · rw [hfilling, if_neg (by decide)]
      exact h.watching_false hg hreg hothers hclock htours hwatch
    · rw [Nat.min_eq_right (by omega), show f.rows - f.chunk = d by omega]
      exact h.relog _
    · exact Nat.lt_succ_of_lt (hlog u (List.mem_filter.mp hu).1)

theorem Landed.cycles (n : Nat) {d X : Nat} {x : State} (h : Landed g f d s x) (hd : f.chunk + d ≤ f.rows)
    (hlog : ∀ u ∈ x.useLog, u.cycle < X) :
    ∃ y, moduleCycles [] n X ([], x) = ([], y) ∧ Landed g f (min (d + n) (f.rows - f.chunk)) s y := by
  induction n generalizing d X x with
  | zero => exact ⟨x, rfl, by rw [Nat.add_zero, Nat.min_eq_left (by omega)]; exact h⟩
  | succ n ih =>
    obtain ⟨y, hy, hland, hlog'⟩ := h.cycle hg hreg hothers hclock htours hwatch hd hlog
    obtain ⟨z, hz, hland'⟩ := ih hland (by omega) hlog'
    refine ⟨z, ?_, ?_⟩
    · rw [moduleCycles, hy, hz]
    · rwa [show min (min (d + 1) (f.rows - f.chunk) + n) (f.rows - f.chunk) = min (d + (n + 1)) (f.rows - f.chunk) by omega] at hland'

end

/-- The region of a fill that is no release loses POISONED, and an internal one is ready. -/
theorem landedRgn_parts (f : CabFill) (now : Nat) (r : Region) (h : f.release = false) :
    (landedRgn f now r).poisoned = false ∧ (r.feed = 0 → (landedRgn f now r).ready = true) ∧
      (r.feed ≠ 0 → (landedRgn f now r).ready = r.ready) ∧ (landedRgn f now r).valid = r.valid := by
  rw [landedRgn, h, if_neg (by decide)]
  by_cases hfeed : r.feed = 0
  · rw [if_pos (show (unpoisonRgn r).feed = 0 from hfeed), readyRgn]
    split
    · next hready => exact ⟨rfl, fun _ => hready, fun h => absurd hfeed h, rfl⟩
    · exact ⟨rfl, fun _ => rfl, fun h => absurd hfeed h, rfl⟩
  · rw [if_neg (show ¬((unpoisonRgn r).feed = 0) from hfeed)]
    exact ⟨rfl, fun h => absurd h hfeed, fun _ => rfl, rfl⟩

/-- Settles O13. -/
theorem regionFillsLand : Obligations.RegionFillsLand := by
  refine ⟨fun g f s hpending hruns hlock hheld hcyc hlog hwatch hrun htours hquiet hg hreg hfills hothers hclock hopen => ?_,
    fun i g j v w s hw hk hg => ?_⟩
  · have hg32 : g < 32 := lt_of_lt_of_le hg (numGal_le s)
    have hstart : Landed g f 0 (countWaits s) (countWaits s) := Landed.start hfills hopen
    have hempty : ∀ u ∈ (countWaits s).useLog, u.cycle < 100 * s.time.now + s.time.cycle := by
      rw [show (countWaits s).useLog = [] from hlog]
      exact fun u hu => absurd hu (List.not_mem_nil)
    obtain ⟨y, hy, hland⟩ := Landed.cycles (s := countWaits s) hg hreg hothers hclock htours hwatch 100 hstart
      (by rw [Nat.add_zero]; exact Nat.le_of_lt hopen) hempty
    rw [Nat.zero_add] at hland
    have hfilling : filling (countWaits s) = true :=
      filling_of_open (countWaits s) g hg32 f (by rw [show (galOf (countWaits s) g).fills = [f] from hfills]; exact List.mem_singleton_self f) hopen
    have hrunTo : runTo 100 (serveHeld (countWaits s)) = modTime y (fun t => { t with cycle := 100 }) := by
      rw [serveHeld_none (countWaits s) hheld, runTo, if_neg (by rw [show (countWaits s).time.cycle = 0 from hcyc]; decide),
        lanesOfTick_idle (countWaits s) hrun, tickBursts_idle (countWaits s) htours, hfilling]
      dsimp only
      rw [if_neg (by simp), show 100 - (countWaits s).time.cycle = 100 by rw [show (countWaits s).time.cycle = 0 from hcyc]]
      exact congrArg (fun r : List Lane × State => modTime (r.1.foldl (fun x l => putLane l x) r.2) (fun t => { t with cycle := 100 })) hy
    generalize hw : modTime y (fun t => { t with cycle := 100 }) = w at hrunTo
    have hwtours : w.tours = s.tours := by rw [← hw]; exact hland.same_tours
    have hidle : ∀ x ∈ w.tours, x.state ≠ .running := by rw [hwtours]; exact htours
    have hbeside := besideEdge_tickEdge w hidle
    have hedge := tickEdge_quiet w hidle (by rw [hwtours]; exact fun x hx hacc => Or.inl (hquiet x hx hacc))
    have hgals : (tickEdge w).gals = y.gals := by rw [hedge, gals_timeExchange, ← hw]; rfl
    have hgal (k : Nat) : galOf (tickEdge w) k = galOf y k := by rw [galOf, hgals, galOf]
    have hrgn (k m : Nat) : rgnOf (tickEdge w) k m = rgnOf y k m := by rw [rgnOf, hgal, rgnOf]
    have hword (k pa : Nat) : cabWord (tickEdge w) k pa = cabWord y k pa := by rw [cabWord, hgal, cabWord]
    refine ⟨tickEdge w, ?_, fun pa => ?_, fun k pa hk => ?_, fun k m hkm => ?_, fun hlt => ?_, fun heq => ?_, ?_, ?_, ?_, ?_⟩
    · rw [step_of_nil s hpending, idleTick_eq s (by rw [timeRuns, hruns, hlock]; rfl), hrunTo]
    · rw [hword]; exact hland.words pa
    · rw [hword, cabWord, hland.others k hk]; rfl
    · rw [hrgn]
      by_cases hk : k = g
      · subst hk
        exact hland.rgns m (fun e => hkm (by rw [e]))
      · rw [rgnOf, hland.others k hk]; rfl
    · obtain ⟨hf, hr, hbusy⟩ := hland.going hlt
      rw [hgal, hrgn]
      exact ⟨hf, hr, hbusy (by omega)⟩
    · obtain ⟨hf, hr, hbusy⟩ := hland.done heq
      rw [hgal, hrgn]
      refine ⟨hbusy, fun hrel => ?_, fun hrel => ?_⟩
      · rw [hf, hr, hrel]
        exact ⟨rfl, landedRgn_parts f _ _ hrel⟩
      · rw [hf, hr, landedRgn, hrel]
        exact ⟨rfl, rfl⟩
    · rw [hbm_of_edge hbeside, ← hw]; exact (congrArg State.hbm hland.beside :)
    · rw [hostMem_of_edge hbeside, ← hw]; exact (congrArg State.hostMem hland.beside :)
    · rw [hedge, tours_timeExchange, ← hwtours]; rfl
    · rw [vault_of_edge hbeside, ← hw]; exact (congrArg State.vault hland.beside :)
  · dsimp only
    refine ⟨fun f hf => ⟨fun hlt => ?_, fun hle => ?_⟩, fun hnone => ?_⟩
    · rw [exec, execRegionFillDone, doRegionFillDone, hw]
      dsimp only
      rw [hk]
      dsimp only
      rw [fillOf, hf]
      dsimp only
      rw [if_pos ((fillOpen_iff f).mpr hlt)]
    · have hclosed : ¬(fillOpen f = true) := fun h => absurd ((fillOpen_iff f).mp h) (Nat.not_lt.mpr hle)
      rw [exec, execRegionFillDone, doRegionFillDone, hw]
      dsimp only
      rw [hk]
      dsimp only
      rw [fillOf, hf]
      dsimp only
      rw [if_neg hclosed]
      rfl
    · rw [exec, execRegionFillDone, doRegionFillDone, hw]
      dsimp only
      rw [hk]
      dsimp only
      rw [fillOf, hnone]
      rfl

end Sys2Proof.Machine
end

section
/-!
PROOF. The commands of the fabric, of time domains and of party groups (17; 12 R263 to R266), and what the links bring.
-/

namespace Sys2Proof.Machine

/-! ### The commands -/

theorem doWindowOpen_ok (w access remote kind g j addr len : Nat) (peer : Peer) (s : State)
    (h : windowCheck w access remote kind g j addr len peer s = stOk) :
    doWindowOpen w access remote kind g j addr len peer s = (ansOk, modWin s w (fun _ =>
      { isOpen := true, remote := BitVec.ofNat 14 remote, region := if kind = 2 then BitVec.ofNat 6 j else 0,
        gallery := if kind = 2 then BitVec.ofNat 5 g else 0, cabinet := kind == 2,
        redOp := if bitAt access 2 then BitVec.ofNat 4 (access / 16) else 0, reduce := bitAt access 2,
        access := BitVec.ofNat 2 access, addr := addr, length := len, epoch := s.health.epoch })) := by
  unfold doWindowOpen
  rw [h]
  exact if_neg (fun hne => hne rfl)

/-- A window that passes the checks of Table 17-1 is one of the 64. -/
theorem window_of_windowCheck {w access remote kind g j addr len : Nat} {peer : Peer} {s : State}
    (h : windowCheck w access remote kind g j addr len peer s = stOk) : w < 64 := by
  by_contra hw
  refine absurd h ?_
  unfold windowCheck
  rw [if_pos (by simp [show 63 < w by omega])]
  decide

theorem groupRegionCheck_ok (slot g j : Nat) (s : State) (hslot : slot < 4) (hdecl : declared s g j = true)
    (hplain : (rgnOf s g j).isSealed = false) (hfeed : (rgnOf s g j).feed = 3) (hformed : (groupOf s slot).formed = true)
    (hnamed : regionNamed s g j = false) (hother : ∀ k < 4, k ≠ slot → (g, j) ∉ (groupOf s k).regions) :
    groupRegionCheck slot g j s = stOk := by
  have hany : (List.range 4).any (fun k => k != slot && (groupOf s k).regions.contains (g, j)) = false := by
    rw [List.any_eq_false]
    intro k hk hc
    rw [Bool.and_eq_true, bne_iff_ne, List.contains_iff_mem] at hc
    exact hother k (List.mem_range.mp hk) hc.1 hc.2
  unfold groupRegionCheck
  dsimp only
  rw [hdecl, hplain, hfeed, hformed, hnamed, hany, decide_eq_false (by omega : ¬ 4 ≤ slot)]
  rfl

theorem doGroupForm_ok (id : Word) (slot self parties : Nat) (members : BitVec 48) (a : Nat) (s : State) (hslot : slot < 4)
    (hparties : parties = 2 ∨ parties = 3) (hself : self < parties)
    (hmembers : ∀ i < parties, fieldAt members.toNat (16 * i) 16 < 2 ^ 14) (hdebug : s.sec.debug = false)
    (hfree : (groupOf s slot).formed = false) (hhost : s.host.busMaster = true) :
    doGroupForm id slot self parties members a s = (ansLong (.groupForm slot id self parties members
      ((List.range parties).map (fun i => hostGet s (a + 133 * i) 133))), s) := by
  have hids : ((List.range parties).map (fun i => fieldAt members.toNat (16 * i) 16)).any (fun m => decide (2 ^ 14 ≤ m)) = false := by
    rw [List.any_eq_false]
    intro m hm
    obtain ⟨i, hi, rfl⟩ := List.mem_map.mp hm
    rw [decide_eq_true_eq]
    exact Nat.not_le.mpr (hmembers i (List.mem_range.mp hi))
  have hpar : (parties == 2 || parties == 3) = true := by rcases hparties with rfl | rfl <;> rfl
  unfold doGroupForm
  dsimp only
  rw [hids, hpar, hdebug, hfree, hostReady, hhost, decide_eq_false (Nat.not_le.mpr hslot), decide_eq_false (Nat.not_le.mpr hself)]
  rfl

/-- Settles O44: each command is accepted once its checks have passed, and `command` writes its REPLY. -/
theorem fabricCommandsRun : Obligations.FabricCommandsRun := by
  unfold Obligations.FabricCommandsRun
  intro h s hd
  refine ⟨fun ports => ?_, fun domain root hroot hacc => ?_, fun hacc => ?_, fun w access remote kind g j addr len peer hok => ?_,
    fun w hw hopen => ?_, fun id slot self parties members a hslot hpar hself hmem hdebug hfree hhost => ?_, fun slot hslot hformed => ?_,
    fun slot g j hslot hdecl hplain hfeed hformed hnamed hother => ?_, fun partner enable peer hok => ?_⟩
  · exact next_command h _ _ s hd _ _ rfl
  · refine next_command h _ _ s hd _ _ ?_
    rw [doTimeJoin, if_neg (Nat.not_le.mpr hroot), hacc]
    rfl
  · refine next_command h _ _ s hd _ _ ?_
    rw [doTimeLeave, hacc]
    rfl
  · have hw := window_of_windowCheck hok
    refine ⟨_, next_command h _ _ s hd _ _ (doWindowOpen_ok _ _ _ _ _ _ _ _ _ _ hok), ?_⟩
    rw [winOf_modWin_same _ _ _ hw]
    refine ⟨rfl, rfl, rfl, ?_, ?_, rfl, rfl, rfl, fun k hk => winOf_modWin_other _ _ _ _ hk, rfl⟩
    · show bitAt access.toNat 2 = _
      rw [bitAt_toNat]
    · show (kind.toNat == 2) = decide (kind = 2)
      rw [Bool.eq_iff_iff, beq_iff_eq, decide_eq_true_eq, ← BitVec.toNat_inj]
      rfl
  · refine next_command h _ _ s hd _ _ ?_
    rw [doWindowClose, if_neg (by omega), hopen]
    rfl
  · exact next_command h _ _ s hd _ _
      (doGroupForm_ok _ _ _ _ _ _ s hslot (hpar.imp (fun e => by rw [e]; rfl) (fun e => by rw [e]; rfl)) hself hmem hdebug hfree hhost)
  · refine next_command h _ _ s hd _ _ ?_
    rw [doGroupDissolve, if_neg (Nat.not_le.mpr hslot), hformed]
    rfl
  · have hok := groupRegionCheck_ok _ _ _ s hslot hdecl hplain hfeed hformed hnamed hother
    constructor
    · refine next_command h _ _ s hd _ _ ?_
      rw [doGroupRegister, hok]
      rfl
    · refine next_command h _ _ s hd _ _ ?_
      rw [doGroupRemove, hok]
      rfl
  · refine next_command h _ _ s hd _ _ ?_
    rw [doLockstepSet, hok, toNat_beq_one]
    rfl

/-! ### Link keys -/

/-- The state without what a key agreement changes beside its port: the DRBG's and the engine's. -/
def besideKeys (s : State) : State := { s with freeCount := 0, drbg := Drbg.reset, sec := State.reset.sec }

theorem besideKeys_of_besideDrbg {s t : State} (h : besideDrbg t = besideDrbg s) : besideKeys t = besideKeys s :=
  (congrArg (fun x => { x with sec := State.reset.sec }) h :)

theorem besideKeys_drbgScalar (s : State) : besideKeys (drbgScalar s).2 = besideKeys s := by
  have h := besideKeys_of_besideDrbg (besideDrbg_drbgRequest 66 s)
  rw [drbgScalar]
  generalize drbgRequest 66 s = r at h ⊢
  exact h

theorem besideKeys_noteOp (n : Nat) (s : State) : besideKeys (noteOp n s) = besideKeys s := rfl

theorem besideKeys_identitySign (e : Nat) (s : State) : besideKeys (identitySign e s).2 = besideKeys s := by
  have h := besideKeys_drbgScalar s
  unfold identitySign
  generalize drbgScalar s = k at h ⊢
  dsimp only
  split
  · exact h
  · exact h

theorem besideKeys_drawEphemeral (s : State) : besideKeys (drawEphemeral s).2 = besideKeys s := by
  have h := besideKeys_drbgScalar s
  unfold drawEphemeral
  generalize drbgScalar s = d at h ⊢
  generalize hn : noteOp 1312500 d.2 = n
  have hn' : besideKeys n = besideKeys s := hn ▸ (besideKeys_noteOp _ _).trans h
  dsimp only
  rw [hn, besideKeys_identitySign, hn']

theorem besideKeys_noteAgreed (ok : Bool) (s : State) : besideKeys (noteAgreed ok s) = besideKeys s := rfl

section
variable {s t : State} (h : besideKeys t = besideKeys s)
include h

theorem fab_of_besideKeys : t.fab = s.fab := (congrArg State.fab h :)
theorem health_of_besideKeys : t.health = s.health := (congrArg State.health h :)
theorem gals_of_besideKeys : t.gals = s.gals := (congrArg State.gals h :)
theorem hbm_of_besideKeys : t.hbm = s.hbm := (congrArg State.hbm h :)

theorem portOf_of_besideKeys (k : Nat) : portOf t k = portOf s k := by rw [portOf, fab_of_besideKeys h, portOf]

end

/-- What the neighbour offered verifies. -/
def offerAgrees (o : KeyOffer) : Bool := o.chainOk && offeredKeyOk o

/-- A port whose key agreement ended, with the ephemeral key of this end. -/
def agreedPort (k : Nat) (e : Ephemeral) (o : KeyOffer) (p : Port) : Port :=
  if offerAgrees o then keyPort k e o p else { portDown p with authFails := bump8 p.authFails }

theorem agreeLink_eq (k : Nat) (o : KeyOffer) (s : State) :
    ∃ e t, besideKeys t = besideKeys s ∧ agreeLink k o s = (offerAgrees o, modPort t k (agreedPort k e o)) := by
  have h := besideKeys_drawEphemeral s
  unfold agreeLink
  generalize drawEphemeral s = r at h ⊢
  exact ⟨r.1, noteAgreed (offerAgrees o) r.2, (besideKeys_noteAgreed _ _).trans h, rfl⟩

/-- A key agreement changes its port alone, beside the DRBG and the engine. -/
theorem agreeLink_parts (k : Nat) (hk : k < 8) (o : KeyOffer) (s : State) : ∃ e u, agreeLink k o s = (offerAgrees o, u) ∧
    portOf u k = agreedPort k e o (portOf s k) ∧ (∀ j, j ≠ k → portOf u j = portOf s j) ∧ u.health = s.health ∧ u.gals = s.gals ∧
    u.hbm = s.hbm := by
  obtain ⟨e, t, ht, heq⟩ := agreeLink_eq k o s
  refine ⟨e, _, heq, ?_, fun j hj => ?_, (health_of_besideKeys ht :), (gals_of_besideKeys ht :), (hbm_of_besideKeys ht :)⟩
  · rw [portOf_modPort_same _ _ _ hk, portOf_of_besideKeys ht]
  · rw [portOf_modPort_other _ _ _ _ hj, portOf_of_besideKeys ht]

theorem agreedPort_ok {o : KeyOffer} (h : offerAgrees o = true) (k : Nat) (e : Ephemeral) (p : Port) :
    agreedPort k e o p = keyPort k e o p := if_pos h

theorem agreedPort_failed {o : KeyOffer} (h : offerAgrees o = false) (k : Nat) (e : Ephemeral) (p : Port) :
    agreedPort k e o p = { portDown p with authFails := bump8 p.authFails } := if_neg (by rw [h]; decide)

@[simp] theorem agreedPort_frameRx (k : Nat) (e : Ephemeral) (o : KeyOffer) (p : Port) : (agreedPort k e o p).frameRx = 0 := by
  unfold agreedPort; split <;> rfl

@[simp] theorem agreedPort_frameTx (k : Nat) (e : Ephemeral) (o : KeyOffer) (p : Port) : (agreedPort k e o p).frameTx = 0 := by
  unfold agreedPort; split <;> rfl

@[simp] theorem agreedPort_retries (k : Nat) (e : Ephemeral) (o : KeyOffer) (p : Port) : (agreedPort k e o p).retries = p.retries := by
  unfold agreedPort; split <;> rfl

@[simp] theorem agreedPort_retrains (k : Nat) (e : Ephemeral) (o : KeyOffer) (p : Port) :
    (agreedPort k e o p).retrains = p.retrains := by
  unfold agreedPort; split <;> rfl

theorem agreedPort_tagFails (k : Nat) (e : Ephemeral) (o : KeyOffer) (p : Port) (h : p.tagFails = []) :
    (agreedPort k e o p).tagFails = [] := by
  unfold agreedPort; split
  · exact h
  · rfl

theorem agreedPort_up (k : Nat) (e : Ephemeral) (o : KeyOffer) (p : Port) (h : p.up = true) :
    (agreedPort k e o p).up = offerAgrees o := by
  unfold agreedPort
  cases offerAgrees o
  · rfl
  · exact h

/-! ### Frames -/

/-- A port that a sixteenth tag failure retrains, before it has new keys. -/
def retrainedPort (p : Port) : Port := { p with retries := bump8 p.retries, retrains := bump8 p.retrains, tagFails := [] }

/-- A port at which a frame had a bad tag. -/
def retriedPort (now : Nat) (p : Port) : Port := { p with retries := bump8 p.retries, tagFails := now :: recentTags now p.tagFails }

/-- The module's counts of retries and of retraining. -/
def countRetry (s : State) : State := modTaps s (fun t => { t with rt := t.rt + 1 })
def countRetrain (s : State) : State := modTaps s (fun t => { t with tr := t.tr + 1 })

theorem doFrame_failed (k : Nat) (o : KeyOffer) (s : State) (hr : hubRuns s = true) (hup : (portOf s k).up = true)
    (hrx : (portOf s k).frameRx + 1 < 2 ^ 32) :
    doFrame k (.failed o) s = if 16 ≤ (recentTags s.time.now (portOf s k).tagFails).length + 1 then
      (agreeLink k o (modPort (countRetrain (countRetry s)) k retrainedPort)).2
    else modPort (countRetry s) k (fun x => { x with
      retries := bump8 x.retries, tagFails := s.time.now :: recentTags s.time.now (portOf s k).tagFails }) := by
  unfold doFrame
  dsimp only
  rw [hr, hup, decide_eq_false (Nat.not_le.mpr hrx)]
  rfl

theorem doFrame_verified (k : Nat) (s : State) (hr : hubRuns s = true) (hup : (portOf s k).up = true)
    (hrx : (portOf s k).frameRx + 1 < 2 ^ 32) :
    doFrame k .verified s = modPort s k (fun p => { p with frameRx := p.frameRx + 1 }) := by
  unfold doFrame
  dsimp only
  rw [hr, hup, decide_eq_false (Nat.not_le.mpr hrx)]
  rfl

theorem doRekey_up (k : Nat) (o : KeyOffer) (s : State) (hr : hubRuns s = true) (hup : (portOf s k).up = true) :
    doRekey k o s = (agreeLink k o s).2 := by
  rw [doRekey, hr, hup]
  rfl

/-- A port that lost lanes, counted before it retrains. -/
def countedPort (p : Port) : Port := { p with retrains := bump8 p.retrains }

theorem doPortLoss_some (k lanes : Nat) (o : KeyOffer) (s : State) (hr : hubRuns s = true) (hup : (portOf s k).up = true)
    (hl : 2 ≤ lanes) : doPortLoss k ⟨lanes, o⟩ s =
      if offerAgrees o then modPort (agreeLink k o (modPort (countRetrain s) k countedPort)).2 k (portUp true)
      else (agreeLink k o (modPort (countRetrain s) k countedPort)).2 := by
  rw [doPortLoss, hr, hup]
  rw [if_neg (by decide), if_neg (by show ¬ lanes < 2; omega)]
  have h : (agreeLink k o (modPort (countRetrain s) k countedPort)).1 = offerAgrees o := by
    obtain ⟨e, t, -, heq⟩ := agreeLink_eq k o (modPort (countRetrain s) k countedPort)
    rw [heq]
  rw [← h]
  generalize hs : modPort (countRetrain s) k countedPort = x
  have hs' : modPort (modTaps s (fun t => { t with tr := t.tr + 1 })) k (fun p => { p with retrains := bump8 p.retrains }) = x := hs
  dsimp only
  rw [hs']

theorem doPortLoss_none (k lanes : Nat) (o : KeyOffer) (s : State) (hr : hubRuns s = true) (hup : (portOf s k).up = true)
    (hl : lanes < 2) : doPortLoss k ⟨lanes, o⟩ s = modPort s k portDown := by
  rw [doPortLoss, hr, hup, if_neg (by decide), if_pos hl]

/-! ### Time messages -/

theorem doTimeMessage_taken (domain : Word) (root trip : Nat) (measured : BitVec 16) (s : State) (hr : hubRuns s = true)
    (hup : anyPortUp s = true) (hj : s.time.joined = true) (hroot : s.time.isRoot = false) (hdom : s.time.domain = domain)
    (hacc : s.time.disciplined = true ∨ anyAccepted s = false) :
    doTimeMessage domain root ⟨measured, trip⟩ s = modTime (freeBits 16 s).2 (fun x => { x with
      lastMessage := x.now, offset := compensated measured trip, aligned := withinTwoNs (compensated measured trip), holdover := false,
      steering := ((freeBits 16 s).1.toNat % 40001 : Nat) - 20000, disciplined := true,
      pendingSet := if x.disciplined then x.pendingSet else some (root + halfTrip trip / 160) }) := by
  have hacc' : (!s.time.disciplined && anyAccepted s) = false := by rcases hacc with h | h <;> simp [h]
  unfold doTimeMessage
  dsimp only
  rw [hr, hup, hj, hroot, hdom, hacc', bne_self_eq_false]
  rfl

/-- Settles O45: a key agreement changes its port alone, and each message does what its port and time domain say. -/
theorem linksAct : Obligations.LinksAct := by
  unfold Obligations.LinksAct
  refine ⟨fun s => ⟨fun k o hr hup => ?_, fun owner w access len reduce hd hany hlen => ?_⟩, fun s hr => ⟨?_, fun hdis hroot hhold hlast => ?_⟩⟩
  · intro agrees
    have hk : k.toNat < 8 := k.isLt
    have hagrees : offerAgrees o = agrees := rfl
    refine ⟨fun hrx => ⟨congrArg Host.Outcome.next (doFrame_verified _ s hr hup hrx), _,
      congrArg Host.Outcome.next (doFrame_failed k.toNat o s hr hup hrx), ?_⟩, ?_, fun lanes hl => congrArg Host.Outcome.next
      (doPortLoss_none _ lanes o s hr hup hl), fun lanes hl hl' => ?_⟩
    · by_cases h16 : 15 ≤ (recentTags s.time.now (portOf s k.toNat).tagFails).length
      · rw [if_pos (by omega)]
        obtain ⟨e, u, heq, hport, hother, hhealth, hgals, hhbm⟩ :=
          agreeLink_parts k.toNat hk o (modPort (countRetrain (countRetry s)) k.toNat retrainedPort)
        rw [heq]
        rw [portOf_modPort_same _ _ _ hk] at hport
        dsimp only
        rw [hport, hhealth]
        refine ⟨agreedPort_retries _ _ _ _, rfl, fun _ => ⟨agreedPort_retrains _ _ _ _, agreedPort_frameRx _ _ _ _,
          agreedPort_tagFails _ _ _ _ rfl, agreedPort_up _ _ _ _ hup⟩, fun hlt => absurd h16 (by omega), fun j hj => ?_, hgals, hhbm⟩
        rw [hother j hj, portOf_modPort_other _ _ _ _ hj]
        rfl
      · rw [if_neg (by omega), portOf_modPort_same _ _ _ hk]
        refine ⟨rfl, rfl, fun hge => absurd hge h16, fun _ => ⟨rfl, rfl⟩, fun j hj => ?_, rfl, rfl⟩
        rw [portOf_modPort_other _ _ _ _ hj]
        rfl
    · obtain ⟨e, u, heq, hport, hother, -⟩ := agreeLink_parts k.toNat hk o s
      refine ⟨u, congrArg Host.Outcome.next ((doRekey_up _ o s hr hup).trans (by rw [heq])), ?_⟩
      rw [hport]
      refine ⟨agreedPort_up _ _ _ _ hup, agreedPort_frameRx _ _ _ _, agreedPort_frameTx _ _ _ _, hother, fun ha => ?_, fun ha => ?_⟩
      · rw [agreedPort_ok (hagrees.trans ha)]
        exact ⟨rfl, rfl⟩
      · rw [agreedPort_failed (hagrees.trans ha)]
        exact ⟨rfl, rfl, rfl, rfl⟩
    · obtain ⟨e, u, heq, hport, -⟩ := agreeLink_parts k.toNat hk o (modPort (countRetrain s) k.toNat countedPort)
      refine ⟨_, congrArg Host.Outcome.next (doPortLoss_some _ lanes o s hr hup hl), ?_⟩
      rw [heq, hagrees]
      rw [portOf_modPort_same _ _ _ hk] at hport
      cases ha : agrees
      · rw [if_neg (by decide)]
        dsimp only
        rw [hport, agreedPort_failed (hagrees.trans ha)]
        exact ⟨rfl, rfl, fun h => absurd h (by decide), fun _ => rfl⟩
      · rw [if_pos rfl, portOf_modPort_same _ _ _ hk]
        dsimp only
        rw [hport, agreedPort_ok (hagrees.trans ha)]
        exact ⟨rfl, rfl, fun _ => rfl, fun h => absurd h (by decide)⟩
  · refine congrArg Host.Outcome.next ?_
    rw [doAnnounce, hd, hany]
    exact if_pos (by simpa using hlen)
  · intro domain root trip measured hup hj hroot hdom hacc o
    refine ⟨_, congrArg Host.Outcome.next (doTimeMessage_taken domain root trip measured s hr hup hj hroot hdom hacc), rfl, rfl, rfl,
      rfl, rfl, rfl, ?_, ?_, rfl, rfl, rfl⟩
    · show (-20000 : Int) ≤ ((freeBits 16 s).1.toNat % 40001 : Nat) - 20000
      omega
    · show (((freeBits 16 s).1.toNat % 40001 : Nat) : Int) - 20000 ≤ 20000
      omega
  · refine congrArg Host.Outcome.next ?_
    exact if_pos (by rw [hr, hdis, hroot, hhold, decide_eq_true hlast]; rfl)

end Sys2Proof.Machine
end

section
/-!
PROOF. Debug states (19 R419 to R422), and the end of a period of the risk estimate.
-/

namespace Sys2Proof.Machine

/-! ### Draws of entropy -/

theorem besideDrbg_rawBits (n : Nat) (s : State) : besideDrbg (rawBits n s).2 = besideDrbg s := by
  induction n generalizing s with
  | zero => rfl
  | succ n ih => exact ih { s with freeCount := s.freeCount + 1 }

theorem besideDrbg_setDrbg (d : DrbgState) (s : State) : besideDrbg (setDrbg d s) = besideDrbg s := rfl

theorem besideDrbg_drbgFresh (s : State) : besideDrbg (drbgFresh s) = besideDrbg s := rfl

theorem besideDrbg_drbgInstantiateNow (s : State) : besideDrbg (drbgInstantiateNow s) = besideDrbg s := by
  have h := besideDrbg_rawBits 3 s
  unfold drbgInstantiateNow
  generalize rawBits 3 s = r at h ⊢
  rw [drbgInstantiateFrom, besideDrbg_drbgFresh, besideDrbg_setDrbg]
  exact h

/-- The state with another challenge, beside the DRBG's part. -/
theorem newChallenge_parts (s : State) : ∃ n, newChallenge s =
    { s with freeCount := n, sec := { s.sec with challenge := BitVec.ofNat 256 (leNat (freshNonce s).1) } } := by
  have hraw (n : Nat) (s : State) : ∃ k, (rawBits n s).2 = { s with freeCount := k } := by
    induction n generalizing s with
    | zero => exact ⟨s.freeCount, rfl⟩
    | succ n ih => exact ih { s with freeCount := s.freeCount + 1 }
  obtain ⟨k, hk⟩ := hraw 2 s
  refine ⟨k, ?_⟩
  have h2 : (freshNonce s).2 = { s with freeCount := k } := by
    rw [freshNonce]
    dsimp only
    exact hk
  unfold newChallenge
  generalize freshNonce s = r at h2 ⊢
  rw [setChallenge, h2]

theorem newChallenge_frame (s : State) :
    (newChallenge s).sec = { s.sec with challenge := BitVec.ofNat 256 (leNat (freshNonce s).1) } ∧ (newChallenge s).fuses = s.fuses ∧
      (newChallenge s).gals = s.gals ∧ (newChallenge s).hbm = s.hbm ∧ (newChallenge s).hostMem = s.hostMem := by
  obtain ⟨n, hn⟩ := newChallenge_parts s
  generalize newChallenge s = x at hn ⊢
  subst hn
  exact ⟨rfl, rfl, rfl, rfl, rfl⟩

theorem badUnlock_frame (s : State) : (badUnlock s).sec = { s.sec with unlockFails := bump8 s.sec.unlockFails } ∧
    (badUnlock s).fuses = s.fuses ∧ (badUnlock s).gals = s.gals ∧ (badUnlock s).hbm = s.hbm ∧ (badUnlock s).hostMem = s.hostMem :=
  ⟨rfl, rfl, rfl, rfl, rfl⟩

/-! ### DEBUG_STATE -/

/-- Debug mode is entered, with a DRBG instantiated anew. -/
def debugEntered (s : State) : State :=
  { drbgInstantiateNow (drbgZero s) with sec := { (drbgInstantiateNow (drbgZero s)).sec with debug := true, sinceReset := true } }

theorem debugEntered_parts (s : State) : (debugEntered s).sec = { s.sec with debug := true, sinceReset := true } ∧
    (debugEntered s).fuses = s.fuses ∧ (debugEntered s).gals = s.gals ∧ (debugEntered s).hbm = s.hbm ∧
    (debugEntered s).hostMem = s.hostMem := by
  have h : besideDrbg (drbgInstantiateNow (drbgZero s)) = besideDrbg s := by
    rw [besideDrbg_drbgInstantiateNow, drbgZero, besideDrbg_setDrbg]
  unfold debugEntered
  generalize drbgInstantiateNow (drbgZero s) = x at h ⊢
  refine ⟨?_, (congrArg State.fuses h :), (congrArg State.gals h :), (congrArg State.hbm h :), (congrArg State.hostMem h :)⟩
  rw [show x.sec = s.sec from (congrArg State.sec h :)]

/-- Debug mode is left, with cabinets, tour stores and twiddle banks zeroized. -/
def debugLeft (s : State) : State :=
  drbgInstantiateNow { s with gals := s.gals.map zeroGallery, sec := { s.sec with debug := false } }

theorem debugLeft_parts (s : State) : (debugLeft s).sec.debug = false ∧ (debugLeft s).gals = s.gals.map zeroGallery ∧
    (debugLeft s).fuses = s.fuses ∧ (debugLeft s).hbm = s.hbm ∧ (debugLeft s).hostMem = s.hostMem := by
  have h : besideDrbg (debugLeft s) = besideDrbg { s with gals := s.gals.map zeroGallery, sec := { s.sec with debug := false } } :=
    besideDrbg_drbgInstantiateNow _
  generalize debugLeft s = x at h ⊢
  exact ⟨(congrArg (fun y => y.sec.debug) h :), (congrArg State.gals h :), (congrArg State.fuses h :), (congrArg State.hbm h :),
    (congrArg State.hostMem h :)⟩

theorem doDebugEnter_eq (addr : Nat) (s : State) (hhost : s.host.busMaster = true) : doDebugEnter addr s =
    if !s.fuses.debugDisabled && tokenOk s (hostGet s addr 468) then
      if anyLive (newChallenge s) || sealedDeclared (newChallenge s) || groupFormed (newChallenge s) then
        (ansFail stNotReady, newChallenge s)
      else (ansLong (.debugState 1 stOk), debugEntered (newChallenge s))
    else (ansFail stAuthFail, badUnlock (newChallenge s)) := by
  unfold doDebugEnter
  rw [hostReady, hhost]
  dsimp only
  cases !s.fuses.debugDisabled && tokenOk s (hostGet s addr 468)
  · rw [if_neg (by decide), if_pos (by decide), if_neg (by decide)]
  · rw [if_neg (by decide), if_neg (by decide), if_pos rfl, debugEntered]

/-- Settles O53: the token decides first, then what keeps debug mode out. -/
theorem debugStatesChange : Obligations.DebugStatesChange := by
  unfold Obligations.DebugStatesChange
  intro h addr s hd
  refine ⟨fun hhost => ?_, fun hhost hlive hdebug => ?_, fun hhost hdebug => ?_, fun hno => ?_⟩
  · intro ok free
    have heq := doDebugEnter_eq addr.toNat s hhost
    obtain ⟨n, hn⟩ := newChallenge_parts s
    have hlive : anyLive (newChallenge s) = anyLive s := by rw [hn]; rfl
    have hsealed : sealedDeclared (newChallenge s) = sealedDeclared s := by rw [hn]; rfl
    have hformed : groupFormed (newChallenge s) = groupFormed s := by rw [hn]; rfl
    have hfree : (anyLive s || sealedDeclared s || groupFormed s) = !free := by
      show _ = !(!anyLive s && !sealedDeclared s && !groupFormed s)
      cases anyLive s <;> cases sealedDeclared s <;> cases groupFormed s <;> rfl
    rw [hlive, hsealed, hformed, hfree, show (!s.fuses.debugDisabled && tokenOk s (hostGet s addr.toNat 468)) = ok from rfl] at heq
    obtain ⟨hsec, hfuses, hgals, hhbm, hmem⟩ := newChallenge_frame s
    generalize BitVec.ofNat 256 (leNat (freshNonce s).1) = c at hn hsec ⊢
    clear_value ok free
    cases hok : ok
    · refine ⟨badUnlock (newChallenge s), next_command h _ _ s hd _ _ (heq.trans (by simp only [hok, Bool.false_eq_true, if_false])), ?_⟩
      obtain ⟨hsec', hfuses', hgals', hhbm', hmem'⟩ := badUnlock_frame (newChallenge s)
      rw [hsec', hsec]
      exact ⟨rfl, (Bool.or_false _).symm, (Bool.or_false _).symm, rfl, hfuses'.trans hfuses, hgals'.trans hgals, hhbm'.trans hhbm,
        hmem'.trans hmem⟩
    · cases hf : free
      · refine ⟨newChallenge s, next_command h _ _ s hd _ _ (heq.trans (by simp only [hok, hf, Bool.not_false, Bool.false_eq_true, if_true, if_false])), ?_⟩
        rw [hsec]
        exact ⟨rfl, (Bool.or_false _).symm, (Bool.or_false _).symm, rfl, hfuses, hgals, hhbm, hmem⟩
      · refine ⟨debugEntered (newChallenge s), next_command h _ _ s hd _ _ (heq.trans (by simp only [hok, hf, Bool.not_true, Bool.false_eq_true, if_true, if_false])), ?_⟩
        obtain ⟨hsec', hfuses', hgals', hhbm', hmem'⟩ := debugEntered_parts (newChallenge s)
        rw [hsec', hsec]
        exact ⟨rfl, (Bool.or_true _).symm, (Bool.or_true _).symm, rfl, hfuses'.trans hfuses, hgals'.trans hgals, hhbm'.trans hhbm,
          hmem'.trans hmem⟩
  · refine ⟨debugLeft s, next_command h _ _ s hd _ _ ?_, ?_⟩
    · rw [doDebugLeave, hostReady, hhost, hlive, hdebug, if_neg (by decide), if_neg (by decide), debugLeft]
    · obtain ⟨hsec, hgals, hfuses, hhbm, hmem⟩ := debugLeft_parts s
      refine ⟨hsec, fun g hg => ?_, hfuses, hhbm, hmem⟩
      have hgal : galOf (debugLeft s) g = zeroGallery (galOf s g) := by
        rw [galOf, hgals, vget_map _ _ _ _ hg]
        rfl
      rw [hgal]
      exact ⟨rfl, rfl, rfl, rfl, rfl, rfl⟩
  · refine next_command h _ _ s hd _ _ ?_
    rw [doDebugDisable, hostReady, hhost, hdebug, if_neg (by decide)]
  · refine next_command h _ _ s hd _ _ ?_
    have hno' : (!hostReady s || s.sec.debug) = true := by
      rw [hostReady]
      rcases hno with h | h <;> simp [h]
    rw [doDebugDisable, if_pos hno']

/-! ### RISK_EVALUATION while PERST# is asserted -/

/-- A module in IDLE whose PERST# is asserted. -/
def heldInReset : State := { State.reset with power := { State.reset.power with state := .idle, perst := true } }

theorem docentUp_heldInReset : docentUp heldInReset = true := rfl

/-- No period of the risk estimate ends while the hub does not run. -/
theorem riskEvaluation_heldInReset (margin : Int) : exec (.riskEvaluation margin) heldInReset = .next heldInReset := rfl

/-- Refutes O50: its last clause asks only for IDLE or ACTIVE, and in a state in which PERST# is asserted as well (`heldInReset`) the
hub does not run, so that RISK_EVALUATION counts no period. -/
theorem not_restoresAndFencesRun : ¬ Obligations.RestoresAndFencesRun := by
  unfold Obligations.RestoresAndFencesRun
  intro hall
  obtain ⟨-, -, -, hrisk⟩ := hall { src := .mbox, tag := 0, irq := false, fence := false } heldInReset docentUp_heldInReset
  obtain ⟨u, hu, -, -, hperiods, -⟩ := hrisk 0
  rw [riskEvaluation_heldInReset] at hu
  obtain rfl := Host.Outcome.next.inj hu
  exact absurd hperiods (by decide)

end Sys2Proof.Machine
end

section
/-!
PROOF. Attestation (19 R410 to R413, R423) and the endpoint's messages (16 R359).
-/

namespace Sys2Proof.Machine

/-! ### Replies that are signed -/

/-- The state without what a signed reply changes: the DRBG's and, of the security part, all but the sessions. -/
def besideReply (s : State) : State :=
  { s with freeCount := 0, drbg := Drbg.reset, sec := { State.reset.sec with sessions := s.sec.sessions } }

theorem besideReply_of_besideDrbg {s t : State} (h : besideDrbg t = besideDrbg s) : besideReply t = besideReply s :=
  (congrArg (fun x => { x with sec := { State.reset.sec with sessions := x.sec.sessions } }) h :)

theorem besideReply_freshNonce (s : State) : besideReply (freshNonce s).2 = besideReply s := by
  rw [freshNonce]
  exact besideReply_of_besideDrbg (besideDrbg_rawBits 2 s)

theorem besideReply_freeBits (w : Nat) (s : State) : besideReply (freeBits w s).2 = besideReply s := rfl

theorem besideReply_setReply (b : List Byte) (s : State) : besideReply (setReply b s) = besideReply s := rfl

theorem besideReply_drbgScalar (s : State) : besideReply (drbgScalar s).2 = besideReply s := by
  rw [drbgScalar]
  exact besideReply_of_besideDrbg (besideDrbg_drbgRequest 66 s)

theorem besideReply_identitySign (e : Nat) (s : State) : besideReply (identitySign e s).2 = besideReply s := by
  have h := besideReply_drbgScalar s
  unfold identitySign
  generalize drbgScalar s = k at h ⊢
  dsimp only
  split
  · exact h
  · exact h

theorem besideReply_signedReply (b : List Byte) (s : State) : besideReply (signedReply b s) = besideReply s := by
  have h := besideReply_freshNonce s
  unfold signedReply
  generalize freshNonce s = n at h ⊢
  dsimp only
  rw [besideReply_setReply, besideReply_identitySign, besideReply_freeBits, h]

section
variable {s t : State} (h : besideReply t = besideReply s)
include h

theorem sessionOf_of_besideReply (k : Nat) : sessionOf t k = sessionOf s k := by
  rw [sessionOf, show t.sec.sessions = s.sec.sessions from (congrArg (fun x => x.sec.sessions) h :), sessionOf]

theorem gals_of_besideReply : t.gals = s.gals := (congrArg State.gals h :)
theorem fuses_of_besideReply : t.fuses = s.fuses := (congrArg State.fuses h :)

end

/-! ### Sessions -/

theorem sessionOf_modSession_same (s : State) (i : Nat) (f : Session → Session) (h : i < 4) :
    sessionOf (modSession i f s) i = f (sessionOf s i) := by
  simp [sessionOf, modSession, vget_vmod_same _ _ _ _ h]

theorem sessionOf_modSession_other (s : State) (i k : Nat) (f : Session → Session) (h : k ≠ i) :
    sessionOf (modSession i f s) k = sessionOf s k := by
  simp [sessionOf, modSession, vget_vmod_other _ _ _ _ _ h]

/-- A key exchange takes the first free session, and signs its reply. -/
theorem keyExchange_eq (s : State) (bs : List Byte) (k : Nat) (hd : docentUp s = true) (hk : k < 4)
    (hfree : (sessionOf s k).inUse = false) (hfirst : ∀ j < k, (sessionOf s j).inUse = true) :
    doSpdmRequest .keyExchange bs s =
      signedReply [] (sessionKeys k (fun _ => { noSession with inUse := true }) (drbgRequest 66 s).2) := by
  have hfind : (List.range 4).find? (fun i => !(sessionOf s i).inUse) = some k :=
    find?_range_first _ 4 k hk (by rw [hfree]; rfl) (fun j hj => by rw [hfirst j hj]; rfl)
  rw [doSpdmRequest, hd, if_neg (by decide), hfind]

theorem sessionKeys_parts (s : State) (k : Nat) (hk : k < 4) (f : Session → Session) (hf : ∀ x, (f x).inUse = true) :
    (sessionOf (sessionKeys k f s) k).inUse = true ∧ (∀ j, j ≠ k → sessionOf (sessionKeys k f s) j = sessionOf s j) ∧
      (sessionKeys k f s).gals = s.gals ∧ (sessionKeys k f s).fuses = s.fuses := by
  refine ⟨?_, fun j hj => ?_, rfl, rfl⟩
  · rw [sessionKeys, sessionOf_modSession_same _ _ _ hk]
    exact hf _
  · rw [sessionKeys, sessionOf_modSession_other _ _ _ _ hj]
    rfl

/-! ### Measurements -/

/-- Block 6 is raw data of 72 bytes. -/
theorem measurementBlock_six (s : State) : measurementBlock s 6 = [6, 1] ++ leBytes 2 75 ++ [0x83] ++ leBytes 2 72 ++
    (leBytes 64 s.sec.tourLog.toNat ++ leBytes 8 s.sec.tourCount) := by
  have hlen : (measurement s 6).length = 72 := by
    rw [measurement, List.length_append, leBytes_length, leBytes_length]
  have hne : (measurement s 6).isEmpty = false := by
    rw [List.isEmpty_eq_false_iff]
    intro h
    rw [h] at hlen
    exact absurd hlen (by decide)
  unfold measurementBlock
  dsimp only
  rw [hne, hlen]
  rfl

/-- Settles O55: each request answers its fixed reply, and a key exchange takes the first free session. -/
theorem attestationAnswers : Obligations.AttestationAnswers := by
  unfold Obligations.AttestationAnswers
  intro s
  refine ⟨fun i bs hd hi hi' => ⟨?_, measurementBlock_six s⟩, fun bs hd => ?_, fun k bs hd hk hfree hfirst => ?_, fun k => rfl,
    fun via e hd hvia he he' => ?_, fun a hd => ?_⟩
  · refine congrArg Host.Outcome.next ?_
    rw [doSpdmRequest, hd, if_neg (by decide)]
    dsimp only
    rw [if_neg hi, if_neg hi']
    rfl
  · intro answered
    refine ⟨?_, ?_, ?_, ?_, ?_⟩ <;>
    · refine congrArg Host.Outcome.next ?_
      rw [doSpdmRequest, hd, if_neg (by decide)]
      rfl
  · have hreq := besideReply_of_besideDrbg (besideDrbg_drbgRequest 66 s)
    have heq := keyExchange_eq s bs k hd hk hfree hfirst
    generalize (drbgRequest 66 s).2 = x at hreq heq
    obtain ⟨huse, hother, hgals, hfuses⟩ := sessionKeys_parts x k hk (fun _ => { noSession with inUse := true }) (fun _ => rfl)
    generalize sessionKeys k (fun _ => { noSession with inUse := true }) x = y at huse hother hgals hfuses heq
    have hsigned := besideReply_signedReply [] y
    generalize signedReply [] y = u at hsigned heq
    refine ⟨u, congrArg Host.Outcome.next heq, ?_, fun j hj => ?_, ?_, ?_⟩
    · rw [sessionOf_of_besideReply hsigned]
      exact huse
    · rw [sessionOf_of_besideReply hsigned, hother j hj, sessionOf_of_besideReply hreq]
    · rw [gals_of_besideReply hsigned, hgals, gals_of_besideReply hreq]
    · rw [fuses_of_besideReply hsigned, hfuses, fuses_of_besideReply hreq]
  · have hheard (m : MctpMsg) (hm : ∀ a, m ≠ .arpAssign a) : mctpHeard via m s = true := by
      rcases hvia with ⟨rfl, hup⟩ | rfl
      · cases m with
        | arpAssign a => exact absurd rfl (hm a)
        | _ => exact hup
      · cases m with
        | arpAssign a => exact absurd rfl (hm a)
        | _ => exact beq_self_eq_true s.sec.smbusAddr
    constructor
    · refine congrArg Host.Outcome.next ?_
      rw [doMctpMessage, hd, hheard _ (fun a => by simp), if_neg (by decide)]
      dsimp only
      rw [if_neg (not_or.mpr ⟨he, he'⟩)]
    · refine congrArg Host.Outcome.next ?_
      rw [doMctpMessage, hd, hheard _ (fun a => by simp), if_neg (by decide)]
  · refine congrArg Host.Outcome.next ?_
    rw [doMctpMessage, hd, show mctpHeard (.smbus 0x61 true) (.arpAssign a) s = true from rfl, if_neg (by decide)]

end Sys2Proof.Machine
end

section
/-!
PROOF. How tours are found after one of them changed; and the input, the link and the emergencies (20 R425, R436 to R439).
-/

namespace Sys2Proof.Machine

/-! ### A tour that changes -/

/-- A change that leaves TOUR_ID alone. -/
def KeepsId (f : Tour → Tour) : Prop := ∀ t, (f t).tourId = t.tourId

theorem tourOf_modTour_same {f : Tour → Tour} (hf : KeepsId f) (s : State) (id : Quad) :
    tourOf (modTour s id f) id = (tourOf s id).map f := by
  rw [tourOf, modTour, List.find?_map, tourOf]
  have hp : (fun t : Tour => t.tourId == id) ∘ (fun t => if t.tourId == id then f t else t) = fun t => t.tourId == id := by
    funext t
    show ((if t.tourId == id then f t else t).tourId == id) = (t.tourId == id)
    split
    · rw [hf]
    · rfl
  rw [hp]
  cases h : s.tours.find? (fun t => t.tourId == id) with
  | none => rfl
  | some t => rw [Option.map_some, Option.map_some, if_pos (List.find?_some h)]

theorem tourOf_modTour_other {f : Tour → Tour} (hf : KeepsId f) (s : State) (id k : Quad) (h : k ≠ id) :
    tourOf (modTour s id f) k = tourOf s k := by
  rw [tourOf, modTour, List.find?_map, tourOf]
  have hp : (fun t : Tour => t.tourId == k) ∘ (fun t => if t.tourId == id then f t else t) = fun t => t.tourId == k := by
    funext t
    show ((if t.tourId == id then f t else t).tourId == k) = (t.tourId == k)
    split
    · rw [hf]
    · rfl
  rw [hp]
  cases hk : s.tours.find? (fun t => t.tourId == k) with
  | none => rfl
  | some t =>
    have ht : t.tourId = k := tourId_of_tourOf hk
    rw [Option.map_some, if_neg (by rw [ht, beq_iff_eq]; exact h)]

theorem mem_of_tourOf {s : State} {id : Quad} {t : Tour} (h : tourOf s id = some t) : t ∈ s.tours := List.mem_of_find?_eq_some h

theorem tourOf_congr {s t : State} (h : t.tours = s.tours) (id : Quad) : tourOf t id = tourOf s id := by rw [tourOf, h, tourOf]

/-! ### An ending -/

/-- A tour that ends with a status, unless it has ended before. -/
def endedTour (st : BitVec 16) (loc : FaultAt) (tick stop : Nat) (t : Tour) : Tour :=
  let first := match t.status with
    | .none => true
    | some _ => decide (tick < t.endTick) || (tick == t.endTick && decide (loc.gallery < t.faultAt.gallery))
  if first then { t with status := some st, faultAt := loc, endTick := tick, stopAt := stop } else t

theorem endEarly_eq (id : Quad) (st : BitVec 16) (loc : FaultAt) (tick stop : Nat) (s : State) :
    endEarly id st loc tick stop s = modTour s id (endedTour st loc tick stop) := rfl

theorem keepsId_endedTour (st : BitVec 16) (loc : FaultAt) (tick stop : Nat) : KeepsId (endedTour st loc tick stop) := by
  intro t
  unfold endedTour
  split
  · rfl
  · dsimp only
    split <;> rfl

/-- A tour without a status takes this one. -/
theorem endedTour_first {t : Tour} (h : t.status = .none) (st : BitVec 16) (loc : FaultAt) (tick stop : Nat) :
    endedTour st loc tick stop t = { t with status := some st, faultAt := loc, endTick := tick, stopAt := stop } := by
  rw [endedTour, h]
  rfl

/-- The same ending a second time changes nothing. -/
theorem endedTour_again (st : BitVec 16) (loc : FaultAt) (tick stop : Nat) (t : Tour) :
    endedTour st loc tick stop { t with status := some st, faultAt := loc, endTick := tick, stopAt := stop } =
      { t with status := some st, faultAt := loc, endTick := tick, stopAt := stop } := by
  unfold endedTour
  dsimp only
  exact if_neg (by simp)

/-- Many tours that end in the same way. -/
def endAll (st : BitVec 16) (loc : FaultAt) (tick stop : Nat) (l : List Tour) (s : State) : State :=
  l.foldl (fun x t => endEarly t.tourId st loc tick stop x) s

theorem endAll_frame (st : BitVec 16) (loc : FaultAt) (tick stop : Nat) (l : List Tour) (s : State) :
    ∃ ts, endAll st loc tick stop l s = { s with tours := ts } := by
  induction l generalizing s with
  | nil => exact ⟨s.tours, rfl⟩
  | cons t l ih =>
    obtain ⟨ts, h⟩ := ih (endEarly t.tourId st loc tick stop s)
    exact ⟨ts, h⟩

theorem tourOf_endAll_ended (st : BitVec 16) (loc : FaultAt) (tick stop : Nat) (l : List Tour) (s : State) (id : Quad) (t : Tour)
    (h : tourOf s id = some { t with status := some st, faultAt := loc, endTick := tick, stopAt := stop }) :
    tourOf (endAll st loc tick stop l s) id = some { t with status := some st, faultAt := loc, endTick := tick, stopAt := stop } := by
  induction l generalizing s with
  | nil => exact h
  | cons x l ih =>
    refine ih (endEarly x.tourId st loc tick stop s) ?_
    rw [endEarly_eq]
    by_cases hx : id = x.tourId
    · subst hx
      rw [tourOf_modTour_same (keepsId_endedTour _ _ _ _), h, Option.map_some, endedTour_again]
    · rw [tourOf_modTour_other (keepsId_endedTour _ _ _ _) _ _ _ hx, h]

/-- A tour without a status that is among those that end has ended. -/
theorem tourOf_endAll (st : BitVec 16) (loc : FaultAt) (tick stop : Nat) (l : List Tour) (s : State) (id : Quad) (t : Tour)
    (h : tourOf s id = some t) (hnone : t.status = .none) (hmem : ∃ x ∈ l, x.tourId = id) :
    tourOf (endAll st loc tick stop l s) id = some { t with status := some st, faultAt := loc, endTick := tick, stopAt := stop } := by
  induction l generalizing s with
  | nil =>
    obtain ⟨x, hx, -⟩ := hmem
    exact absurd hx (by simp)
  | cons x l ih =>
    by_cases hx : id = x.tourId
    · refine tourOf_endAll_ended st loc tick stop l (endEarly x.tourId st loc tick stop s) id t ?_
      subst hx
      rw [endEarly_eq, tourOf_modTour_same (keepsId_endedTour _ _ _ _), h, Option.map_some, endedTour_first hnone]
    · refine ih (endEarly x.tourId st loc tick stop s) ?_ ?_
      · rw [endEarly_eq, tourOf_modTour_other (keepsId_endedTour _ _ _ _) _ _ _ hx, h]
      · obtain ⟨y, hy, hyid⟩ := hmem
        rcases List.mem_cons.mp hy with rfl | hy
        · exact absurd hyid.symm hx
        · exact ⟨y, hy, hyid⟩

/-! ### Emergencies -/

/-- The tours that an emergency ends. -/
def emergencyEnds (st : BitVec 16) (s : State) : State := endAll st (causeOnly 0) (s.time.now + 1) (s.time.now + 1) (runningTours s) s

theorem emergency_eq (st : BitVec 16) (s : State) :
    emergency st s = modPower (emergencyEnds st s) (fun p => { p with emergency := true, emergencyCode := st }) := rfl

/-- What an emergency leaves, whatever flag it sets besides. -/
theorem emergency_parts (st : BitVec 16) (f : Power → Power) (s : State) :
    let u := raiseEvent (modPower (emergency st s) f)
    u.power = f { s.power with emergency := true, emergencyCode := st } ∧
      (∀ id t, tourOf s id = some t → t.state = .running → t.status = .none → tourOver s t = false →
        ∃ x, tourOf u id = some x ∧ x.status = some st ∧ x.stopAt = s.time.now + 1) ∧ u.gals = s.gals ∧ u.hbm = s.hbm := by
  have hends (id : Quad) (t : Tour) (h : tourOf s id = some t) (hrun : t.state = .running) (hnone : t.status = .none)
      (hover : tourOver s t = false) : ∃ x, tourOf (emergencyEnds st s) id = some x ∧ x.status = some st ∧ x.stopAt = s.time.now + 1 := by
    have hmem : t ∈ runningTours s := by
      rw [runningTours, List.mem_filter]
      exact ⟨mem_of_tourOf h, by rw [hrun, hover]; rfl⟩
    exact ⟨_, tourOf_endAll _ _ _ _ _ s id t h hnone ⟨t, hmem, tourId_of_tourOf h⟩, rfl, rfl⟩
  obtain ⟨ts, hts⟩ := endAll_frame st (causeOnly 0) (s.time.now + 1) (s.time.now + 1) (runningTours s) s
  rw [emergency_eq]
  rw [show emergencyEnds st s = { s with tours := ts } from hts] at hends ⊢
  obtain ⟨r, p, hraise⟩ := raiseEvent_frame (modPower (modPower { s with tours := ts } (fun p => { p with
    emergency := true, emergencyCode := st })) f)
  rw [hraise]
  exact ⟨rfl, hends, rfl, rfl⟩

/-! ### The input -/

/-- What rails that come up leave, after the volatile state was lost. -/
def risen (n : Nat) (s : State) : State :=
  modPower (freeBits 16 s).2 (fun p => { p with vin := (freeBits 16 s).1, attempts := n })

theorem doInputRise_up (bad : List RailNo) (s : State) (hoff : s.power.state = .off) (hsense : s.power.senseClosed = true)
    (hbad : bad.length < 3) : doInputRise bad s = risen bad.length (loseVolatile .boot s) := by
  rw [doInputRise, hoff, hsense, if_neg (by decide), if_neg (Nat.not_le.mpr hbad), risen]

theorem resetLeaves_risen (n : Nat) (s t : State) (m : Medium) (h : Claims.resetLeaves s t m) : Claims.resetLeaves s (risen n t) m := h

theorem resetLeaves_modPower (f : Power → Power) (s t : State) (m : Medium) (h : Claims.resetLeaves s t m) :
    Claims.resetLeaves s (modPower t f) m := h

/-- PWR_SENSE as the sense that opens leaves it. -/
def sensed (closed : Bool) (s : State) : State := modPower s (fun p => { p with senseClosed := closed })

theorem doSense_open (s : State) : doSense false s = sensed false (doInputLoss s) := rfl

/-! ### The link -/

/-- What the integrity of the link fails with, as it retrains. -/
def linkFails (s : State) : BitVec 8 := (freeBits 8 s).1

/-- The failures that count: none while no IDE stream runs. -/
def ideFailures (s : State) : Nat := if s.host.link.ideOn then (linkFails s).toNat else 0

/-- The link after it retrained. -/
def linkRetrained (s : State) : State :=
  modHost (trainLink (modTaps (freeBits 8 s).2 (fun t => { t with tr := t.tr + 1 }))) (fun h => { h with link := { h.link with
    retrains := bump8 h.link.retrains, ideFails := BitVec.ofNat 8 (min 255 (h.link.ideFails.toNat + ideFailures s)),
    ideOn := h.link.ideOn && ideFailures s == 0 } })

theorem linkRetrained_link (s : State) :
    (linkRetrained s).host.link.up = true ∧ (linkRetrained s).host.link.retrains = bump8 s.host.link.retrains ∧
      (linkRetrained s).host.link.ideFails = BitVec.ofNat 8 (min 255 (s.host.link.ideFails.toNat + ideFailures s)) ∧
      (linkRetrained s).host.link.ideOn = (s.host.link.ideOn && ideFailures s == 0) ∧
      linkRetrained s = { s with
        health := { s.health with taps := { s.health.taps with tr := s.health.taps.tr + 1 } },
        host := { s.host with link := (linkRetrained s).host.link }, freeCount := (linkRetrained s).freeCount } :=
  ⟨rfl, rfl, rfl, rfl, rfl⟩

theorem linkRetrained_parts (s : State) :
    let u := linkRetrained s
    let n := (linkFails s).toNat
    u.health = { s.health with taps := { s.health.taps with tr := s.health.taps.tr + 1 } } ∧
      u.host.link.up = true ∧ u.host.link.retrains = bump8 s.host.link.retrains ∧
      (s.host.link.ideOn = true → 0 < n → u.host.link.ideOn = false ∧
        u.host.link.ideFails = BitVec.ofNat 8 (min 255 (s.host.link.ideFails.toNat + n))) ∧
      (s.host.link.ideOn = false ∨ n = 0 → u.host.link.ideOn = s.host.link.ideOn ∧ u.host.link.ideFails = s.host.link.ideFails) ∧
      u = { s with health := u.health, host := { s.host with link := u.host.link }, freeCount := u.freeCount } := by
  intro u n
  obtain ⟨hup, hretrains, hfails, hide, heq⟩ := linkRetrained_link s
  refine ⟨rfl, hup, hretrains, fun hon hn => ?_, fun hno => ?_, heq⟩
  · have hcount : ideFailures s = n := if_pos hon
    rw [hide, hfails, hcount, hon]
    exact ⟨by rw [Bool.true_and, beq_eq_false_iff_ne]; omega, rfl⟩
  · have hcount : ideFailures s = 0 := by
      rw [ideFailures]
      rcases hno with h | h
      · rw [h]; rfl
      · rw [show (linkFails s).toNat = 0 from h, ite_self]
    have hlt := s.host.link.ideFails.isLt
    rw [hide, hfails, hcount, Nat.add_zero, Nat.min_eq_right (by omega), BitVec.ofNat_toNat, BitVec.setWidth_eq]
    exact ⟨Bool.and_true _, rfl⟩

/-- Settles O56: the losses and the rises go through the reset of volatile state, an emergency ends the running tours. -/
theorem powerAndEmergencies : Obligations.PowerAndEmergencies := by
  unfold Obligations.PowerAndEmergencies
  refine ⟨fun s => ⟨fun bad hoff hsense => ⟨fun hbad => ?_, fun hbad => ?_⟩, rfl, ?_, fun watts hr => ?_, fun hr hup => ?_⟩,
    fun s hr => ⟨?_, ?_, ?_, fun rail => ?_, ?_⟩⟩
  · obtain ⟨hleaves, hstate, hmedium, -⟩ := loseVolatile_parts .boot s
    have hcause : (loseVolatile .boot s).power.resetCause = 0 := rfl
    have heq := doInputRise_up bad s hoff hsense hbad
    generalize loseVolatile .boot s = t at hleaves hstate hmedium hcause heq
    exact ⟨risen bad.length t, congrArg Host.Outcome.next heq, resetLeaves_risen _ _ _ _ hleaves, hmedium, hstate, rfl, hcause⟩
  · refine congrArg Host.Outcome.next ?_
    rw [doInputRise, hoff, hsense, if_neg (by decide), if_pos hbad]
    rfl
  · refine ⟨sensed false (doInputLoss s), congrArg Host.Outcome.next (doSense_open s), rfl, fun hne => ?_, fun hlatched => ?_⟩
    · obtain ⟨hleaves, hstate, hmedium, -⟩ := loseVolatile_parts .off s
      rw [doInputLoss, if_neg hne]
      generalize loseVolatile .off s = t at hleaves hstate hmedium
      exact ⟨hstate, resetLeaves_modPower _ _ _ _ hleaves, hmedium⟩
    · obtain ⟨-, hstate, -⟩ := loseVolatile_parts .off (freeBits 1 s).2
      rw [doInputLoss, if_pos hlatched]
      dsimp only
      generalize loseVolatile .off (freeBits 1 s).2 = t at hstate
      split
      · exact Or.inl hstate
      · exact Or.inr hlatched
  · refine ⟨_, rfl, ?_⟩
    rw [doProfileExcess, hr, if_neg (by decide)]
    dsimp only
    split
    case isTrue hmore => exact ⟨rfl, rfl, fun _ => ⟨rfl, rfl⟩, fun hle => absurd hmore (Nat.not_lt.mpr hle)⟩
    case isFalse hmore => exact ⟨rfl, rfl, fun h => absurd h hmore, fun _ => ⟨rfl, rfl⟩⟩
  · refine ⟨linkRetrained s, (linkFails s).toNat, congrArg Host.Outcome.next (if_neg (by rw [hr, hup]; decide)), (linkFails s).isLt, ?_⟩
    exact linkRetrained_parts s
  · refine ⟨_, congrArg Host.Outcome.next (if_neg (by rw [hr]; decide)), ?_⟩
    exact emergency_parts _ _ s
  · refine ⟨_, congrArg Host.Outcome.next (if_neg (by rw [hr]; decide)), ?_⟩
    exact emergency_parts _ _ s
  · refine congrArg Host.Outcome.next ?_
    rw [doEmergencyClear, if_pos hr]
    rfl
  · obtain ⟨r, p, hraise⟩ := raiseEvent_frame (modPower (modTaps s (fun t => { t with dr := t.dr + 1 })) (fun p => { p with
      droop := true, droops := bump8 p.droops }))
    refine ⟨_, congrArg Host.Outcome.next ((if_neg (by rw [hr]; decide)).trans hraise), rfl, rfl, rfl, rfl, rfl⟩
  · obtain ⟨r, p, hraise⟩ := raiseEvent_frame (modPower s (fun p => { p with thermWarn := true, thermWarns := bump8 p.thermWarns }))
    refine ⟨_, congrArg Host.Outcome.next ((if_neg (by rw [hr]; decide)).trans hraise), rfl, rfl, rfl, rfl⟩

end Sys2Proof.Machine
end

section
/-!
PROOF. A read of module time that meets a latch at its own offset (00 R11).
-/

namespace Sys2Proof.Machine

/-- The module after reset, with a latched half that stands at the low half of module time. -/
def latchedAtTime : State := { State.reset with host := { State.reset.host with latches := [(0x100, 1)] } }

theorem hubRuns_latchedAtTime : hubRuns latchedAtTime = true := by decide

/-- The read of module time's low half returns the latch, not the time, which is 0. -/
theorem readWord_latchedAtTime : (readWord 0x100 latchedAtTime).1 = 1 := rfl

theorem registerRead_latchedAtTime : exec (.registerReadClear 0x100 4) latchedAtTime =
    .next (returned (leBytes 4 (readWord 0x100 latchedAtTime).1) false (readWord 0x100 latchedAtTime).2) := rfl

/-- Refutes O59: its first clause on a 32-bit read of module time is not kept to a state without latches, and in `latchedAtTime` a latch
stands at the offset 0x100 itself, so that the read returns the latch 1 and not the time 0. -/
theorem not_registersAct : ¬ Obligations.RegistersAct := by
  unfold Obligations.RegistersAct
  rintro ⟨-, hreads⟩
  obtain ⟨⟨u, hu, hdata, -⟩, -⟩ := hreads latchedAtTime hubRuns_latchedAtTime
  rw [registerRead_latchedAtTime] at hu
  obtain rfl := Host.Outcome.next.inj hu
  rw [show (returned (leBytes 4 (readWord 0x100 latchedAtTime).1) false (readWord 0x100 latchedAtTime).2).host.readData =
    leBytes 4 (readWord 0x100 latchedAtTime).1 from rfl, readWord_latchedAtTime] at hdata
  exact absurd hdata (by decide)

end Sys2Proof.Machine
end

section
/-!
PROOF. The DMA channels (13): their registers, the fetch of a descriptor and its completion.
-/

namespace Sys2Proof.Machine

/-! ### Registers -/

theorem doDmaCtrl_run (ch v : Nat) (s : State) (hr : hubRuns s = true) (hch : ch < 56) : doDmaCtrl ch v s =
    if bitAt v 2 then abortChan ch (modChan s ch (writeCtrl v)) else modChan s ch (writeCtrl v) := by
  rw [doDmaCtrl, hr, driverChan, decide_eq_true hch]
  rfl

/-- A write of CTRL takes VECTOR and IRQ_EN, and touches neither the descriptor in progress nor the counters. -/
theorem writeCtrl_fields (v : Nat) (c : Channel) : (writeCtrl v c).irqEn = bitAt v 1 ∧
    (writeCtrl v c).vector = BitVec.ofNat 6 (fieldAt v 24 6) ∧ (writeCtrl v c).cur = c.cur ∧ (writeCtrl v c).enable = bitAt v 0 ∧
    (writeCtrl v c).completions = c.completions := by
  unfold writeCtrl enableChan
  cases hen : c.enable <;> cases hb : bitAt v 0 <;> simp [hen]
  split <;> simp

theorem writeCtrl_enabled (v : Nat) (c : Channel) (h : c.enable = true) : (writeCtrl v c).cqLog = c.cqLog ∧
    (writeCtrl v c).ringLog = c.ringLog ∧ (writeCtrl v c).head = c.head ∧ (writeCtrl v c).cqTail = c.cqTail := by
  unfold writeCtrl enableChan
  cases hb : bitAt v 0 <;> simp [h]

/-- RING_LOG or CQ_LOG changes. -/
def logsChange (v : Nat) (c : Channel) : Bool :=
  BitVec.ofNat 5 (fieldAt v 16 5) != c.cqLog || BitVec.ofNat 5 (fieldAt v 8 5) != c.ringLog

/-- While ENABLE is 0 the logs are taken, and setting it restarts the indices after a change of the ring. -/
theorem writeCtrl_disabled (v : Nat) (c : Channel) (h : c.enable = false) :
    (writeCtrl v c).cqLog = BitVec.ofNat 5 (fieldAt v 16 5) ∧ (writeCtrl v c).ringLog = BitVec.ofNat 5 (fieldAt v 8 5) ∧
      (bitAt v 0 = true → (c.ringChange || logsChange v c) = true → (writeCtrl v c).head = 0 ∧ (writeCtrl v c).tail = 0 ∧
        (writeCtrl v c).cqTail = 0 ∧ (writeCtrl v c).phase = true) ∧
      (bitAt v 0 = true → (c.ringChange || logsChange v c) = false → (writeCtrl v c).head = c.head ∧
        (writeCtrl v c).tail = c.tail ∧ (writeCtrl v c).cqTail = c.cqTail ∧ (writeCtrl v c).phase = c.phase) := by
  have hassoc : (c.ringChange || BitVec.ofNat 5 (fieldAt v 16 5) != c.cqLog || BitVec.ofNat 5 (fieldAt v 8 5) != c.ringLog) =
      (c.ringChange || logsChange v c) := Bool.or_assoc ..
  have heq : writeCtrl v c = if bitAt v 0 then enableChan { c with
        vector := BitVec.ofNat 6 (fieldAt v 24 6), irqEn := bitAt v 1, cqLog := BitVec.ofNat 5 (fieldAt v 16 5),
        ringLog := BitVec.ofNat 5 (fieldAt v 8 5), ringChange := c.ringChange || logsChange v c }
      else { c with
        vector := BitVec.ofNat 6 (fieldAt v 24 6), irqEn := bitAt v 1, cqLog := BitVec.ofNat 5 (fieldAt v 16 5),
        ringLog := BitVec.ofNat 5 (fieldAt v 8 5), ringChange := c.ringChange || logsChange v c, enable := false } := by
    rw [← hassoc]
    unfold writeCtrl
    dsimp only
    rw [h]
    rfl
  rw [heq]
  cases bitAt v 0
  · exact ⟨rfl, rfl, fun hb => absurd hb (by decide), fun hb => absurd hb (by decide)⟩
  · rw [if_pos rfl, enableChan]
    dsimp only
    rw [h, if_neg (by decide)]
    cases c.ringChange || logsChange v c
    · exact ⟨rfl, rfl, fun _ hb => absurd hb (by decide), fun _ _ => ⟨rfl, rfl, rfl, rfl⟩⟩
    · exact ⟨rfl, rfl, fun _ _ => ⟨rfl, rfl, rfl, rfl⟩, fun _ hb => absurd hb (by decide)⟩

/-- Settles O36. -/
theorem dmaRegistersAct : Obligations.DmaRegistersAct := by
  unfold Obligations.DmaRegistersAct
  intro ch v s hr hch c logs
  have hlt : ch.toNat < 64 := ch.isLt
  have hctrl := doDmaCtrl_run ch.toNat v.toNat s hr hch
  refine ⟨fun ws => ?_, fun hb => ?_, fun hb => ?_, ?_, fun hb => ?_, fun line n hne hline => ?_, fun line n hlo hhi => ?_⟩
  · refine congrArg Host.Outcome.next ?_
    rw [doDmaDoorbell, hubRuns_hostPutAll, hr, driverChan, decide_eq_true hch]
    rfl
  · rw [bitAt_toNat, hb, if_neg (by decide)] at hctrl
    refine ⟨_, congrArg Host.Outcome.next hctrl, fun k hk => chanOf_modChan_other _ _ _ _ hk, rfl, ?_⟩
    rw [chanOf_modChan_same _ _ _ hlt]
    obtain ⟨hirq, hvec, hcur, hen, -⟩ := writeCtrl_fields v.toNat c
    obtain hon | hoff := Bool.eq_false_or_eq_true c.enable
    · exact ⟨hen.trans (bitAt_toNat ..), hirq.trans (bitAt_toNat ..), hvec, hcur, fun _ => writeCtrl_enabled _ _ hon,
        fun h => absurd (hon.symm.trans h) (by decide)⟩
    · have h := writeCtrl_disabled v.toNat c hoff
      rw [bitAt_toNat] at h
      exact ⟨hen.trans (bitAt_toNat ..), hirq.trans (bitAt_toNat ..), hvec, hcur, fun h => absurd (hoff.symm.trans h) (by decide),
        fun _ => h⟩
  · rw [bitAt_toNat, hb, if_pos rfl] at hctrl
    refine ⟨_, congrArg Host.Outcome.next hctrl, ?_, ?_, ?_, fun k hk => ?_, rfl⟩
    · rw [abortChan, chanOf_modChan_same _ _ _ hlt]
    · rw [abortChan, chanOf_modChan_same _ _ _ hlt, chanOf_modChan_same _ _ _ hlt]
      obtain ⟨-, -, hcur, -⟩ := writeCtrl_fields v.toNat c
      exact congrArg (Option.map (fun p : Progress => { p with aborted := true })) hcur
    · rw [abortChan, chanOf_modChan_same _ _ _ hlt, chanOf_modChan_same _ _ _ hlt]
      obtain ⟨-, -, -, -, hdone⟩ := writeCtrl_fields v.toNat c
      exact hdone
    · rw [abortChan, chanOf_modChan_other _ _ _ _ hk, chanOf_modChan_other _ _ _ _ hk]
  · refine congrArg Host.Outcome.next ?_
    rw [doCreditAdd, hr, driverChan, decide_eq_true hch]
    rfl
  · refine congrArg Host.Outcome.next ?_
    rw [doEngineResume, hr, bitAt_toNat, hb]
    rfl
  · refine congrArg Host.Outcome.next ?_
    have hok : lineOk s line.toNat = true := by rw [lineOk]; simp; omega
    have hnz : (line.toNat != 0) = true := by
      rw [bne_iff_ne]
      exact fun h => hne (BitVec.eq_of_toNat_eq h)
    rw [doDmaRequest, hr, hok, hnz, if_pos (by decide)]
    dsimp only
    rw [if_neg (by simp; omega)]
    rfl
  · have hok : lineOk s line.toNat = true := by rw [lineOk]; simp; omega
    have hnz : (line.toNat != 0) = true := by rw [bne_iff_ne]; omega
    refine ⟨modPort (raiseLine line.toNat n s) (line.toNat - 0x11) (fun p => { p with credits := p.credits + n }),
      congrArg Host.Outcome.next ?_, rfl, ?_, fun k hk => ?_, rfl, rfl, rfl⟩
    · rw [doDmaRequest, hr, hok, hnz, if_pos (by decide)]
      dsimp only
      rw [if_pos (by simp; omega)]
    · rw [portOf_modPort_same _ _ _ (by omega)]
      rfl
    · rw [portOf_modPort_other _ _ _ _ hk]
      rfl

end Sys2Proof.Machine
end

section
/-!
PROOF. The fetch of a descriptor (13 R271, R272, R275) and its completion (R279 to R282).
-/

namespace Sys2Proof.Machine

/-! ### Completion records -/

/-- A channel after a record. -/
def recordedChan (p : Progress) (st : BitVec 16) (c : Channel) : Channel :=
  { c with
    cqTail := BitVec.ofNat 16 ((c.cqTail.toNat + 1) % ringSize c.cqLog),
    phase := if (c.cqTail.toNat + 1) % ringSize c.cqLog = 0 then !c.phase else c.phase,
    head := BitVec.ofNat 16 ((p.index + 1) % ringSize c.ringLog), completions := bump8 c.completions,
    errors := if st = stOk then c.errors else bump8 c.errors, cur := .none }

theorem recordedChan_errors_ok (p : Progress) (c : Channel) : (recordedChan p stOk c).errors = c.errors := by
  rw [recordedChan, if_pos rfl]

theorem recordedChan_errors_failed (p : Progress) {st : BitVec 16} (c : Channel) (h : st ≠ stOk) :
    (recordedChan p st c).errors = bump8 c.errors := by
  rw [recordedChan, if_neg h]

/-- Where the next record of a channel stands. -/
def recordPlace (c : Channel) : Nat := c.cqAddr.toNat * 64 + 32 * c.cqTail.toNat

/-- The state with a record in its queue, before the vector is raised. -/
def recorded (ch : Nat) (p : Progress) (st : BitVec 16) (residue : Nat) (ready stop cat : Bool) (s : State) : State :=
  modChan (locPut s (chanOf s ch).cqLoc (recordPlace (chanOf s ch)) (recordBytes s.time.now ch (chanOf s ch) p st residue ready stop cat))
    ch (recordedChan p st)

theorem chanOf_locPut (s : State) (hbm : Bool) (a : Nat) (bs : List Byte) (k : Nat) : chanOf (locPut s hbm a bs) k = chanOf s k := by
  rw [chanOf, dma_of_beside (besideEntries_locPut s hbm a bs), chanOf]

/-- A change of a channel depends on that channel alone. -/
theorem modChan_congr (s : State) (n : Nat) (f g : Channel → Channel) (h : f (chanOf s n) = g (chanOf s n)) :
    modChan s n f = modChan s n g := by
  rw [modChan, modChan, vmod, vmod, show f (vget s.dma.chans n Channel.reset) = g (vget s.dma.chans n Channel.reset) from h]

theorem writeRecord_eq (ch : Nat) (p : Progress) (st : BitVec 16) (residue : Nat) (ready stop cat : Bool) (s : State) :
    writeRecord ch p st residue ready stop cat s =
      if (chanOf s ch).irqEn && (p.desc.irq || st != stOk) then
        raiseVec (recorded ch p st residue ready stop cat s) (chanOf s ch).vector
      else recorded ch p st residue ready stop cat s := by
  have h : recorded ch p st residue ready stop cat s = modChan (locPut s (chanOf s ch).cqLoc (recordPlace (chanOf s ch))
      (recordBytes s.time.now ch (chanOf s ch) p st residue ready stop cat)) ch (fun x => { x with
        cqTail := BitVec.ofNat 16 (((chanOf s ch).cqTail.toNat + 1) % ringSize (chanOf s ch).cqLog),
        phase := if ((chanOf s ch).cqTail.toNat + 1) % ringSize (chanOf s ch).cqLog = 0 then !x.phase else x.phase,
        head := BitVec.ofNat 16 ((p.index + 1) % ringSize x.ringLog), completions := bump8 x.completions,
        errors := if st = stOk then x.errors else bump8 x.errors, cur := .none }) := by
    refine modChan_congr _ _ _ _ ?_
    rw [chanOf_locPut]
    rfl
  rw [writeRecord, h]
  rfl

theorem writeRecord_frame (ch : Nat) (p : Progress) (st : BitVec 16) (residue : Nat) (ready stop cat : Bool) (s : State) :
    ∃ r q, writeRecord ch p st residue ready stop cat s =
      { recorded ch p st residue ready stop cat s with
        host := { (recorded ch p st residue ready stop cat s).host with raised := r, msixPending := q } } := by
  rw [writeRecord_eq]
  split
  · exact raiseVec_frame _ _
  · exact ⟨_, _, rfl⟩

/-- What a record changes of its channel, and of nothing else of the engine. -/
theorem chanOf_writeRecord (ch : Nat) (hch : ch < 64) (p : Progress) (st : BitVec 16) (residue : Nat) (ready stop cat : Bool) (s : State) :
    chanOf (writeRecord ch p st residue ready stop cat s) ch = recordedChan p st (chanOf s ch) ∧
      ∀ k, k ≠ ch → chanOf (writeRecord ch p st residue ready stop cat s) k = chanOf s k := by
  obtain ⟨r, q, h⟩ := writeRecord_frame ch p st residue ready stop cat s
  have hdma (k : Nat) : chanOf (writeRecord ch p st residue ready stop cat s) k = chanOf (recorded ch p st residue ready stop cat s) k := by
    rw [h]; rfl
  refine ⟨?_, fun k hk => ?_⟩
  · rw [hdma, recorded, chanOf_modChan_same _ _ _ hch, chanOf_locPut]
  · rw [hdma, recorded, chanOf_modChan_other _ _ _ _ hk, chanOf_locPut]

/-- The state beside what a record touches. -/
def besideRecord (s : State) : State := { besideEntries s with dma := Engine.reset }

theorem besideRecord_writeRecord (ch : Nat) (p : Progress) (st : BitVec 16) (residue : Nat) (ready stop cat : Bool) (s : State) :
    besideRecord (writeRecord ch p st residue ready stop cat s) = besideRecord s := by
  obtain ⟨r, q, h⟩ := writeRecord_frame ch p st residue ready stop cat s
  rw [h]
  exact (congrArg (fun x => { x with dma := Engine.reset }) (besideEntries_locPut s (chanOf s ch).cqLoc (recordPlace (chanOf s ch))
    (recordBytes s.time.now ch (chanOf s ch) p st residue ready stop cat)) :)

/-- A record whose queue lies in host memory. -/
theorem writeRecord_host (ch : Nat) (p : Progress) (st : BitVec 16) (residue : Nat) (ready stop cat : Bool) (s : State)
    (hloc : (chanOf s ch).cqLoc = false) :
    (writeRecord ch p st residue ready stop cat s).hbm = s.hbm ∧
      (writeRecord ch p st residue ready stop cat s).hostMem = smPut 0 (recordPlace (chanOf s ch))
        (recordBytes s.time.now ch (chanOf s ch) p st residue ready stop cat) s.hostMem := by
  obtain ⟨r, q, h⟩ := writeRecord_frame ch p st residue ready stop cat s
  rw [h, recorded, hloc]
  exact ⟨rfl, rfl⟩

theorem recordBytes_length (now ch : Nat) (c : Channel) (p : Progress) (st : BitVec 16) (residue : Nat) (ready stop cat : Bool) :
    (recordBytes now ch c p st residue ready stop cat).length = 32 := by
  simp [recordBytes]

theorem smRead_smPut_of_length (a : Nat) (bs : List Byte) (m : SMem Byte) (n : Nat) (h : bs.length = n) :
    smRead 0 a n (smPut 0 a bs m) = bs := by
  rw [← h]
  exact smRead_smPut 0 a bs m

/-! ### The fetch -/

/-- A descriptor as it starts. -/
def freshProgress (s : State) (ch : Nat) (d : Desc) : Progress :=
  { desc := d, index := (chanOf s ch).head.toNat, written := 0, waits := 0, lastWait := .none, status := stOk, ended := false,
    vread := .none, serial := s.dma.started, held := false, aborted := false }

theorem besideMem_descBytes (s : State) (ch : Nat) : besideMem (descBytes s ch).2 = besideMem s := besideMem_locRead _ _ _ s

/-- The count of a refusal for sealed data. -/
def noteSealed (st : BitVec 16) (d : Desc) (s : State) : State :=
  if st = stSealedAccess && sealedCab s d then
    modCabRegs s (auxGal d.srcAux) (fun c => { c with sealedRefusals := bump8 c.sealedRefusals })
  else s

theorem noteSealed_frame (st : BitVec 16) (d : Desc) (s : State) : ∃ g, noteSealed st d s = { s with gals := g } := by
  unfold noteSealed
  split
  · exact ⟨_, rfl⟩
  · exact ⟨s.gals, rfl⟩

theorem fetchDesc_started (ch : Nat) (s : State) (h : descCheck (descBytes s ch).2 ch (descBytes s ch).1 = stOk) :
    fetchDesc ch s =
      let v := (descBytes s ch).2
      let d := descOf (descBytes s ch).1
      let t := modChan v ch (fun x => { x with cur := some (freshProgress v ch d) })
      let u := { t with dma := { t.dma with started := v.dma.started + 1 } }
      if d.catLoad then modEnt d.catIndex (fun e => { e with loading := true }) u else u := by
  unfold fetchDesc
  dsimp only
  rw [if_pos h]
  rfl

theorem fetchDesc_refused (ch : Nat) (s : State) (h : descCheck (descBytes s ch).2 ch (descBytes s ch).1 ≠ stOk) :
    fetchDesc ch s =
      let v := (descBytes s ch).2
      let d := descOf (descBytes s ch).1
      let st := descCheck v ch (descBytes s ch).1
      writeRecord ch (freshProgress v ch d) st d.length false false false (noteSealed st d v) := by
  unfold fetchDesc
  dsimp only
  rw [if_neg h]
  rfl

/-- The record of a descriptor that never started. -/
theorem refusedRecord_eq (now ch : Nat) (c : Channel) (s : State) (k : Nat) (d : Desc) (st : BitVec 16) :
    recordBytes now ch c (freshProgress s k d) st d.length false false false =
      leBytes 8 now ++ leBytes 4 d.tag.toNat ++ leBytes 2 (freshProgress s k d).index ++
        [BitVec.ofNat 8 ch, BitVec.ofNat 8 (bit01 c.phase)] ++ leBytes 2 st.toNat ++ leBytes 2 0 ++
        leBytes 4 d.length ++ leBytes 4 0 ++ leBytes 4 0 := rfl

/-- The row of the descriptor's kind fetches it. -/
theorem fetch_run (ch : BitVec 6) (s : State) (h : mayFetch s ch.toNat = true) :
    (if (descOf (descBytes s ch.toNat).1).reduce then exec (.dmaReduce ch) s else exec (.dmaCopy ch) s) =
      .next (fetchDesc ch.toNat s) := by
  cases hr : (descOf (descBytes s ch.toNat).1).reduce
  · rw [if_neg (by decide)]
    refine congrArg Host.Outcome.next ?_
    rw [doDmaCopy, h, hr, if_pos (by decide)]
  · rw [if_pos rfl]
    refine congrArg Host.Outcome.next ?_
    rw [doDmaReduce, h, hr, if_pos (by decide)]

/-- Settles O37. -/
theorem descriptorsAreFetched : Obligations.DescriptorsAreFetched := by
  unfold Obligations.DescriptorsAreFetched
  intro ch s hfetch c bs v d run
  have hch : ch.toNat < 64 := ch.isLt
  have hrun : run = .next (fetchDesc ch.toNat s) := fetch_run ch s hfetch
  have hmem : besideMem v = besideMem s := besideMem_descBytes s ch.toNat
  have hbe : besideEntries v = besideEntries s := besideEntries_of_besideMem hmem
  have hdma : v.dma = s.dma := dma_of_beside hbe
  have htime : v.time = s.time := time_of_beside hbe
  have htours : v.tours = s.tours := tours_of_beside hbe
  have hvault : v.vault = s.vault := vault_of_beside hbe
  have hchan (k : Nat) : chanOf v k = chanOf s k := by rw [chanOf, hdma, chanOf]
  refine ⟨fun hok => ?_, fun hbad => ?_⟩
  · rw [hrun, fetchDesc_started _ _ hok]
    have hp : freshProgress v ch.toNat d =
        { desc := d, index := c.head.toNat, written := 0, waits := 0, lastWait := .none, status := stOk, ended := false,
          vread := .none, serial := s.dma.started, held := false, aborted := false } := by
      rw [freshProgress, hchan, hdma]
    intro p t u
    dsimp only
    rw [show (descBytes s ch.toNat).2 = v from rfl, show descOf (descBytes s ch.toNat).1 = d from rfl, hp, hdma]
  · refine ⟨_, hrun, ?_⟩
    rw [fetchDesc_refused _ _ hbad]
    dsimp only
    rw [show (descBytes s ch.toNat).2 = v from rfl, show descOf (descBytes s ch.toNat).1 = d from rfl,
      show (descBytes s ch.toNat).1 = bs from rfl]
    generalize hst : descCheck v ch.toNat bs = st at hbad
    obtain ⟨g, hg⟩ := noteSealed_frame st d v
    rw [hg]
    have hchan' (k : Nat) : chanOf { v with gals := g } k = chanOf s k := hchan k
    have hbeside := besideRecord_writeRecord ch.toNat (freshProgress v ch.toNat d) st d.length false false false { v with gals := g }
    obtain ⟨hc, hother⟩ := chanOf_writeRecord ch.toNat hch (freshProgress v ch.toNat d) st d.length false false false { v with gals := g }
    have hhost := writeRecord_host ch.toNat (freshProgress v ch.toNat d) st d.length false false false { v with gals := g }
    generalize writeRecord ch.toNat (freshProgress v ch.toNat d) st d.length false false false { v with gals := g } = u at *
    rw [hc, hchan']
    have hhead : (freshProgress v ch.toNat d).index = c.head.toNat := by rw [freshProgress, hchan]
    refine ⟨rfl, rfl, if_neg hbad, ?_, fun hloc => ?_, fun k hk => ?_, ?_, ?_⟩
    · show BitVec.ofNat 16 (((freshProgress v ch.toNat d).index + 1) % _) = _
      rw [hhead]
    · rw [hchan'] at hhost
      obtain ⟨hhbm, hmemory⟩ := hhost hloc
      refine ⟨hhbm, ?_⟩
      rw [hostGet, hmemory, show 64 * c.cqAddr.toNat + 32 * c.cqTail.toNat = recordPlace c by rw [recordPlace, Nat.mul_comm 64]]
      refine (smRead_smPut_of_length _ _ _ 32 (recordBytes_length ..)).trans ?_
      rw [refusedRecord_eq, hhead]
      rw [show ({ v with gals := g } : State).time = s.time from htime]
    · rw [hother k hk, hchan']
    · exact ((congrArg State.tours hbeside :) : u.tours = v.tours).trans htours
    · exact ((congrArg State.vault hbeside :) : u.vault = v.vault).trans hvault

/-! ### The end of a descriptor -/

/-- The destination region of a descriptor is a declared one. -/
def liveDest (d : Desc) (s : State) : Bool := d.dst == .cabinet && (rgnOf s (auxGal d.dstAux) (auxRgn d.dstAux)).valid

/-- READY rises, and the poison of a region that was written whole goes. -/
def readyDest (d : Desc) (s : State) : State :=
  modRgn s (auxGal d.dstAux) (auxRgn d.dstAux) (fun r =>
    let r := if d.dstAddr == 0 && d.length == 4 * rgnWords r then unpoisonRgn r else r
    readyRgn s.time.now r)

/-- What precedes the record: READY, the entry's LOADING, and poison where bytes are missing. -/
def settledDest (d : Desc) (st : BitVec 16) (residue : Nat) (live whole : Bool) (s : State) : State :=
  let s := if (whole && d.setReady && (live || d.dst == .fabric)) && live then readyDest d s else s
  let s := if whole && d.catLoad && catExists s then modEnt d.catIndex (fun e => { e with loading := false }) s else s
  let s := if decide (0 < residue) && live then modRgn s (auxGal d.dstAux) (auxRgn d.dstAux) (poisonRgn st) else s
  if decide (0 < residue) && d.catLoad && catExists s then
    modEnt d.catIndex (fun e => { e with poisoned := true, loading := false }) s
  else s

theorem endDesc_eq (ch : Nat) (p : Progress) (st : BitVec 16) (stop : Bool) (s : State) : endDesc ch p st stop s =
    let residue := residueOf s ch p
    let live := liveDest p.desc (dropWrites ch s)
    let whole := residue == 0 && st == stOk && !p.desc.reduce
    writeRecord ch p st residue (whole && p.desc.setReady && (live || p.desc.dst == .fabric)) stop (whole && p.desc.catLoad)
      (settledDest p.desc st residue live whole (dropWrites ch s)) := rfl

/-- The state beside what the end of a descriptor touches before its record. -/
def besideDest (s : State) : State :=
  { besideMem s with vault := State.reset.vault, gals := State.reset.gals }

theorem besideDest_of_besideMem {s t : State} (h : besideMem t = besideMem s) : besideDest t = besideDest s := by
  rw [besideDest, besideDest, h]

theorem besideDest_of_besideSlots {s t : State} (h : besideSlots t = besideSlots s) : besideDest t = besideDest s :=
  (congrArg besideDest h :)

theorem besideDest_modEnt (i : Nat) (f : CatEnt → CatEnt) (s : State) : besideDest (modEnt i f s) = besideDest s :=
  besideDest_of_besideMem (besideMem_modEnt i f s)

theorem besideDest_modRgn (s : State) (g j : Nat) (f : Region → Region) : besideDest (modRgn s g j f) = besideDest s := rfl

theorem dropWrites_frame (ch : Nat) (s : State) : besideDest (dropWrites ch s) = besideDest s ∧ (dropWrites ch s).gals = s.gals := by
  unfold dropWrites
  dsimp only
  have h := (slotsMove_eraseSealed ((s.vault.inFlight.filter (fun w => w.channel == ch)).map (fun w => (w.slot, w.isSealed)))
    (modMedium (modVault s (fun v => { v with inFlight := v.inFlight.filter (fun w => w.channel ≠ ch) }))
      (dropData (fun k => (s.vault.inFlight.filter (fun w => w.channel == ch)).any (fun w => w.slot == k))))).1
  exact ⟨besideDest_of_besideSlots h, gals_of_besideSlots h⟩

theorem besideDest_settledDest (d : Desc) (st : BitVec 16) (residue : Nat) (live whole : Bool) (s : State) :
    besideDest (settledDest d st residue live whole s) = besideDest s := by
  unfold settledDest
  dsimp only
  rw [apply_ite besideDest, besideDest_modEnt, ite_self, apply_ite besideDest, besideDest_modRgn, ite_self, apply_ite besideDest,
    besideDest_modEnt, ite_self, apply_ite besideDest, readyDest, besideDest_modRgn, ite_self]

theorem gals_modEnt (i : Nat) (f : CatEnt → CatEnt) (s : State) : (modEnt i f s).gals = s.gals :=
  gals_of_beside (besideEntries_of_besideMem (besideMem_modEnt i f s))

/-- With every byte written nothing is poisoned: the cabinets change by READY of the destination alone. -/
theorem gals_settledDest_whole (d : Desc) (st : BitVec 16) (live whole : Bool) (s : State) :
    (settledDest d st 0 live whole s).gals =
      if (whole && d.setReady && (live || d.dst == .fabric)) && live then (readyDest d s).gals else s.gals := by
  unfold settledDest
  dsimp only
  rw [show decide (0 < 0) = false from rfl, Bool.false_and, Bool.false_and, Bool.false_and, if_neg Bool.false_ne_true,
    if_neg Bool.false_ne_true, apply_ite State.gals,
    gals_modEnt, ite_self, apply_ite State.gals]

theorem readyRgn_ready (now : Nat) (r : Region) : (readyRgn now r).ready = true := by
  unfold readyRgn
  split
  · assumption
  · rfl

theorem auxGal_lt (a : Word) : auxGal a < 32 := Nat.mod_lt _ (by decide)
theorem auxRgn_lt (a : Word) : auxRgn a < 64 := Nat.mod_lt _ (by decide)

theorem cabRgn_readyDest (d : Desc) (s : State) : (cabRgn (readyDest d s) d.dstAux).ready = true := by
  rw [cabRgn, readyDest, modRgn, rgnOf_setRgn_same _ _ _ _ (auxGal_lt _) (auxRgn_lt _)]
  exact readyRgn_ready _ _

/-- What the end of a descriptor leaves of its channel and of the rest. -/
theorem endDesc_parts (ch : Nat) (hch : ch < 64) (p : Progress) (st : BitVec 16) (stop : Bool) (s : State) :
    chanOf (endDesc ch p st stop s) ch = recordedChan p st (chanOf s ch) ∧
      (∀ k, k ≠ ch → chanOf (endDesc ch p st stop s) k = chanOf s k) ∧ (endDesc ch p st stop s).tours = s.tours := by
  rw [endDesc_eq]
  dsimp only
  generalize residueOf s ch p = residue
  generalize liveDest p.desc (dropWrites ch s) = live
  generalize (residue == 0 && st == stOk && !p.desc.reduce) = whole
  have hdest := (besideDest_settledDest p.desc st residue live whole (dropWrites ch s)).trans (dropWrites_frame ch s).1
  generalize settledDest p.desc st residue live whole (dropWrites ch s) = t at hdest
  have hchan (k : Nat) : chanOf t k = chanOf s k := by
    rw [chanOf, show t.dma = s.dma from (congrArg State.dma hdest :), chanOf]
  generalize (whole && p.desc.setReady && (live || p.desc.dst == .fabric)) = ready
  obtain ⟨hc, hother⟩ := chanOf_writeRecord ch hch p st residue ready stop (whole && p.desc.catLoad) t
  have hbeside := besideRecord_writeRecord ch p st residue ready stop (whole && p.desc.catLoad) t
  refine ⟨hc.trans (by rw [hchan]), fun k hk => (hother k hk).trans (hchan k), ?_⟩
  exact ((congrArg State.tours hbeside :) : (writeRecord ch p st residue ready stop (whole && p.desc.catLoad) t).tours = t.tours).trans
    (congrArg State.tours hdest :)

/-- The status stands in the record at offset 16. -/
theorem endDesc_status (ch : Nat) (p : Progress) (st : BitVec 16) (stop : Bool) (s : State) (hloc : (chanOf s ch).cqLoc = false) :
    hostGet (endDesc ch p st stop s) (recordPlace (chanOf s ch) + 16) 2 = leBytes 2 st.toNat := by
  rw [endDesc_eq]
  dsimp only
  generalize residueOf s ch p = residue
  generalize liveDest p.desc (dropWrites ch s) = live
  generalize (residue == 0 && st == stOk && !p.desc.reduce) = whole
  have hdest := (besideDest_settledDest p.desc st residue live whole (dropWrites ch s)).trans (dropWrites_frame ch s).1
  generalize settledDest p.desc st residue live whole (dropWrites ch s) = t at hdest
  have hchan : chanOf t ch = chanOf s ch := by
    rw [chanOf, show t.dma = s.dma from (congrArg State.dma hdest :), chanOf]
  generalize (whole && p.desc.setReady && (live || p.desc.dst == .fabric)) = ready
  have hhost := (writeRecord_host ch p st residue ready stop (whole && p.desc.catLoad) t (by rw [hchan]; exact hloc)).2
  rw [hostGet, hhost, hchan, smRead_smPut_part _ _ _ _ _ (by rw [recordBytes_length]; decide)]
  rfl

theorem cabRgn_congr {s t : State} (h : t.gals = s.gals) (aux : Word) : cabRgn t aux = cabRgn s aux := by
  rw [cabRgn, rgnOf, galOf, h, cabRgn, rgnOf, galOf]

/-- The cabinets after a descriptor that wrote its every byte. -/
theorem endDesc_whole (ch : Nat) (p : Progress) (stop : Bool) (s : State) (hw : p.written = p.desc.length) (hv : p.desc.dst ≠ .vault)
    (hr : p.desc.reduce = false) :
    (endDesc ch p stOk stop s).gals =
      if p.desc.setReady && liveDest p.desc s then (readyDest p.desc (dropWrites ch s)).gals else s.gals := by
  have hres : residueOf s ch p = 0 := by rw [residueOf, if_neg hv, hw, Nat.sub_self]
  obtain ⟨-, hgals⟩ := dropWrites_frame ch s
  have hlive : liveDest p.desc (dropWrites ch s) = liveDest p.desc s := by
    rw [liveDest, ← cabRgn, cabRgn_congr hgals, liveDest, ← cabRgn]
  rw [endDesc_eq, hres, hr, hlive]
  dsimp only
  have hsettled := gals_settledDest_whole p.desc stOk (liveDest p.desc s) true (dropWrites ch s)
  rw [hgals] at hsettled
  show (writeRecord ch p stOk 0 (true && p.desc.setReady && (liveDest p.desc s || p.desc.dst == .fabric)) stop (true && p.desc.catLoad)
    (settledDest p.desc stOk 0 (liveDest p.desc s) true (dropWrites ch s))).gals = _
  generalize settledDest p.desc stOk 0 (liveDest p.desc s) true (dropWrites ch s) = t at hsettled
  have hbeside := besideRecord_writeRecord ch p stOk 0 (true && p.desc.setReady && (liveDest p.desc s || p.desc.dst == .fabric)) stop
    (true && p.desc.catLoad) t
  refine ((congrArg State.gals hbeside :) : _ = t.gals).trans (hsettled.trans ?_)
  refine if_congr (Eq.to_iff (congrArg (· = true) ?_)) rfl rfl
  cases liveDest p.desc s
  · rw [Bool.and_false, Bool.and_false]
  · rw [Bool.true_or, Bool.true_and, Bool.and_true, Bool.and_true]

/-- Settles O39. -/
theorem descriptorsComplete : Obligations.DescriptorsComplete := by
  unfold Obligations.DescriptorsComplete
  intro ch p s hr hstop hcur c t
  have hch : ch.toNat < 64 := ch.isLt
  have hrun (st : BitVec 16) (hgo : (p.aborted || (p.ended && ((p.ended && p.status != stOk) || p.desc.dst != .vault ||
      openWrites s ch.toNat == 0))) = true) (hst : (if p.aborted && !(p.ended && p.status != stOk) then stDmaAborted else p.status) = st) :
      exec (.dmaCompletion ch) s = .next (endDesc ch.toNat p st false s) := by
    refine congrArg Host.Outcome.next ?_
    rw [doDmaCompletion, hcur]
    dsimp only
    rw [hr, hstop, hgo, hst]
    rfl
  refine ⟨fun ha he hst hw hv hred => ?_, fun ha hno => ?_⟩
  · obtain ⟨hc, hother, htours⟩ := endDesc_parts ch.toNat hch p stOk false s
    have hgals := endDesc_whole ch.toNat p false s hw hv hred
    refine ⟨_, hrun stOk ?_ ?_, ?_⟩
    · rw [ha, he, hst, show (p.desc.dst != .vault) = true from bne_iff_ne.mpr hv]
      rfl
    · rw [ha, hst]
      rfl
    · rw [hc]
      refine ⟨rfl, rfl, recordedChan_errors_ok _ _, rfl, rfl, rfl, hother, fun hcab hset hvalid => ?_, fun hcab => ?_, htours⟩
      · have hlive : liveDest p.desc s = true := by
          rw [liveDest, hcab, ← cabRgn, hvalid]
          rfl
        rw [hset, hlive] at hgals
        rw [cabRgn_congr hgals]
        exact cabRgn_readyDest p.desc (dropWrites ch.toNat s)
      · have hlive : liveDest p.desc s = false := by rw [liveDest, beq_eq_false_iff_ne.mpr hcab, Bool.false_and]
        rw [hlive, Bool.and_false] at hgals
        exact hgals
  · have hfailed : (p.ended && p.status != stOk) = false := by
      rcases hno with h | h
      · rw [h, Bool.false_and]
      · rw [h, bne_self_eq_false, Bool.and_false]
    obtain ⟨hc, hother, htours⟩ := endDesc_parts ch.toNat hch p stDmaAborted false s
    refine ⟨_, hrun stDmaAborted ?_ ?_, ?_⟩
    · rw [ha, Bool.true_or]
    · rw [ha, hfailed]
      rfl
    · rw [hc]
      refine ⟨rfl, rfl, recordedChan_errors_failed _ _ (by decide), fun hloc => ?_, hother, htours⟩
      have hstatus := endDesc_status ch.toNat p stDmaAborted false s hloc
      rwa [recordPlace, Nat.mul_comm] at hstatus

end Sys2Proof.Machine
end

section
/-!
PROOF. The hub port (04 R81, R82, R90; 10 R226) and the debug window (16 R338, R339): one word in its turn at its bank port.
-/

namespace Sys2Proof.Machine

/-! ### The port -/

theorem bankRounds_singleton {α : Type} (bank : α → Nat) (x : α) : bankRounds bank [x] = [[x]] := rfl

/-- Where no step runs and no fill, the port is free at once. -/
theorem hubTurn_idle (g : Nat) (isWrite held : Bool) (pas : List Nat) (s : State) (hstep : anyStep s = false)
    (hfill : filling s = false) : hubTurn g isWrite held pas s =
      (true, if held then modCabRegs s g (fun c => { c with hubDefers := bump8 c.hubDefers }) else s) := by
  rw [hubTurn, hstep, hfill]
  rfl

theorem hubPut_word (g : Nat) (held : Bool) (w : Nat × Nat) (s : State) : hubPut g held [w] s =
    if (hubTurn g true held [w.1] s).1 then (true, cabPut g [w] (hubTurn g true held [w.1] s).2) else (false, s) := by
  rw [hubPut, bankRounds_singleton]
  unfold hubWrites
  rw [List.map_singleton]
  generalize hubTurn g true held [w.1] s = r
  rcases r with ⟨ok, t⟩
  cases ok <;> rfl

theorem hubGet_word (g : Nat) (held : Bool) (pa : Nat) (s : State) : hubGet g held [pa] s =
    if (hubTurn g false held [pa] s).1 then
      (some (hubWords (hubTurn g false held [pa] s).2 g [pa]), (hubTurn g false held [pa] s).2)
    else (.none, s) := by
  rw [hubGet, bankRounds_singleton]
  unfold hubReads
  generalize hubTurn g false held [pa] s = r
  rcases r with ⟨ok, t⟩
  cases ok
  · rfl
  · show (some (hubWords t g [pa] ++ []), t) = _
    rw [List.append_nil]
    rfl

theorem smRead_word (k : Nat) (m : SMem Word) : smRead 0 k 1 m = [smGet 0 k m] := by
  obtain ⟨x, hx⟩ := List.length_eq_one_iff.mp (smRead_length (0 : Word) k 1 m)
  have h0 := smRead_get (0 : Word) k 1 0 m (by omega)
  simp only [hx, List.getElem_cons_zero] at h0
  rw [hx, h0, Nat.add_zero]

theorem cabWords_word (s : State) (g pa : Nat) : cabWords s g [pa] = [(cabWord s g pa).toNat] := by
  show (smRead 0 pa 1 (galOf s g).cab).map (·.toNat) = _
  rw [smRead_word, cabWord]
  rfl

/-- A hub read of one word sees one word. -/
theorem hubWords_word (s : State) (g pa : Nat) : hubWords s g [pa] = [(hubWords s g [pa]).headD 0] := by
  unfold hubWords
  rw [cabWords_word]
  dsimp only
  split
  · rfl
  · rfl

theorem hubWords_first (s : State) (g pa : Nat) (h : s.time.cycle = 0) : hubWords s g [pa] = [(cabWord s g pa).toNat] := by
  unfold hubWords
  rw [h, cabWords_word, if_pos (by rw [beq_self_eq_true, Bool.or_true])]

/-- What the words of a cabinet hold after a change of it. -/
theorem cabWord_modGal_other (s : State) (g : Nat) (f : Gallery → Gallery) (k a : Nat) (h : k ≠ g) :
    cabWord (modGal s g f) k a = cabWord s k a := by
  rw [cabWord, galOf_modGal_other _ _ _ _ h, cabWord]

theorem cabWord_modGal_same (s : State) (g : Nat) (f : Gallery → Gallery) (a : Nat) (h : g < 32) :
    cabWord (modGal s g f) g a = smGet 0 a (f (galOf s g)).cab := by
  rw [cabWord, galOf_modGal_same _ _ _ h]

theorem cabWord_modCabRegs (s : State) (g : Nat) (hg : g < 32) (f : CabRegs → CabRegs) (k a : Nat) :
    cabWord (modCabRegs s g f) k a = cabWord s k a := by
  by_cases hk : k = g
  · rw [hk, modCabRegs, cabWord_modGal_same _ _ _ _ hg, cabWord]
  · rw [modCabRegs, cabWord_modGal_other _ _ _ _ _ hk]

theorem cabPut_word (g pa v : Nat) (s : State) :
    cabPut g [(pa, v)] s = modGal s g (fun x => { x with cab := smPut 0 pa [BitVec.ofNat 32 v] x.cab }) := rfl

/-- A word that is written stands, and no other changes. -/
theorem cabWord_cabPut_word (g pa : Nat) (w : Word) (s : State) (hg : g < 32) :
    cabWord (cabPut g [(pa, w.toNat)] s) g pa = w ∧
      ∀ k a, (k, a) ≠ (g, pa) → cabWord (cabPut g [(pa, w.toNat)] s) k a = cabWord s k a := by
  rw [cabPut_word, BitVec.ofNat_toNat, BitVec.setWidth_eq]
  refine ⟨?_, fun k a hne => ?_⟩
  · rw [cabWord_modGal_same _ _ _ _ hg]
    exact smGet_smPut_in 0 pa 0 [w] _ Nat.one_pos
  · by_cases hk : k = g
    · have ha : a ≠ pa := fun h => hne (by rw [hk, h])
      rw [hk, cabWord_modGal_same _ _ _ _ hg]
      exact smGet_smPut_out 0 pa a [w] _ (by rw [List.length_singleton]; omega)
    · rw [cabWord_modGal_other _ _ _ _ _ hk]

/-! ### HUB_PORT_ACCESS -/

/-- The state in which the access meets its port. -/
def reached (cycle : Nat) (s : State) : State := if anyStep s then runTo (min 100 (cycle + 1)) s else s

theorem doHubPort_done (g pa cycle : Nat) (acc : Access Word) (s t : State) (hr : hubRuns s = true) (hg : g < numGal s)
    (hclock : (galOf s g).regs.clockOn = true) (h : hubWord g pa acc false (reached cycle s) = (true, t)) :
    doHubPort g pa cycle acc s = t := by
  rw [doHubPort, hr, hclock, decide_eq_false (Nat.not_le.mpr hg), if_neg (by decide)]
  dsimp only
  rw [← reached, h]
  rfl

theorem doHubPort_held (g pa cycle : Nat) (acc : Access Word) (s : State) (hr : hubRuns s = true) (hg : g < numGal s)
    (hclock : (galOf s g).regs.clockOn = true) (h : hubWord g pa acc false (reached cycle s) = (false, reached cycle s)) :
    doHubPort g pa cycle acc s = { reached cycle s with
      held := (reached cycle s).held ++ [.word g pa acc (!readyHolds (reached cycle s) g pa acc)] } := by
  rw [doHubPort, hr, hclock, decide_eq_false (Nat.not_le.mpr hg), if_neg (by decide)]
  dsimp only
  rw [← reached, h]
  rfl

theorem hubWord_sealed (g pa : Nat) (v : State) (x : Region) (hx : (rgnAt v g pa).map (rgnOf v g) = some x) (hs : x.isSealed = true) :
    hubWord g pa .read false v = (true, returned (leBytes 4 0) false (modCabRegs v g (fun c => { c with
      sealedRefusals := bump8 c.sealedRefusals }))) := by
  obtain ⟨j, hj, rfl⟩ := Option.map_eq_some_iff.mp hx
  unfold hubWord
  rw [hj]
  exact if_pos hs

theorem hubReadWord_eq (g pa : Nat) (v : State) : hubReadWord g pa false v =
    if (hubTurn g false false [pa] v).1 then
      (true, returned (leBytes 4 ((hubWords (hubTurn g false false [pa] v).2 g [pa]).headD 0)) false (hubTurn g false false [pa] v).2)
    else (false, v) := by
  rw [hubReadWord, hubGet_word]
  cases (hubTurn g false false [pa] v).1
  · rfl
  · rw [if_pos rfl, if_pos rfl, hubWords_word]
    dsimp only
    rw [List.flatMap_singleton, List.headD_cons]

theorem hubWord_read (g pa : Nat) (v : State) (h : ∀ x, (rgnAt v g pa).map (rgnOf v g) = some x → x.isSealed = false) :
    hubWord g pa .read false v = hubReadWord g pa false v := by
  unfold hubWord
  cases hj : rgnAt v g pa with
  | none => rfl
  | some j =>
    dsimp only
    rw [h (rgnOf v g j) (by rw [hj]; rfl), if_neg (by decide)]

theorem hubWord_refused (g pa : Nat) (w : Word) (v : State) (h : ∀ x, (rgnAt v g pa).map (rgnOf v g) = some x → x.feed = 0) :
    hubWord g pa (.write w) false v = (true, returned (leBytes 2 stAddressRange.toNat) false v) := by
  unfold hubWord
  cases hj : rgnAt v g pa with
  | none => rfl
  | some j =>
    dsimp only
    rw [if_pos (h (rgnOf v g j) (by rw [hj]; rfl))]

theorem hubWord_write (g pa : Nat) (w : Word) (v : State) (x : Region) (hx : (rgnAt v g pa).map (rgnOf v g) = some x) (hf : x.feed ≠ 0) :
    hubWord g pa (.write w) false v = if x.ready then (false, v) else hubPut g false [(pa, w.toNat)] v := by
  obtain ⟨j, hj, rfl⟩ := Option.map_eq_some_iff.mp hx
  unfold hubWord
  rw [hj]
  exact if_neg hf

theorem readyHolds_write (v : State) (g pa : Nat) (w : Word) (x : Region) (hx : (rgnAt v g pa).map (rgnOf v g) = some x) :
    readyHolds v g pa (.write w) = x.ready := by
  obtain ⟨j, hj, rfl⟩ := Option.map_eq_some_iff.mp hx
  unfold readyHolds
  rw [hj]

/-- Settles O41: the access is judged by the region at its word, and meets its turn at the port. -/
theorem hubPortServesWords : Obligations.HubPortServesWords := by
  unfold Obligations.HubPortServesWords
  intro g pa cycle w s hr hg hclock v r rd wr still
  have hg32 : g.toNat < 32 := g.isLt
  have hv : reached cycle s = v := rfl
  have hdone (acc : Access Word) (t : State) (h : hubWord g.toNat pa acc false v = (true, t)) :
      exec (.hubPortAccess g pa cycle acc) s = .next t :=
    congrArg Host.Outcome.next (doHubPort_done g.toNat pa cycle acc s t hr hg hclock h)
  have hheld (acc : Access Word) (h : hubWord g.toNat pa acc false v = (false, v)) :
      exec (.hubPortAccess g pa cycle acc) s = .next { v with held := v.held ++ [.word g.toNat pa acc (!readyHolds v g.toNat pa acc)] } :=
    congrArg Host.Outcome.next (doHubPort_held g.toNat pa cycle acc s hr hg hclock h)
  clear_value v
  refine ⟨fun hstep => ⟨hv ▸ if_neg (by rw [hstep]; decide), fun hfill => ?_⟩, ?_, fun hopen => ⟨fun hno => ?_, fun hyes => ?_⟩,
    fun hfeed => ?_, fun x hx hfeed => ⟨fun hready => ?_, fun hready hno => ?_, fun hready hyes => ?_⟩⟩
  · have hvs : v = s := hv ▸ if_neg (by rw [hstep]; decide)
    constructor
    · rw [show rd = hubTurn g.toNat false false [pa] v from rfl, hvs, hubTurn_idle _ _ _ _ _ hstep hfill, if_neg (by decide)]
    · rw [show wr = hubTurn g.toNat true false [pa] v from rfl, hvs, hubTurn_idle _ _ _ _ _ hstep hfill, if_neg (by decide)]
  · rintro ⟨x, hx, hs⟩
    refine ⟨_, hdone .read _ (hubWord_sealed _ _ _ x hx hs), rfl, ⟨fun k a => ?_, rfl, rfl⟩, ?_⟩
    · exact cabWord_modCabRegs v g.toNat hg32 (fun c => { c with sealedRefusals := bump8 c.sealedRefusals }) k a
    · exact congrArg (fun y => y.cabRegs.sealedRefusals) (galOf_modGal_same v g.toNat
        (fun x => { x with cabRegs := { x.cabRegs with sealedRefusals := bump8 x.cabRegs.sealedRefusals } }) hg32)
  · refine hheld .read ?_
    rw [hubWord_read _ _ _ hopen, hubReadWord_eq, if_neg (by rw [show (hubTurn g.toNat false false [pa] v).1 = false from hno]; decide)]
  · refine ⟨returned (leBytes 4 ((hubWords rd.2 g.toNat [pa]).headD 0)) false rd.2, hdone .read _ (by
      rw [hubWord_read _ _ _ hopen, hubReadWord_eq, if_pos (show (hubTurn g.toNat false false [pa] v).1 = true from hyes)]),
      ⟨fun k a => rfl, rfl, rfl⟩, rfl, fun hstep hfill hcycle => ?_⟩
    have hvs : v = s := hv ▸ if_neg (by rw [hstep]; decide)
    show leBytes 4 ((hubWords (hubTurn g.toNat false false [pa] v).2 g.toNat [pa]).headD 0) = _
    rw [hvs, hubTurn_idle _ _ _ _ _ hstep hfill, if_neg (by decide), hubWords_first _ _ _ hcycle]
    rfl
  · exact ⟨_, hdone (.write w) _ (hubWord_refused _ _ _ _ hfeed), ⟨fun k a => rfl, rfl, rfl⟩, rfl⟩
  · have hheld' := hheld (.write w) (by rw [hubWord_write _ _ _ _ x hx hfeed, hready, if_pos rfl])
    rwa [readyHolds_write _ _ _ _ x hx, hready] at hheld'
  · have hheld' := hheld (.write w) (by
      rw [hubWord_write _ _ _ _ x hx hfeed, hready, if_neg (by decide), hubPut_word,
        if_neg (by rw [show (hubTurn g.toNat true false [pa] v).1 = false from hno]; decide)])
    rwa [readyHolds_write _ _ _ _ x hx, hready] at hheld'
  · obtain ⟨hsame, hother⟩ := cabWord_cabPut_word g.toNat pa w wr.2 hg32
    refine ⟨cabPut g.toNat [(pa, w.toNat)] wr.2, hdone (.write w) _ ?_, hsame, hother, rfl, rfl, rfl⟩
    rw [hubWord_write _ _ _ _ x hx hfeed, hready, if_neg (by decide), hubPut_word,
      if_pos (show (hubTurn g.toNat true false [pa] v).1 = true from hyes)]

end Sys2Proof.Machine
end

section
/-!
PROOF. The debug window (16 R338, R339): a cabinet word in its turn at its bank port.
-/

namespace Sys2Proof.Machine

/-! ### A word of the window -/

theorem bar2At_cabinet (pa : Nat) (h : pa < 0x300000) : bar2At (4 * pa) = .cabinet pa := by
  rw [bar2At, if_pos (by omega), Nat.mul_div_cancel_left pa (by omega)]

theorem bar2Pas_word (pa : Nat) : bar2Pas (4 * pa) 4 = [pa] := by
  rw [bar2Pas, if_neg (by decide), Nat.mul_div_cancel_left pa (by omega)]

/-- A word that is written whole takes the value's low half. -/
theorem mergeWord_whole (old v : Nat) : mergeWord old 0 4 v = v % 2 ^ 32 := by
  have hdrop : (leBytes 4 old).drop (0 + 4) = [] := List.drop_eq_nil_of_le (by rw [leBytes_length])
  rw [mergeWord, hdrop, List.append_nil, List.take_zero, List.nil_append, leNat_leBytes]
  norm_num

theorem ofNat_mergeWord (old v : Nat) : BitVec.ofNat 32 (mergeWord old 0 4 v) = BitVec.ofNat 32 v := by
  rw [mergeWord_whole]
  exact BitVec.eq_of_toNat_eq (by rw [BitVec.toNat_ofNat, BitVec.toNat_ofNat, Nat.mod_mod])

theorem bar2Set_word (pa v : Nat) (h : pa < 0x300000) (x : Gallery) :
    bar2Set (4 * pa) 4 v x = { x with cab := smSet 0 pa (BitVec.ofNat 32 v) x.cab } := by
  rw [bar2Set, if_neg (by decide)]
  dsimp only
  rw [Nat.mul_mod_right, Nat.sub_zero, bar2Put, bar2At_cabinet pa h]
  dsimp only
  rw [ofNat_mergeWord]

/-- What a write of the window finds at its word. -/
theorem bar2Check_refused (s : State) (g pa : Nat) (h : pa < 0x300000)
    (hr : ∀ x, (rgnAt s g pa).map (rgnOf s g) = some x → x.feed = 0 ∨ x.isSealed = true) : bar2Check s g (4 * pa) = .refused := by
  unfold bar2Check
  rw [bar2At_cabinet pa h]
  dsimp only
  cases hj : rgnAt s g pa with
  | none => rfl
  | some j =>
    dsimp only
    refine if_pos ?_
    rw [Bool.or_eq_true, decide_eq_true_eq]
    exact hr (rgnOf s g j) (by rw [hj]; rfl)

theorem bar2Check_write (s : State) (g pa : Nat) (h : pa < 0x300000) (x : Region) (hx : (rgnAt s g pa).map (rgnOf s g) = some x)
    (hf : x.feed ≠ 0) (hs : x.isSealed = false) :
    bar2Check s g (4 * pa) = if x.ready || !(galOf s g).regs.clockOn then .held else .done := by
  obtain ⟨j, hj, rfl⟩ := Option.map_eq_some_iff.mp hx
  unfold bar2Check
  rw [bar2At_cabinet pa h]
  dsimp only
  rw [hj]
  dsimp only
  exact if_neg (by rw [hs, Bool.or_false, decide_eq_true_eq]; exact hf)

theorem bar2Sealed_eq (s : State) (g pa : Nat) (h : pa < 0x300000) :
    bar2Sealed s g (4 * pa) = (((rgnAt s g pa).map (rgnOf s g)).map (·.isSealed)).getD false := by
  unfold bar2Sealed
  rw [bar2At_cabinet pa h]
  dsimp only
  cases rgnAt s g pa <;> rfl

/-! ### BAR2_ACCESS -/

section
variable (s : State) (pa : Nat) (acc : Access Quad) (hr : hubRuns s = true) (hd : s.sec.debug = true)
  (hg : s.host.dbgGallery.toNat < numGal s)
include hr hd hg

theorem doBar2_done (t : State) (h : bar2Try s.host.dbgGallery.toNat (4 * pa) 4 acc false s = (true, t)) :
    doBar2 (4 * pa) 4 acc s = t := by
  unfold doBar2
  dsimp only
  rw [hr, hd, decide_eq_false (Nat.not_le.mpr hg), Nat.mul_mod_right, if_neg (by decide), if_neg (by decide), if_neg (by decide), h]
  rfl

theorem doBar2_held (t : State) (h : bar2Try s.host.dbgGallery.toNat (4 * pa) 4 acc false s = (false, t)) :
    doBar2 (4 * pa) 4 acc s = { t with
      held := t.held ++ [.bar2 s.host.dbgGallery.toNat (4 * pa) 4 acc (!bar2Waits s s.host.dbgGallery.toNat (4 * pa) acc)] } := by
  unfold doBar2
  dsimp only
  rw [hr, hd, decide_eq_false (Nat.not_le.mpr hg), Nat.mul_mod_right, if_neg (by decide), if_neg (by decide), if_neg (by decide), h]
  rfl

end

theorem doBar2_inert (pa : Nat) (acc : Access Quad) (s : State) (hr : hubRuns s = true) (hd : s.sec.debug = false) :
    doBar2 (4 * pa) 4 acc s = match acc with | .read => returned (leBytes 4 0) false s | .write _ => s := by
  unfold doBar2
  dsimp only
  rw [hr, hd, if_neg (by decide), Bool.not_false, Bool.true_or, if_pos rfl] <;>
    cases acc <;> rfl

theorem bar2Read_sealed (g pa : Nat) (s : State) (h : bar2Sealed s g (4 * pa) = true) : bar2Read g (4 * pa) 4 false s =
    (true, returned (leBytes 4 0) false (modCabRegs s g (fun c => { c with sealedRefusals := bump8 c.sealedRefusals }))) := by
  rw [bar2Read, if_pos h]

theorem bar2Read_word (g pa : Nat) (s : State) (hlt : pa < 0x300000) (h : bar2Sealed s g (4 * pa) = false)
    (hclock : (galOf s g).regs.clockOn = true) : bar2Read g (4 * pa) 4 false s =
      ((hubTurn g false false [pa] s).1, if (hubTurn g false false [pa] s).1 then
        returned (leBytes 4 ((hubWords (hubTurn g false false [pa] s).2 g [pa]).headD 0)) false (hubTurn g false false [pa] s).2
      else (hubTurn g false false [pa] s).2) := by
  have hstopped : bar2Stopped s g (4 * pa) = false := by rw [bar2Stopped, hclock, Bool.not_true, Bool.and_false]
  rw [bar2Read, h, hstopped, if_neg (by decide), if_neg (by decide), if_pos (by omega), bar2Pas_word]
  dsimp only
  rw [Nat.mul_mod_right, List.drop_zero, hubWords_word, List.flatMap_singleton, List.headD_cons, List.take_of_length_le (by
    rw [leBytes_length])]

theorem bar2Store_word (g pa v : Nat) (s : State) (hlt : pa < 0x300000) (h : bar2Check s g (4 * pa) = .done) :
    bar2Store g (4 * pa) 4 v false s = ((hubTurn g true false [pa] s).1, if (hubTurn g true false [pa] s).1 then
        modGal (hubTurn g true false [pa] s).2 g (fun x => { x with cab := smSet 0 pa (BitVec.ofNat 32 v) x.cab })
      else (hubTurn g true false [pa] s).2) := by
  rw [bar2Store, h]
  dsimp only
  rw [if_pos (by omega), bar2Pas_word]
  rw [show bar2Set (4 * pa) 4 v = fun x => { x with cab := smSet 0 pa (BitVec.ofNat 32 v) x.cab } from funext (bar2Set_word pa v hlt)]

/-- A word that is set stands, and no other changes. -/
theorem cabWord_smSet (g pa : Nat) (w : Word) (s : State) (hg : g < 32) (hwf : SmWf 0 (galOf s g).cab) :
    cabWord (modGal s g (fun x => { x with cab := smSet 0 pa w x.cab })) g pa = w ∧
      ∀ k a, (k, a) ≠ (g, pa) → cabWord (modGal s g (fun x => { x with cab := smSet 0 pa w x.cab })) k a = cabWord s k a := by
  refine ⟨?_, fun k a hne => ?_⟩
  · rw [cabWord_modGal_same _ _ _ _ hg]
    exact smGet_smSet_same 0 pa w _ hwf
  · by_cases hk : k = g
    · have ha : a ≠ pa := fun h => hne (by rw [hk, h])
      rw [hk, cabWord_modGal_same _ _ _ _ hg]
      exact smGet_smSet_other 0 pa a w _ ha
    · rw [cabWord_modGal_other _ _ _ _ _ hk]

/-- Settles O60: outside debug mode the window is inert; inside, the region at the word judges the access, which meets its turn at the
port. -/
theorem theDebugWindowServes : Obligations.TheDebugWindowServes := by
  unfold Obligations.TheDebugWindowServes
  intro pa v s hr hlt
  refine ⟨fun hd => ⟨_, congrArg Host.Outcome.next (doBar2_inert pa .read s hr hd), rfl, rfl,
    congrArg Host.Outcome.next (doBar2_inert pa (.write v) s hr hd)⟩, ?_⟩
  rintro g rfl hd hg
  have hg32 : s.host.dbgGallery.toNat < 32 := s.host.dbgGallery.isLt
  have hdone (acc : Access Quad) (t : State) (h : bar2Try s.host.dbgGallery.toNat (4 * pa) 4 acc false s = (true, t)) :
      exec (.bar2Access (4 * pa) 4 acc) s = .next t := congrArg Host.Outcome.next (doBar2_done s pa acc hr hd hg t h)
  have hheld (acc : Access Quad) (t : State) (h : bar2Try s.host.dbgGallery.toNat (4 * pa) 4 acc false s = (false, t)) :
      exec (.bar2Access (4 * pa) 4 acc) s = .next { t with
        held := t.held ++ [.bar2 s.host.dbgGallery.toNat (4 * pa) 4 acc (!bar2Waits s s.host.dbgGallery.toNat (4 * pa) acc)] } :=
    congrArg Host.Outcome.next (doBar2_held s pa acc hr hd hg t h)
  generalize s.host.dbgGallery.toNat = g at *
  intro r rd wr
  refine ⟨?_, fun hopen hclock => ?_, fun hrefused => ?_, fun x hx hf hs => ⟨fun hwait => ?_, fun hready hclock hno => ?_,
    fun hready hclock hyes hwf => ?_⟩⟩
  · rintro ⟨x, hx, hs⟩
    have hsealed : bar2Sealed s g (4 * pa) = true := by
      rw [bar2Sealed_eq s g pa hlt, show (rgnAt s g pa).map (rgnOf s g) = some x from hx]
      exact hs
    exact ⟨_, hdone .read _ (bar2Read_sealed g pa s hsealed), rfl,
      cabWord_modCabRegs s g hg32 (fun c => { c with sealedRefusals := bump8 c.sealedRefusals })⟩
  · have hplain : bar2Sealed s g (4 * pa) = false := by
      rw [bar2Sealed_eq s g pa hlt]
      cases hx : (rgnAt s g pa).map (rgnOf s g) with
      | none => rfl
      | some x => exact hopen x hx
    have hread := bar2Read_word g pa s hlt hplain hclock
    refine ⟨fun hno => ?_, fun hyes => ?_⟩
    · rw [show (hubTurn g false false [pa] s).1 = false from hno, if_neg (by decide)] at hread
      exact hheld .read _ hread
    · rw [show (hubTurn g false false [pa] s).1 = true from hyes, if_pos rfl] at hread
      refine ⟨returned (leBytes 4 ((hubWords rd.2 g [pa]).headD 0)) false rd.2, hdone .read _ hread, rfl, fun k a => rfl,
        fun hstep hfill hcycle => ?_⟩
      show leBytes 4 ((hubWords (hubTurn g false false [pa] s).2 g [pa]).headD 0) = _
      rw [hubTurn_idle _ _ _ _ _ hstep hfill, if_neg (by decide), hubWords_first _ _ _ hcycle]
      rfl
  · refine hdone (.write v) _ ?_
    show bar2Store g (4 * pa) 4 v.toNat false s = _
    rw [bar2Store, bar2Check_refused s g pa hlt hrefused]
    rfl
  · have hcheck : bar2Check s g (4 * pa) = .held := by
      rw [bar2Check_write s g pa hlt x hx hf hs, if_pos]
      rcases hwait with h | h
      · rw [h, Bool.true_or]
      · rw [h, Bool.not_false, Bool.or_true]
    have h := hheld (.write v) s (by
      show bar2Store g (4 * pa) 4 v.toNat false s = _
      rw [bar2Store, hcheck])
    rwa [bar2Waits, hcheck] at h
  · have hcheck : bar2Check s g (4 * pa) = .done := by
      rw [bar2Check_write s g pa hlt x hx hf hs, hready, hclock, if_neg (by decide)]
    have hstore := bar2Store_word g pa v.toNat s hlt hcheck
    rw [show (hubTurn g true false [pa] s).1 = false from hno, if_neg (by decide)] at hstore
    have h := hheld (.write v) _ hstore
    rwa [bar2Waits, hcheck] at h
  · have hcheck : bar2Check s g (4 * pa) = .done := by
      rw [bar2Check_write s g pa hlt x hx hf hs, hready, hclock, if_neg (by decide)]
    have hstore := bar2Store_word g pa v.toNat s hlt hcheck
    rw [show (hubTurn g true false [pa] s).1 = true from hyes, if_pos rfl] at hstore
    obtain ⟨hsame, hother⟩ := cabWord_smSet g pa (BitVec.ofNat 32 v.toNat) wr.2 hg32 hwf
    exact ⟨_, hdone (.write v) _ hstore, hsame, hother, rfl, rfl⟩

end Sys2Proof.Machine
end

section
/-!
PROOF. A burst of words at the bank ports (04 R70, R81), and DMA_BURST from host memory (13 R273 to R277).
-/

namespace Sys2Proof.Machine

/-! ### Rounds of words -/

/-- One more word for the rounds that have been gathered. -/
def gather {α : Type} (bank : α → Nat) (r : List (List α) × List α) (x : α) : List (List α) × List α :=
  if r.2.any (fun y => bank y == bank x) then (r.2.reverse :: r.1, [x]) else (r.1, x :: r.2)

/-- The words gathered so far, in order. -/
def gathered {α : Type} (r : List (List α) × List α) : List α := r.1.reverse.flatten ++ r.2.reverse

theorem gathered_gather {α : Type} (bank : α → Nat) (r : List (List α) × List α) (x : α) :
    gathered (gather bank r x) = gathered r ++ [x] := by
  unfold gather
  split
  · simp [gathered]
  · simp [gathered]

theorem gathered_foldl {α : Type} (bank : α → Nat) (xs : List α) (r : List (List α) × List α) :
    gathered (xs.foldl (gather bank) r) = gathered r ++ xs := by
  induction xs generalizing r with
  | nil => rw [List.foldl_nil, List.append_nil]
  | cons x xs ih => rw [List.foldl_cons, ih, gathered_gather, List.append_assoc, List.singleton_append]

/-- Rounds keep the words and their order. -/
theorem flatten_bankRounds {α : Type} (bank : α → Nat) (xs : List α) : (bankRounds bank xs).flatten = xs := by
  have h := gathered_foldl bank xs ([], [])
  rw [show bankRounds bank xs = (if (xs.foldl (gather bank) ([], [])).2.isEmpty then (xs.foldl (gather bank) ([], [])).1
    else (xs.foldl (gather bank) ([], [])).2.reverse :: (xs.foldl (gather bank) ([], [])).1).reverse from rfl]
  generalize xs.foldl (gather bank) ([], []) = r at h ⊢
  rw [show gathered (([], []) : List (List α) × List α) = [] from rfl, List.nil_append] at h
  rw [← h, gathered]
  split
  case isTrue hempty => rw [List.isEmpty_iff.mp hempty, List.reverse_nil, List.append_nil]
  case isFalse => simp

/-! ### What a burst writes -/

/-- The words that stand in a cabinet from physical address `a` on, with all else but HUB_DEFERS as it was. -/
structure CabWrote (g a : Nat) (ws : List Word) (s t : State) : Prop where
  beside : besideGals t = besideGals s
  others : ∀ k, k ≠ g → galOf t k = galOf s k
  run    : (galOf t g).run = (galOf s g).run
  fills  : (galOf t g).fills = (galOf s g).fills
  inside : ∀ i (h : i < ws.length), cabWord t g (a + i) = ws[i]
  outside : ∀ pa, pa < a ∨ a + ws.length ≤ pa → cabWord t g pa = cabWord s g pa

theorem CabWrote.refl (g a : Nat) (s : State) : CabWrote g a [] s s where
  beside := rfl
  others := fun _ _ => rfl
  run := rfl
  fills := rfl
  inside := fun i h => absurd h (Nat.not_lt_zero i)
  outside := fun _ _ => rfl

theorem CabWrote.trans {g a : Nat} {ws vs : List Word} {s t u : State} (h : CabWrote g a ws s t) (h' : CabWrote g (a + ws.length) vs t u) :
    CabWrote g a (ws ++ vs) s u where
  beside := h'.beside.trans h.beside
  others := fun k hk => (h'.others k hk).trans (h.others k hk)
  run := h'.run.trans h.run
  fills := h'.fills.trans h.fills
  inside := fun i hi => by
    rw [List.length_append] at hi
    by_cases hlt : i < ws.length
    · rw [h'.outside _ (Or.inl (by omega)), h.inside i hlt, List.getElem_append_left hlt]
    · have h2 := h'.inside (i - ws.length) (by omega)
      rw [show a + ws.length + (i - ws.length) = a + i by omega] at h2
      rw [h2, List.getElem_append_right (by omega)]
  outside := fun pa hpa => by
    rw [List.length_append] at hpa
    rw [h'.outside pa (by omega), h.outside pa (by omega)]

theorem anyStep_congr {s t : State} (h : ∀ k < 32, (galOf t k).run = (galOf s k).run) (hs : anyStep s = false) : anyStep t = false := by
  rw [anyStep, List.any_eq_false] at hs ⊢
  intro x hx
  obtain ⟨k, hk, rfl⟩ := exists_of_mem_gals t x hx
  rw [h k hk]
  exact hs _ (mem_gals s k hk)

theorem filling_congr {s t : State} (h : ∀ k < 32, (galOf t k).fills = (galOf s k).fills) (hs : filling s = false) : filling t = false := by
  rw [filling, List.any_eq_false] at hs ⊢
  intro x hx
  obtain ⟨k, hk, rfl⟩ := exists_of_mem_gals t x hx
  rw [h k hk]
  exact hs _ (mem_gals s k hk)

theorem CabWrote.anyStep_false {g a : Nat} {ws : List Word} {s t : State} (h : CabWrote g a ws s t) (hs : anyStep s = false) :
    anyStep t = false := by
  refine anyStep_congr (fun k _ => ?_) hs
  by_cases hk : k = g
  · rw [hk, h.run]
  · rw [h.others k hk]

theorem CabWrote.filling_false {g a : Nat} {ws : List Word} {s t : State} (h : CabWrote g a ws s t) (hs : filling s = false) :
    filling t = false := by
  refine filling_congr (fun k _ => ?_) hs
  by_cases hk : k = g
  · rw [hk, h.fills]
  · rw [h.others k hk]

/-- The count of an access that was held. -/
theorem CabWrote.of_modCabRegs (g a : Nat) (f : CabRegs → CabRegs) (s : State) (hg : g < 32) : CabWrote g a [] s (modCabRegs s g f) where
  beside := rfl
  others := fun k hk => galOf_modGal_other _ _ _ _ hk
  run := by rw [modCabRegs, galOf_modGal_same _ _ _ hg]
  fills := by rw [modCabRegs, galOf_modGal_same _ _ _ hg]
  inside := fun i h => absurd h (Nat.not_lt_zero i)
  outside := fun pa _ => cabWord_modCabRegs s g hg f g pa

/-- Words one behind the other. -/
def consecutive (a : Nat) (ws : List Word) : List (Nat × Nat) := ws.mapIdx (fun i w => (a + i, w.toNat))

theorem consecutive_cons (a : Nat) (w : Word) (ws : List Word) :
    consecutive a (w :: ws) = (a, w.toNat) :: consecutive (a + 1) ws := by
  rw [consecutive, List.mapIdx_cons, consecutive]
  simp [Nat.add_comm, Nat.add_left_comm]

theorem isRun_consecutive (a : Nat) (ws : List Word) : isRun ((consecutive a ws).map (·.1)) = true := by
  induction ws generalizing a with
  | nil => rfl
  | cons w ws ih =>
    cases ws with
    | nil => rfl
    | cons v vs =>
      have h := ih (a + 1)
      rw [consecutive_cons] at h
      rw [consecutive_cons, consecutive_cons]
      show ((a + 1 == a + 1) && isRun ((a + 1) :: (consecutive (a + 1 + 1) vs).map (·.1))) = true
      rw [beq_self_eq_true, Bool.true_and]
      exact h

theorem words_consecutive (a : Nat) (ws : List Word) : (consecutive a ws).map (fun w => BitVec.ofNat 32 w.2) = ws := by
  rw [consecutive]
  refine List.ext_getElem (by simp) (fun i h1 h2 => ?_)
  simp

theorem cabPut_consecutive (g a : Nat) (ws : List Word) (s : State) (hne : ws ≠ []) :
    cabPut g (consecutive a ws) s = modGal s g (fun x => { x with cab := smPut 0 a ws x.cab }) := by
  obtain ⟨w, vs, rfl⟩ := List.exists_cons_of_ne_nil hne
  have hrun := isRun_consecutive a (w :: vs)
  have hwords := words_consecutive a (w :: vs)
  rw [consecutive_cons] at hrun hwords ⊢
  unfold cabPut
  dsimp only
  simp only [hrun, hwords, if_true]

/-- One round of words. -/
theorem CabWrote.of_cabPut (g a : Nat) (ws : List Word) (s : State) (hg : g < 32) : CabWrote g a ws s (cabPut g (consecutive a ws) s) := by
  by_cases hne : ws = []
  · subst hne
    exact CabWrote.refl g a s
  · rw [cabPut_consecutive g a ws s hne]
    exact
      { beside := rfl
        others := fun k hk => galOf_modGal_other _ _ _ _ hk
        run := by rw [galOf_modGal_same _ _ _ hg]
        fills := by rw [galOf_modGal_same _ _ _ hg]
        inside := fun i h => by
          rw [cabWord_modGal_same _ _ _ _ hg]
          exact smGet_smPut_in 0 a i ws _ h
        outside := fun pa hpa => by
          rw [cabWord_modGal_same _ _ _ _ hg]
          exact smGet_smPut_out 0 a pa ws _ hpa }

/-- A piece of consecutive words is consecutive, and so is what follows it. -/
theorem consecutive_append {a : Nat} {ws : List Word} {xs ys : List (Nat × Nat)} (h : consecutive a ws = xs ++ ys) :
    ∃ vs us, ws = vs ++ us ∧ xs = consecutive a vs ∧ ys = consecutive (a + vs.length) us := by
  induction xs generalizing a ws with
  | nil => exact ⟨[], ws, rfl, rfl, by rw [List.nil_append] at h; exact h.symm⟩
  | cons x xs ih =>
    cases ws with
    | nil => exact absurd h (by simp [consecutive])
    | cons w ws =>
      rw [consecutive_cons, List.cons_append, List.cons.injEq] at h
      obtain ⟨hx, hrest⟩ := h
      obtain ⟨vs, us, rfl, hxs, hys⟩ := ih hrest
      refine ⟨w :: vs, us, rfl, ?_, ?_⟩
      · rw [consecutive_cons, ← hx, ← hxs]
      · rw [hys, List.length_cons, Nat.add_assoc, Nat.add_comm 1]

/-- Where no step runs and no fill, rounds of consecutive words all land. -/
theorem hubWrites_idle (g : Nat) (hg : g < 32) (rounds : List (List (Nat × Nat))) :
    ∀ (held : Bool) (a : Nat) (ws : List Word) (s : State), anyStep s = false → filling s = false →
      consecutive a ws = rounds.flatten → ∃ t, hubWrites g held rounds s = (true, t) ∧ CabWrote g a ws s t := by
  induction rounds with
  | nil =>
    intro held a ws s _ _ h
    have hnil : ws = [] := by
      cases ws with
      | nil => rfl
      | cons w ws => rw [consecutive_cons] at h; exact absurd h (by simp)
    subst hnil
    exact ⟨s, rfl, CabWrote.refl g a s⟩
  | cons xs rounds ih =>
    intro held a ws s hstep hfill h
    rw [List.flatten_cons] at h
    obtain ⟨vs, us, rfl, rfl, hus⟩ := consecutive_append h
    have hcount : CabWrote g a [] s (if held then modCabRegs s g (fun c => { c with hubDefers := bump8 c.hubDefers }) else s) := by
      split
      · exact CabWrote.of_modCabRegs g a _ s hg
      · exact CabWrote.refl g a s
    have hfirst := hcount.trans (CabWrote.of_cabPut g a vs _ hg)
    obtain ⟨t, ht, hwrote⟩ := ih false (a + vs.length) us _ (hfirst.anyStep_false hstep) (hfirst.filling_false hfill) hus.symm
    refine ⟨t, ?_, hfirst.trans hwrote⟩
    rw [hubWrites, hubTurn_idle _ _ _ _ _ hstep hfill]
    exact ht

/-- So does a burst of consecutive words. -/
theorem hubPut_idle (g a : Nat) (hg : g < 32) (held : Bool) (ws : List Word) (s : State) (hstep : anyStep s = false)
    (hfill : filling s = false) : ∃ t, hubPut g held (consecutive a ws) s = (true, t) ∧ CabWrote g a ws s t := by
  obtain ⟨t, ht, hwrote⟩ := hubWrites_idle g hg (bankRounds (fun w => bankOfPa w.1) (consecutive a ws)) held a ws s hstep hfill
    (flatten_bankRounds _ _).symm
  exact ⟨t, by rw [hubPut, ht], hwrote⟩

/-! ### The words of a burst -/

theorem leNat_lt (bs : List Byte) : leNat bs < 256 ^ bs.length := by
  induction bs with
  | nil => exact Nat.one_pos
  | cons b bs ih =>
    have hb : b.toNat < 256 := b.isLt
    rw [leNat, List.length_cons, Nat.pow_succ]
    omega

theorem bytesAt_four_lt (bs : List Byte) (o : Nat) : bytesAt bs o 4 < 2 ^ 32 := by
  have h := leNat_lt ((bs.drop o).take 4)
  have hlen : ((bs.drop o).take 4).length ≤ 4 := List.length_take_le _ _
  calc bytesAt bs o 4 < 256 ^ ((bs.drop o).take 4).length := h
    _ ≤ 256 ^ 4 := Nat.pow_le_pow_right (by omega) hlen
    _ = 2 ^ 32 := by norm_num

theorem wordsOf_length (bs : List Byte) : (wordsOf bs).length = bs.length / 4 := by simp [wordsOf]

/-- The words of a byte string one behind the other, as physical addresses and values. -/
theorem consecutive_wordsOf (a : Nat) (bs : List Byte) : consecutive a (wordsOf bs) =
    (List.range (bs.length / 4)).map (fun i => (a + i, bytesAt bs (4 * i) 4)) := by
  refine List.ext_getElem (by simp [consecutive, wordsOf]) (fun i h1 h2 => ?_)
  simp only [consecutive, wordsOf, List.getElem_mapIdx, List.getElem_map, List.getElem_range, BitVec.toNat_ofNat]
  rw [Nat.mod_eq_of_lt (bytesAt_four_lt bs (4 * i))]

theorem cabWrite_eq (g j off : Nat) (bs : List Byte) (held : Bool) (s : State) : cabWrite g j off bs held s =
    hubPut g held ((List.range (bs.length / 4)).map (fun i => (rgnBase (rgnOf s g j) + off / 4 + i, bytesAt bs (4 * i) 4))) s := by
  rw [← consecutive_wordsOf]
  rfl

/-! ### DMA_BURST -/

/-- A descriptor from host memory after a burst of `n` bytes. -/
def burstDone (p : Progress) (n : Nat) : Progress :=
  { p with held := false, written := p.written + n, status := stOk, ended := decide (p.desc.length ≤ p.written + n) }

section
variable (ch : Nat) (ack : BurstAck) (p : Progress) (s : State) (hr : hubRuns s = true) (hstop : s.dma.stopped = false)
  (hcur : (chanOf s ch).cur = some p) (he : p.ended = false) (ha : p.aborted = false) (hw : p.written < p.desc.length)
include hr hstop hcur he ha hw

theorem doDmaBurst_waits (hwait : burstWaits s (chanOf s ch) p = true) :
    doDmaBurst ch ack s = modChan s ch (fun x => { x with cur := some (countWait s.time.now p) }) := by
  unfold doDmaBurst
  dsimp only
  rw [hcur]
  dsimp only
  rw [hr, hstop, he, ha, hwait, decide_eq_false (Nat.not_le.mpr hw)]
  rfl

theorem doDmaBurst_goes (hwait : burstWaits s (chanOf s ch) p = false) (hcan : burstCan s p = true)
    (hslots : burstSlots s p (burstBytes p) = some s) : doDmaBurst ch ack s =
      if burstRefusal s p ≠ stOk then refuseBurst ch p (burstRefusal s p) s
      else match moveBurst ch p ack s with
        | some s => s
        | .none => modChan s ch (fun x => { x with cur := some { p with held := true } }) := by
  unfold doDmaBurst
  dsimp only
  rw [hcur]
  dsimp only
  rw [hr, hstop, he, ha, hwait, hcan, hslots, decide_eq_false (Nat.not_le.mpr hw)]
  rfl

end

/-- A burst from host memory that asks for no request and no credit is read at once. -/
theorem moveBurst_host (ch : Nat) (p : Progress) (ack : BurstAck) (s : State) (hsrc : p.desc.src = .host) (hline : p.desc.reqLine = 0)
    (hcredit : p.desc.credit = false) : moveBurst ch p ack s =
      match burstWrite ch p 0 (hostGet s (p.desc.srcAddr + p.written) (burstBytes p)) ack s with
      | .none => .none
      | some (w, wst, t) => some (modChan (poisonHost p w (burstBytes p) (if wst = stOk then stOk else wst) t) ch (fun c => { c with
          cur := some { p with
            held := false, written := p.written + w, vread := p.vread, status := if wst = stOk then stOk else wst,
            ended := (if wst = stOk then stOk else wst) != stOk || decide (p.desc.length ≤ p.written + w) } })) := by
  unfold moveBurst burstRead
  dsimp only
  rw [hsrc, hline, hcredit]
  dsimp only
  rfl

theorem poisonHost_host (p : Progress) (done n : Nat) (st : BitVec 16) (s : State) (hsrc : p.desc.src = .host) :
    poisonHost p done n st s = s := by
  unfold poisonHost
  rw [hsrc]
  exact if_neg (by simp)

theorem sealedRefusal_host (s : State) (d : Desc) (hsrc : d.src = .host) : sealedRefusal s d = false := by
  rw [sealedRefusal, sealedCab, sealedExt, hsrc]
  rfl

/-- Settles O38. -/
theorem burstsMoveTheirBytes : Obligations.BurstsMoveTheirBytes := by
  unfold Obligations.BurstsMoveTheirBytes
  intro ch ack p s hr hstop hcur he ha hw hsrc d n bs done
  have hch : ch.toNat < 64 := ch.isLt
  have hn : burstBytes p = n := by
    rw [burstBytes, hsrc]
    rfl
  have hbs : bs.length = n := smRead_length ..
  refine ⟨fun hwait => congrArg Host.Outcome.next (doDmaBurst_waits ch.toNat ack p s hr hstop hcur he ha hw hwait),
    fun hwait hdst hline hcredit => ?_, fun hwait hdst hclock hn4 hline hcredit => ?_⟩
  · have hcan : burstCan s p = true := by rw [burstCan, hsrc, show p.desc.dst = .host from hdst]; rfl
    have hslots : burstSlots s p (burstBytes p) = some s := by rw [burstSlots, hsrc, show p.desc.dst = .host from hdst]; rfl
    have hrefusal : burstRefusal s p = stOk := by
      unfold burstRefusal
      dsimp only
      rw [sealedRefusal_host s _ hsrc, hsrc, show p.desc.dst = .host from hdst]
      simp
    have hgoes := doDmaBurst_goes ch.toNat ack p s hr hstop hcur he ha hw hwait hcan hslots
    rw [hrefusal, if_neg (fun h => h rfl), moveBurst_host _ _ _ _ hsrc hline hcredit, hn] at hgoes
    have hwrite : burstWrite ch.toNat p 0 bs ack s = some (n, stOk, hostPut s (d.dstAddr + p.written) bs) := by
      unfold burstWrite
      dsimp only
      rw [show p.desc.dst = .host from hdst, hbs]
    rw [show hostGet s (p.desc.srcAddr + p.written) n = bs from rfl, hwrite] at hgoes
    dsimp only at hgoes
    rw [poisonHost_host _ _ _ _ _ hsrc] at hgoes
    refine ⟨_, congrArg Host.Outcome.next hgoes, hostGet_hostPut s _ _ _ hbs, fun a hout => ?_, ?_, rfl, rfl, rfl, rfl⟩
    · exact smGet_smPut_out 0 _ a bs _ (by rw [hbs]; exact hout)
    · rw [chanOf_modChan_same _ _ _ hch]
      rfl
  · intro g w q
    have hcan : burstCan s p = true := by
      rw [burstCan, hsrc, show p.desc.dst = .cabinet from hdst]
      rw [hclock]
      rfl
    have hslots : burstSlots s p (burstBytes p) = some s := by rw [burstSlots, hsrc, show p.desc.dst = .cabinet from hdst]; rfl
    have hgoes := doDmaBurst_goes ch.toNat ack p s hr hstop hcur he ha hw hwait hcan hslots
    have hwrite : burstWrite ch.toNat p 0 bs ack s = if q.1 then some (n, stOk, q.2) else .none := by
      unfold burstWrite
      dsimp only
      rw [show p.desc.dst = .cabinet from hdst]
      dsimp only
      rw [hbs, show n / 4 * 4 = n by omega, List.take_of_length_le (by omega), cabWrite_eq, hbs]
      rw [show hubPut (auxGal p.desc.dstAux) p.held ((List.range (n / 4)).map (fun i =>
        (rgnBase (rgnOf s (auxGal p.desc.dstAux) (auxRgn p.desc.dstAux)) + (p.desc.dstAddr + p.written) / 4 + i,
          bytesAt bs (4 * i) 4))) s = q from rfl]
      rcases q with ⟨ok, t⟩
      cases ok <;> rfl
    refine ⟨fun hbad => ?_, fun hok hno => ?_, fun hok hyes => ?_, fun hstep hfill => ?_⟩
    · refine congrArg Host.Outcome.next (hgoes.trans ?_)
      have hplain : ¬(burstRefusal s p = stSealedAccess ∧ sealedCab s p.desc = true) := by
        rintro ⟨-, h⟩
        rw [sealedCab, hsrc] at h
        exact absurd h Bool.false_ne_true
      rw [if_pos hbad, refuseBurst, if_neg hplain]
    · rw [hok, if_neg (fun h => h rfl), moveBurst_host _ _ _ _ hsrc hline hcredit, hn,
        show hostGet s (p.desc.srcAddr + p.written) n = bs from rfl, hwrite, hno, if_neg (by decide)] at hgoes
      exact congrArg Host.Outcome.next hgoes
    · rw [hok, if_neg (fun h => h rfl), moveBurst_host _ _ _ _ hsrc hline hcredit, hn,
        show hostGet s (p.desc.srcAddr + p.written) n = bs from rfl, hwrite, hyes, if_pos rfl] at hgoes
      dsimp only at hgoes
      rw [poisonHost_host _ _ _ _ _ hsrc] at hgoes
      refine ⟨_, congrArg Host.Outcome.next hgoes, rfl, ?_, rfl, rfl, rfl⟩
      rw [chanOf_modChan_same _ _ _ hch]
      rfl
    · obtain ⟨t, ht, hwrote⟩ := hubPut_idle g w (auxGal_lt _) p.held (wordsOf bs) s hstep hfill
      rw [consecutive_wordsOf, hbs] at ht
      have hq : q = (true, t) := ht
      have hlen : (wordsOf bs).length = n / 4 := by rw [wordsOf_length, hbs]
      rw [hq]
      refine ⟨rfl, fun i hi => ?_, fun pa hpa => hwrote.outside pa (by rw [hlen]; exact hpa), hwrote.others,
        (congrArg State.hbm hwrote.beside :), (congrArg State.hostMem hwrote.beside :), (congrArg State.time hwrote.beside :)⟩
      rw [hwrote.inside i (by rw [hlen]; exact hi)]
      simp [wordsOf]

end Sys2Proof.Machine
end

section
/-!
PROOF. Opening messages (12 R264, R265).
-/

namespace Sys2Proof.Machine

/-! ### An ending in the present tick -/

theorem locateAt_frame (t : Tour) (g station cause X : Nat) (s : State) : ∃ n, (locateAt t g station cause X s).2 = { s with freeCount := n } := by
  unfold locateAt
  split
  · exact ⟨s.freeCount + 1, rfl⟩
  · exact ⟨s.freeCount, rfl⟩

theorem endWithin_frame (n : Nat) (t : Tour) (st : BitVec 16) (g station cause : Nat) (s : State) :
    ∃ c ts, endWithin n t st g station cause s = { s with freeCount := c, tours := ts } := by
  unfold endWithin
  dsimp only
  obtain ⟨c, h⟩ := locateAt_frame t g station cause
    (100 * (freeBits 16 s).2.time.now + (freeBits 16 s).2.time.cycle + (freeBits 16 s).1.toNat % max 1 n) (freeBits 16 s).2
  generalize locateAt t g station cause
    (100 * (freeBits 16 s).2.time.now + (freeBits 16 s).2.time.cycle + (freeBits 16 s).1.toNat % max 1 n) (freeBits 16 s).2 = l at h ⊢
  rw [h]
  exact ⟨c, _, rfl⟩

theorem endInTick_frame (t : Tour) (st : BitVec 16) (g station cause : Nat) (s : State) :
    ∃ c ts, endInTick t st g station cause s = { s with freeCount := c, tours := ts } := endWithin_frame _ t st g station cause s

theorem endInTicks_frame (st : BitVec 16) (g station cause : Nat) (l : List Tour) (s : State) :
    ∃ c ts, l.foldl (fun x t => endInTick t st g station cause x) s = { s with freeCount := c, tours := ts } := by
  induction l generalizing s with
  | nil => exact ⟨s.freeCount, s.tours, rfl⟩
  | cons t l ih =>
    obtain ⟨c, ts, h⟩ := endInTick_frame t st g station cause s
    obtain ⟨c', ts', h'⟩ := ih (endInTick t st g station cause s)
    refine ⟨c', ts', h'.trans ?_⟩
    rw [h]

/-! ### Poison -/

theorem poisonRgns_single (st : BitVec 16) (g j : Nat) (s : State) : poisonRgns st [(g, j)] s =
    if (rgnOf s g j).valid then modRgn s g j (poisonRgn st) else s := rfl

theorem cab_modRgn (s : State) (g j : Nat) (f : Region → Region) (hg : g < 32) (x : Nat) :
    (galOf (modRgn s g j f) x).cab = (galOf s x).cab := cab_setRgn s g j x _ hg

/-- A region that is poisoned says so. -/
theorem poisonRgns_single_valid (st : BitVec 16) (g j : Nat) (s : State) (hg : g < 32) (hj : j < 64) (hv : (rgnOf s g j).valid = true) :
    (rgnOf (poisonRgns st [(g, j)] s) g j).poisoned = true ∧ (rgnOf (poisonRgns st [(g, j)] s) g j).poisonCode = st := by
  rw [poisonRgns_single, if_pos hv, modRgn, rgnOf_setRgn_same _ _ _ _ hg hj]
  exact ⟨rfl, rfl⟩

theorem poisonRgns_single_parts (st : BitVec 16) (g j : Nat) (s : State) (hg : g < 32) : besideGals (poisonRgns st [(g, j)] s) = besideGals s ∧
    ∀ x, (galOf (poisonRgns st [(g, j)] s) x).cab = (galOf s x).cab := by
  rw [poisonRgns_single]
  split
  · exact ⟨rfl, cab_modRgn s g j _ hg⟩
  · exact ⟨rfl, fun x => rfl⟩

/-! ### OPENING_MESSAGE -/

/-- A group that discarded a message. -/
def failedGroup (x : Group) : Group := { x with authFails := bump8 x.authFails, failed := true }

/-- A group that took a message. -/
def advancedGroup (m : Opening) (x : Group) : Group :=
  { x with openings := bump8 x.openings, expectSeq := x.expectSeq.set m.sender.toNat (m.seq + 1) }

theorem refuseOpening_frame (slot : Nat) (m : Opening) (s : State) : ∃ c ts, refuseOpening slot m s =
    poisonRgns stAuthFail [(m.gallery.toNat, m.region.toNat)] { modGroup s slot failedGroup with freeCount := c, tours := ts } := by
  obtain ⟨c, ts, h⟩ := endInTicks_frame stAuthFail m.gallery.toNat 0 0
    ((modGroup s slot failedGroup).tours.filter (fun t => t.state == .running && tourNames t m.gallery.toNat m.region.toNat))
    (modGroup s slot failedGroup)
  refine ⟨c, ts, ?_⟩
  rw [← h]
  rfl

theorem openingWords_eq (s : State) (m : Opening) : openingWords s m =
    consecutive (rgnBase (rgnOf s m.gallery.toNat m.region.toNat) + m.offset / 4)
      ((m.data.flatMap id).take (rgnWords (rgnOf s m.gallery.toNat m.region.toNat) - m.offset / 4)) := rfl

section
variable (m : Opening) (k : Nat) (s : State)
  (hfind : (List.range 4).find? (fun i => (groupOf s i).formed && (groupOf s i).groupId == m.groupId) = some k)
include hfind

theorem serveOpening_refused (hbad : openingPasses s k m = false) : serveOpening m false s = (true, refuseOpening k m s) := by
  unfold serveOpening
  rw [hfind]
  dsimp only
  rw [hbad]
  rfl

theorem serveOpening_waits (hok : openingPasses s k m = true) (hcan : hubCanWrite s m.gallery.toNat m.region.toNat = false) :
    serveOpening m false s = (false, s) := by
  unfold serveOpening
  rw [hfind]
  dsimp only
  rw [hok, hcan]
  rfl

theorem serveOpening_port (hok : openingPasses s k m = true) (hcan : hubCanWrite s m.gallery.toNat m.region.toNat = true) :
    serveOpening m false s =
      let q := hubPut m.gallery.toNat false (openingWords s m) s
      if q.1 then (true, modRgn (modGroup q.2 k (advancedGroup m)) m.gallery.toNat m.region.toNat
        (readyRgn (modGroup q.2 k (advancedGroup m)).time.now)) else (false, q.2) := by
  unfold serveOpening
  rw [hfind]
  dsimp only
  rw [hok, hcan, if_neg (by decide), if_neg (by decide)]
  cases (hubPut m.gallery.toNat false (openingWords s m) s).1 <;> rfl

end

theorem hubPut_failed (g : Nat) (held : Bool) (ws : List (Nat × Nat)) (s : State) (h : (hubPut g held ws s).1 = false) :
    (hubPut g held ws s).2 = s := by
  unfold hubPut at h ⊢
  split at h
  · exact absurd h (fun e => Bool.noConfusion e)
  · rfl

theorem doOpening_done (m : Opening) (s t : State) (hr : hubRuns s = true) (hup : anyPortUp s = true)
    (hheld : s.held.any (goesBefore (.opening m false)) = false) (h : serveOpening m false s = (true, t)) : doOpening m s = t := by
  rw [doOpening, hr, hup, hheld, h]
  rfl

theorem doOpening_held (m : Opening) (s : State) (hr : hubRuns s = true) (hup : anyPortUp s = true)
    (hheld : s.held.any (goesBefore (.opening m false)) = false) (h : serveOpening m false s = (false, s)) :
    doOpening m s = { s with held := s.held ++ [.opening m (hubCanWrite s m.gallery.toNat m.region.toNat)] } := by
  rw [doOpening, hr, hup, hheld, h]
  dsimp only
  rw [Bool.not_not]
  rfl

/-- Settles O47. -/
theorem openingsArrive : Obligations.OpeningsArrive := by
  unfold Obligations.OpeningsArrive
  intro m k s hr hup hheld hfind g r q
  have hg : m.gallery.toNat < 32 := m.gallery.isLt
  have hj : m.region.toNat < 64 := m.region.isLt
  have hk : k < 4 := List.mem_range.mp (List.mem_of_find?_eq_some hfind)
  refine ⟨fun hok hcan hyes => ?_, fun hstep hfill => ?_, fun hok hcan hno => ?_, fun hok hcan => ?_, fun hbad => ?_⟩
  · have hserve := serveOpening_port m k s hfind hok hcan
    dsimp only at hserve
    rw [show hubPut m.gallery.toNat false (openingWords s m) s = q from rfl, if_pos hyes] at hserve
    refine ⟨_, congrArg Host.Outcome.next (doOpening_done m s _ hr hup hheld hserve), ?_⟩
    generalize q.2 = t
    refine ⟨?_, ?_, ?_, fun x => cab_modRgn _ _ _ _ hg x, rfl, rfl, rfl⟩
    · rw [modRgn, rgnOf_setRgn_same _ _ _ _ hg hj]
      exact readyRgn_ready _ _
    · show (groupOf (modGroup t k (advancedGroup m)) k).openings = _
      rw [groupOf_modGroup_same _ _ _ hk]
      rfl
    · show (groupOf (modGroup t k (advancedGroup m)) k).expectSeq = _
      rw [groupOf_modGroup_same _ _ _ hk]
      rfl
  · obtain ⟨t, ht, hwrote⟩ := hubPut_idle g (rgnBase r + m.offset / 4) hg false ((m.data.flatMap id).take (rgnWords r - m.offset / 4)) s
      hstep hfill
    have hq : q = (true, t) := ht
    have hlen : ((m.data.flatMap id).take (rgnWords r - m.offset / 4)).length ≤ rgnWords r - m.offset / 4 := List.length_take_le _ _
    rw [hq]
    refine ⟨rfl, (congrArg State.fab hwrote.beside :), (congrArg State.hbm hwrote.beside :), (congrArg State.tours hwrote.beside :),
      fun i hi hin => ?_, fun pa hpa => hwrote.outside pa (by omega), hwrote.others⟩
    rw [hwrote.inside i (by rw [List.length_take]; omega), List.getElem_take, List.getD_eq_getElem _ _ hi]
  · have hserve := serveOpening_port m k s hfind hok hcan
    dsimp only at hserve
    rw [hubPut_failed _ _ _ _ hno, if_neg (by rw [show (hubPut m.gallery.toNat false (openingWords s m) s).1 = false from hno]; decide)]
      at hserve
    have h := doOpening_held m s hr hup hheld hserve
    rw [hcan] at h
    exact congrArg Host.Outcome.next h
  · have h := doOpening_held m s hr hup hheld (serveOpening_waits m k s hfind hok hcan)
    rw [hcan] at h
    exact congrArg Host.Outcome.next h
  · obtain ⟨c, ts, href⟩ := refuseOpening_frame k m s
    have hserve := serveOpening_refused m k s hfind hbad
    rw [href] at hserve
    obtain ⟨hbeside, hcab⟩ := poisonRgns_single_parts stAuthFail m.gallery.toNat m.region.toNat
      { modGroup s k failedGroup with freeCount := c, tours := ts } hg
    have hvalid := poisonRgns_single_valid stAuthFail m.gallery.toNat m.region.toNat
      { modGroup s k failedGroup with freeCount := c, tours := ts } hg hj
    refine ⟨_, congrArg Host.Outcome.next (doOpening_done m s _ hr hup hheld hserve), ?_⟩
    generalize poisonRgns stAuthFail [(m.gallery.toNat, m.region.toNat)] { modGroup s k failedGroup with freeCount := c, tours := ts } = u
      at hbeside hcab hvalid
    have hgroup : groupOf u k = failedGroup (groupOf s k) := by
      rw [groupOf, show u.fab = (modGroup s k failedGroup).fab from (congrArg State.fab hbeside :), ← groupOf,
        groupOf_modGroup_same _ _ _ hk]
    rw [hgroup]
    exact ⟨rfl, rfl, hvalid, hcab, (congrArg State.hbm hbeside :), (congrArg State.hostMem hbeside :)⟩

end Sys2Proof.Machine
end

section
/-!
PROOF. Packets (17 R364 to R366, R370, R371): their window, the hub slots they take, and their way through the module.
-/

namespace Sys2Proof.Machine

/-! ### Accesses of many lines without errors -/

theorem placeLines_frame (near : Nat → List TourBurst) (write : Bool) (ls : List Nat) (s t : State)
    (h : placeLines near write ls s = some t) : ∃ b, t = { s with hbm := { s.hbm with bursts := b } } := by
  induction ls generalizing s with
  | nil => exact ⟨s.hbm.bursts, (Option.some.inj h).symm⟩
  | cons l ls ih =>
    rw [placeLines] at h
    split at h
    · exact ih s h
    · split at h
      · next at_ hslot =>
        obtain ⟨b, hb⟩ := ih _ h
        exact ⟨b, hb⟩
      · exact absurd h (by simp)

/-- A range that takes its hub slots leaves all but the list of bursts. -/
theorem placeRange_frame (a n : Nat) (write : Bool) (s t : State) (h : placeRange a n write s = some t) :
    ∃ b, t = { s with hbm := { s.hbm with bursts := b } } := by
  rw [placeRange] at h
  split at h
  · exact ⟨s.hbm.bursts, (Option.some.inj h).symm⟩
  · exact placeLines_frame _ _ _ _ _ h

theorem readLinesEcc_clean (source n l : Nat) (s : State) (h : CleanHbm s) :
    ∃ ls, readLinesEcc source n l s = (.none, { s with host := { s.host with hostLines := ls } }) := by
  induction n generalizing l s with
  | zero => exact ⟨s.host.hostLines, rfl⟩
  | succ n ih =>
    obtain ⟨hdead, hweak, hnone⟩ := h
    have hsound : readLineEcc source l (snoopLine s l) = (false, snoopLine s l) :=
      readLineEcc_of_sound source l (findRange_of_noRanges (s := snoopLine s l) hnone _)
        (by rw [show (snoopLine s l).hbm = s.hbm from rfl, hdead]; rfl) (by rw [show (snoopLine s l).hbm = s.hbm from rfl, hweak]; rfl)
    obtain ⟨ls, hls⟩ := ih (l + 1) (snoopLine s l) ⟨hdead, hweak, hnone⟩
    refine ⟨ls, ?_⟩
    rw [readLinesEcc, hsound]
    exact hls

/-- A hub read of memory without errors. -/
theorem hubRead_clean (s : State) (a n : Nat) (h : CleanHbm s) :
    ∃ ls, hubRead s a n = (smRead 0 a n s.hbm.mem, .none, { s with host := { s.host with hostLines := ls } }) := by
  rw [hubRead]
  split
  · next hn =>
    subst hn
    exact ⟨s.host.hostLines, rfl⟩
  · obtain ⟨ls, hls⟩ := readLinesEcc_clean 2 (lineOf (a + n - 1) - lineOf a + 1) (lineOf a) s h
    refine ⟨ls, ?_⟩
    rw [hls]
    dsimp only
    rw [hbmGet_of_noRanges h.2.2]

/-! ### PACKET_ARRIVAL -/

section
variable (p : Packet) (s : State) (hr : hubRuns s = true) (hup : anyPortUp s = true) (hdst : p.dst = s.fab.module)
include hr hup hdst

theorem doArrival_hops (hops : p.hops = 64) : doArrival p s = dropHops s := by
  rw [doArrival, hr, hup, hdst, bne_self_eq_false, if_neg (by decide), if_pos hops]

theorem doArrival_dropped (hops : p.hops ≠ 64) (t : State) (h : packetDrop p s = some t) : doArrival p s = t := by
  rw [doArrival, hr, hup, hdst, bne_self_eq_false, if_neg (by decide), if_neg hops, h]

theorem doArrival_behind (hops : p.hops ≠ 64) (h : packetDrop p s = .none)
    (hheld : s.held.any (goesBefore (.packet p (winOf s p.window.toNat) false)) = true) :
    doArrival p s = { s with held := s.held ++ [.packet p (winOf s p.window.toNat) false] } := by
  rw [doArrival, hr, hup, hdst, bne_self_eq_false, if_neg (by decide), if_neg hops, h]
  dsimp only
  rw [if_pos hheld]

theorem doArrival_served (hops : p.hops ≠ 64) (h : packetDrop p s = .none)
    (hheld : s.held.any (goesBefore (.packet p (winOf s p.window.toNat) false)) = false) :
    doArrival p s = if (servePacket p (winOf s p.window.toNat) false s).1 then (servePacket p (winOf s p.window.toNat) false s).2
      else { (servePacket p (winOf s p.window.toNat) false s).2 with
        held := (servePacket p (winOf s p.window.toNat) false s).2.held ++
          [.packet p (winOf s p.window.toNat) (!packetWaits s p (winOf s p.window.toNat))] } := by
  rw [doArrival, hr, hup, hdst, bne_self_eq_false, if_neg (by decide), if_neg hops, h]
  dsimp only
  rw [hheld, if_neg (by decide)]

end

theorem packetDrop_unfit (p : Packet) (s : State) (h : packetFits (winOf s p.window.toNat) p = false) : packetDrop p s =
    some { s with fab := { s.fab with refused := bump8 s.fab.refused, answered := (p.src, stUnreachable, []) :: s.fab.answered } } := by
  rw [packetDrop]
  dsimp only
  rw [h]
  rfl

theorem packetDrop_stale (p : Packet) (s : State) (h : packetFits (winOf s p.window.toNat) p = true)
    (he : p.epoch ≠ (winOf s p.window.toNat).epoch) : packetDrop p s =
      some { s with fab := { s.fab with stale := bump8 s.fab.stale, answered := (p.src, stStaleEpoch, []) :: s.fab.answered } } := by
  rw [packetDrop]
  dsimp only
  rw [h, if_neg (by decide), if_pos (bne_iff_ne.mpr he)]
  rfl

theorem packetDrop_none (p : Packet) (s : State) (h : packetFits (winOf s p.window.toNat) p = true)
    (he : p.epoch = (winOf s p.window.toNat).epoch) : packetDrop p s = .none := by
  rw [packetDrop]
  dsimp only
  rw [h, he, bne_self_eq_false]
  rfl

/-- A packet that READY, a gated clock or the stack's slots keep waiting. -/
theorem servePacket_waits (p : Packet) (w : LoanWindow) (s : State) (hok : packetRefusal s w p = stOk)
    (h : packetHeld s w p.kind = true ∨ (w.cabinet = false ∧ packetSlots s w p = .none)) :
    servePacket p w false s = (false, s) ∧ packetWaits s p w = true := by
  rw [servePacket, hok, if_neg (by decide), if_neg (by decide), packetWaits]
  cases hheld : packetHeld s w p.kind
  · rcases h with h | ⟨hcab, hslots⟩
    · exact absurd (hheld.symm.trans h) (by decide)
    · rw [hcab, hslots]
      exact ⟨rfl, rfl⟩
  · exact ⟨rfl, rfl⟩

/-- A packet of an HBM window that found its slots. -/
theorem servePacket_hbm (p : Packet) (w : LoanWindow) (s t : State) (hcab : w.cabinet = false) (hslots : packetSlots s w p = some t) :
    servePacket p w false s = (true, serveHbm w p t) := by
  have hok : packetRefusal s w p = stOk := by rw [packetRefusal, hcab]; rfl
  have hheld : packetHeld s w p.kind = false := by
    unfold packetHeld
    rw [hcab]
    rfl
  rw [servePacket, hok, hheld, hcab, hslots]
  rfl

theorem countLanded_frame (w : LoanWindow) (p : Packet) (serial length n : Nat) (setReady : Bool) (s : State) (hcab : w.cabinet = false) :
    ∃ l, countLanded w p serial length n setReady s = { s with fab := { s.fab with landed := l } } := by
  rw [countLanded]
  dsimp only
  rw [hcab, Bool.and_false]
  split
  · exact ⟨_, rfl⟩
  · exact ⟨_, rfl⟩

theorem serveHbm_read (w : LoanWindow) (p : Packet) (n : Nat) (s : State) (hk : p.kind = .read n) (h : CleanHbm s) :
    ∃ ls, serveHbm w p s = answerPacket p stOk (smRead 0 (w.addr + p.offset) n s.hbm.mem)
      { s with host := { s.host with hostLines := ls } } := by
  obtain ⟨ls, hls⟩ := hubRead_clean s (w.addr + p.offset) n h
  refine ⟨ls, ?_⟩
  unfold serveHbm
  rw [hk]
  dsimp only
  rw [hls]
  rfl

theorem serveHbm_write (w : LoanWindow) (p : Packet) (bs : List Byte) (serial length : Nat) (rdy : Bool) (s : State)
    (hk : p.kind = .write bs serial length rdy) (hcab : w.cabinet = false) (hred : w.reduce = false) (h : CleanHbm s) :
    ∃ t l, serveHbm w p s = answerPacket p stOk [] { t with fab := { t.fab with landed := l } } ∧
      WroteBytes (w.addr + p.offset) bs s t := by
  obtain ⟨t, ht, hwrote⟩ := hubWrite_clean h (w.addr + p.offset) bs
  obtain ⟨l, hl⟩ := countLanded_frame w p serial length bs.length rdy t hcab
  refine ⟨t, l, ?_, hwrote⟩
  unfold serveHbm
  rw [hk]
  dsimp only
  rw [hred, ht, if_neg (by decide)]
  dsimp only
  rw [if_pos rfl, if_pos rfl, hl]

theorem WroteBytes.smRead_same {a : Nat} {bs : List Byte} {s t : State} (h : WroteBytes a bs s t) :
    smRead 0 a bs.length t.hbm.mem = bs := by
  rw [smRead_congr a bs.length _ _ (fun j _ _ => h.2 j)]
  exact smRead_smPut 0 a bs s.hbm.mem

theorem cleanHbm_bursts (s : State) (b : List (Nat × Nat × Bool)) (h : CleanHbm s) :
    CleanHbm { s with hbm := { s.hbm with bursts := b } } := h

/-! ### PACKET_FORWARD -/

section
variable (p : Packet) (s : State) (hr : hubRuns s = true) (hup : anyPortUp s = true) (hdst : p.dst ≠ s.fab.module)
include hr hup hdst

theorem doForward_hops (hops : p.hops = 64) : doForward p s = dropHops s := by
  rw [doForward, hr, hup, beq_eq_false_iff_ne.mpr hdst, if_neg (by decide), if_pos hops]

theorem doForward_on (hops : p.hops ≠ 64) : doForward p s = (sendPacket { p with hops := p.hops + 1 } s).2 := by
  rw [doForward, hr, hup, beq_eq_false_iff_ne.mpr hdst, if_neg (by decide), if_neg hops]

end

theorem sendPacket_unrouted (p : Packet) (s : State) (h : (routeOf s p.dst.toNat).valid = false) : (sendPacket p s).2 = dropHops s := by
  rw [sendPacket, routePort]
  dsimp only
  rw [h]
  rfl

/-- A frame leaves by a port. -/
def frameSent (k : Nat) (p : Packet) (s : State) : State :=
  let sent : SentPacket := { port := BitVec.ofNat 3 k, nonce := frameNonce k (portOf s k).frameTx, packet := p }
  let s := modPort s k (fun x => { x with credits := x.credits - 1, frameTx := x.frameTx + 1 })
  { s with fab := { s.fab with sent := sent :: s.fab.sent } }

theorem sendPacket_routed (p : Packet) (s : State) (k : Nat) (h : (routeOf s p.dst.toNat).valid = true)
    (hk : (if adaptiveOn s then bestPort s (routeOf s p.dst.toNat).minimal else some (routeOf s p.dst.toNat).dport.toNat) = some k)
    (hc : portCarries s k = true) : (sendPacket p s).2 = frameSent k p s := by
  rw [sendPacket, routePort]
  dsimp only
  rw [h, if_neg (by decide), hk]
  dsimp only
  rw [if_pos hc]
  rfl

/-- Settles O46. -/
theorem packetsTravel : Obligations.PacketsTravel := by
  unfold Obligations.PacketsTravel
  refine ⟨fun p s hr hup hdst hops => ?_, fun p s hr hup hdst hops => congrArg Host.Outcome.next (doArrival_hops p s hr hup hdst hops),
    fun p s hr hup hdst => ?_⟩
  · intro w
    refine ⟨fun hfit => ?_, fun hfit he => ?_, fun hfit he hwait => ?_, fun hfit he hcab hred hslots hheld hdead hweak hnone => ?_⟩
    · exact congrArg Host.Outcome.next (doArrival_dropped p s hr hup hdst hops _ (packetDrop_unfit p s hfit))
    · exact congrArg Host.Outcome.next (doArrival_dropped p s hr hup hdst hops _ (packetDrop_stale p s hfit he))
    · have hnodrop := packetDrop_none p s hfit he
      cases hheld : s.held.any (goesBefore (.packet p w false))
      · rcases hwait with h | ⟨hok, h⟩
        · exact absurd (hheld.symm.trans h) (by decide)
        · obtain ⟨hserve, hwaits⟩ := servePacket_waits p w s hok h
          refine congrArg Host.Outcome.next ((doArrival_served p s hr hup hdst hops hnodrop hheld).trans ?_)
          rw [hserve, hwaits]
          rfl
      · exact congrArg Host.Outcome.next (doArrival_behind p s hr hup hdst hops hnodrop hheld)
    · obtain ⟨x, hx⟩ := Option.isSome_iff_exists.mp hslots
      have hclean : CleanHbm s := ⟨hdead, hweak, hnone⟩
      have hserved := (doArrival_served p s hr hup hdst hops (packetDrop_none p s hfit he) hheld).trans
        (by rw [servePacket_hbm p w s x hcab hx, if_pos rfl])
      refine ⟨fun n hk => ?_, fun bs serial len rdy hk => ?_⟩
      · have hplace : placeRange (w.addr + p.offset) n false s = some x := by rwa [packetSlots, hk] at hx
        obtain ⟨b, rfl⟩ := placeRange_frame _ _ _ _ _ hplace
        obtain ⟨ls, hls⟩ := serveHbm_read w p n _ hk (cleanHbm_bursts s b hclean)
        exact ⟨_, congrArg Host.Outcome.next (hserved.trans hls), rfl, rfl, rfl⟩
      · have hplace : placeRange (w.addr + p.offset) bs.length true s = some x := by rwa [packetSlots, hk] at hx
        obtain ⟨b, rfl⟩ := placeRange_frame _ _ _ _ _ hplace
        obtain ⟨t, l, ht, hwrote⟩ := serveHbm_write w p bs serial len rdy _ hk hcab hred (cleanHbm_bursts s b hclean)
        have hframe := hwrote.1
        refine ⟨_, congrArg Host.Outcome.next (hserved.trans ht), ?_, hwrote.smRead_same, fun a ha => hwrote.outside a ha, ?_, ?_⟩
        · show (p.src, stOk, []) :: t.fab.answered = _
          rw [hframe]
        · show t.gals = s.gals
          rw [hframe]
        · show t.hostMem = s.hostMem
          rw [hframe]
  · intro r
    refine ⟨fun hops => congrArg Host.Outcome.next (doForward_hops p s hr hup hdst hops), fun hops hv => ?_, fun k hops hv hk hc => ?_⟩
    · exact congrArg Host.Outcome.next ((doForward_on p s hr hup hdst hops).trans (sendPacket_unrouted _ s hv))
    · refine ⟨_, congrArg Host.Outcome.next ((doForward_on p s hr hup hdst hops).trans (sendPacket_routed _ s k hv hk hc)), rfl,
        fun hk8 => ?_, fun j hj => ?_, rfl⟩
      · exact congrArg Port.frameTx (portOf_modPort_same s k _ hk8)
      · exact portOf_modPort_other s k j _ hj

end Sys2Proof.Machine
end

section
/-!
PROOF. The steps of a tour: their launch, their readiness and their end (02 R29, R41; 10 R226).
-/

namespace Sys2Proof.Machine

/-! ### What one gallery's change keeps -/

/-- A part of a gallery that a change keeps. -/
theorem galOf_modGal_keeps {α : Type} (proj : Gallery → α) {f : Gallery → Gallery} (hf : ∀ x, proj (f x) = proj x) (s : State) (g k : Nat) :
    proj (galOf (modGal s g f) k) = proj (galOf s k) := by
  by_cases hk : k = g
  · subst hk
    by_cases h : k < 32
    · rw [galOf_modGal_same s k f h, hf]
    · rw [galOf_beyond _ k (Nat.le_of_not_lt h), galOf_beyond _ k (Nat.le_of_not_lt h)]
  · rw [galOf_modGal_other s g k f hk]

/-- A part of a region that a change keeps. -/
theorem rgnOf_modRgn_keeps {α : Type} (proj : Region → α) {f : Region → Region} (hf : ∀ x, proj (f x) = proj x) (s : State) (g j k m : Nat) :
    proj (rgnOf (modRgn s g j f) k m) = proj (rgnOf s k m) := by
  by_cases hg : g < 32
  · by_cases hkm : (k, m) = (g, j)
    · obtain ⟨rfl, rfl⟩ := Prod.mk.inj hkm
      by_cases hj : m < 64
      · rw [modRgn, rgnOf_setRgn_same _ _ _ _ hg hj, hf]
      · have hout : ∀ v : Vector Region 64, vget v m Region.none = Region.none := fun v => by
          simp [vget, Nat.le_of_not_lt hj]
        rw [rgnOf, hout, rgnOf, hout]
    · rw [modRgn, rgnOf_setRgn_other _ _ _ _ _ _ hkm hg]
  · have hout : galOf (modRgn s g j f) k = galOf s k := by
      by_cases hk : k = g
      · rw [galOf_beyond _ k (hk ▸ Nat.le_of_not_lt hg), galOf_beyond _ k (hk ▸ Nat.le_of_not_lt hg)]
      · exact galOf_modGal_other s g k _ hk
    rw [rgnOf, hout, rgnOf]

theorem rgnOf_modGal_keeps {f : Gallery → Gallery} (hf : ∀ x, (f x).regions = x.regions) (s : State) (g k m : Nat) :
    rgnOf (modGal s g f) k m = rgnOf s k m := congrArg (vget · m Region.none) (galOf_modGal_keeps Gallery.regions hf s g k)

@[simp] theorem cab_modRegs (s : State) (g : Nat) (f : GalRegs → GalRegs) (k : Nat) : (galOf (modRegs s g f) k).cab = (galOf s k).cab :=
  galOf_modGal_keeps Gallery.cab (f := fun x => { x with regs := f x.regs }) (fun _ => rfl) s g k

@[simp] theorem cab_modInv (s : State) (g : Nat) (f : InvGal → InvGal) (k : Nat) : (galOf (modInv s g f) k).cab = (galOf s k).cab :=
  galOf_modGal_keeps Gallery.cab (f := fun x => { x with inv := f x.inv }) (fun _ => rfl) s g k

@[simp] theorem cab_modWork (s : State) (g : Nat) (f : Work → Work) (k : Nat) : (galOf (modWork s g f) k).cab = (galOf s k).cab :=
  galOf_modGal_keeps Gallery.cab (f := fun x => { x with work := f x.work }) (fun _ => rfl) s g k

theorem cab_modRgn_any (s : State) (g j : Nat) (f : Region → Region) (k : Nat) : (galOf (modRgn s g j f) k).cab = (galOf s k).cab :=
  galOf_modGal_keeps Gallery.cab (f := fun x => { x with regions := vset x.regions j (f (rgnOf s g j)) }) (fun _ => rfl) s g k

@[simp] theorem rgnOf_modRegs (s : State) (g : Nat) (f : GalRegs → GalRegs) (k m : Nat) : rgnOf (modRegs s g f) k m = rgnOf s k m :=
  rgnOf_modGal_keeps (f := fun x => { x with regs := f x.regs }) (fun _ => rfl) s g k m

@[simp] theorem rgnOf_modInv (s : State) (g : Nat) (f : InvGal → InvGal) (k m : Nat) : rgnOf (modInv s g f) k m = rgnOf s k m :=
  rgnOf_modGal_keeps (f := fun x => { x with inv := f x.inv }) (fun _ => rfl) s g k m

@[simp] theorem rgnOf_modWork (s : State) (g : Nat) (f : Work → Work) (k m : Nat) : rgnOf (modWork s g f) k m = rgnOf s k m :=
  rgnOf_modGal_keeps (f := fun x => { x with work := f x.work }) (fun _ => rfl) s g k m

/-! ### The end of a step -/

/-- READY falls in the first `n` regions of a mask. -/
def releaseMask (n mask g : Nat) (s : State) : State :=
  foldRange n (fun j x => if bitAt mask j then modRgn x g j (fun r => { r with ready := false }) else x) s

theorem ready_releaseMask (mask g : Nat) (s : State) (hg : g < 32) (j : Nat) (hj : j < 64) (hbit : bitAt mask j = true) (n : Nat)
    (hn : j < n) : (rgnOf (releaseMask n mask g s) g j).ready = false := by
  induction n with
  | zero => omega
  | succ n ih =>
    rw [releaseMask, foldRange_succ]
    by_cases hjn : j = n
    · subst hjn
      rw [if_pos hbit, modRgn, rgnOf_setRgn_same _ _ _ _ hg hj]
    · have hlow := ih (by omega)
      split
      · rw [modRgn, rgnOf_setRgn_other _ _ _ _ _ _ (by simpa using hjn) hg]
        exact hlow
      · exact hlow

/-- A part of the state that no region's change touches passes a step's end. -/
theorem completeStep_keeps {α : Type} (proj : State → α) (hrgn : ∀ x g j f, proj (modRgn x g j f) = proj x)
    (hregs : ∀ x g f, (∀ r, (f r).swaps = r.swaps) → proj (modRegs x g f) = proj x) (hwork : ∀ x g f, proj (modWork x g f) = proj x) (g i : Nat) (s : State) :
    proj (completeStep g i s) = proj s := by
  unfold completeStep
  dsimp only
  rw [apply_ite proj, hwork, ite_self, hregs, foldl_keeps proj _ (fun x b => by split; exacts [hrgn .., rfl])]
  · exact foldRange_keeps proj 64 _ (fun j x => by split; exacts [hrgn .., rfl]) s
  · exact fun _ => rfl

theorem cab_completeStep (g i : Nat) (s : State) (k : Nat) : (galOf (completeStep g i s) k).cab = (galOf s k).cab :=
  completeStep_keeps (fun x => (galOf x k).cab) (fun x g j f => cab_modRgn_any x g j f k) (fun x g f _ => cab_modRegs x g f k)
    (fun x g f => cab_modWork x g f k) g i s

theorem tours_completeStep (g i : Nat) (s : State) : (completeStep g i s).tours = s.tours :=
  completeStep_keeps State.tours (fun _ _ _ _ => rfl) (fun _ _ _ _ => rfl) (fun _ _ _ => rfl) g i s

theorem ready_completeStep (g i : Nat) (s : State) (hg : g < 32) (j : Nat) (hj : j < 64)
    (hbit : bitAt (imgStep (fetchedImage s g) i).relMask j = true) : (rgnOf (completeStep g i s) g j).ready = false := by
  have hkeep : ∀ (x : State) (a b : Nat), (rgnOf (modRgn x a b unpoisonRgn) g j).ready = (rgnOf x g j).ready :=
    fun x a b => rgnOf_modRgn_keeps Region.ready (f := unpoisonRgn) (fun _ => rfl) x a b g j
  unfold completeStep
  dsimp only
  rw [apply_ite (fun x => (rgnOf x g j).ready), rgnOf_modWork, ite_self, rgnOf_modRegs, foldl_keeps (fun x => (rgnOf x g j).ready) _ (fun x b => by split; exacts [hkeep .., rfl])]
  exact ready_releaseMask _ g s hg j hj hbit 64 hj

theorem galOf_leaveStep_same (g : Nat) (s : State) (hg : g < 32) : galOf (leaveStep g s) g = { galOf s g with
    regs := { (galOf s g).regs with inStep := false }, inv := { (galOf s g).inv with noted := [] }
    run := .none, winDue := 0, late := false } := by
  rw [leaveStep, galOf_modGal_same _ g _ hg, modInv, galOf_modGal_same _ g _ hg, modRegs, galOf_modGal_same _ g _ hg]

theorem galOf_leaveStep_other (g : Nat) (s : State) (k : Nat) (hk : k ≠ g) : galOf (leaveStep g s) k = galOf s k := by
  rw [leaveStep, galOf_modGal_other _ g k _ hk, modInv, galOf_modGal_other _ g k _ hk, modRegs, galOf_modGal_other _ g k _ hk]

theorem cab_leaveStep (g : Nat) (s : State) (k : Nat) : (galOf (leaveStep g s) k).cab = (galOf s k).cab := by
  rw [leaveStep, galOf_modGal_keeps Gallery.cab (f := fun x => { x with run := .none, winDue := 0, late := false }) (fun _ => rfl),
    cab_modInv, cab_modRegs]

theorem rgnOf_leaveStep (g : Nat) (s : State) (k m : Nat) : rgnOf (leaveStep g s) k m = rgnOf s k m := by
  rw [leaveStep, rgnOf_modGal_keeps (f := fun x => { x with run := .none, winDue := 0, late := false }) (fun _ => rfl), rgnOf_modInv,
    rgnOf_modRegs]

@[simp] theorem tours_leaveStep (g : Nat) (s : State) : (leaveStep g s).tours = s.tours := rfl

theorem settleStep_done (g : Nat) (r : RunStep) (s : State) (hrun : (galOf s g).run = some r) (hdone : stepDone s g s.time.now = true) :
    settleStep g s = leaveStep g (completeStep g r.index s) := by
  rw [settleStep, hrun]
  exact if_pos hdone

@[simp] theorem tours_settleStep (g : Nat) (s : State) : (settleStep g s).tours = s.tours := by
  unfold settleStep
  split
  · split
    · rw [tours_leaveStep, tours_completeStep]
    · rfl
  · rfl

theorem cab_settleStep (g : Nat) (s : State) (k : Nat) : (galOf (settleStep g s) k).cab = (galOf s k).cab := by
  unfold settleStep
  split
  · split
    · rw [cab_leaveStep, cab_completeStep]
    · rfl
  · rfl

/-- Settles O33. -/
theorem stepsEnd_holds : Obligations.StepsEnd := by
  unfold Obligations.StepsEnd
  intro g r s hrun hdone
  have hg : g.toNat < 32 := g.isLt
  have hbeside := besideTours_settleStep g.toNat s
  refine ⟨settleStep g.toNat s, rfl, ?_, ?_, ?_, fun j hj hbit => ?_, cab_settleStep g.toNat s, (congrArg State.hbm hbeside :),
    tours_settleStep g.toNat s, (congrArg State.hostMem hbeside :), (congrArg State.time hbeside :)⟩
  all_goals rw [settleStep_done g.toNat r s hrun hdone]
  · rw [galOf_leaveStep_same _ _ hg]
  · rw [galOf_leaveStep_same _ _ hg]
  · rw [galOf_leaveStep_same _ _ hg]
  · rw [rgnOf_leaveStep]
    exact ready_completeStep g.toNat r.index s hg j hj hbit

/-! ### READINESS_SAMPLE -/

/-- Settles O30. -/
theorem toursSlip : Obligations.ToursSlip := by
  unfold Obligations.ToursSlip
  intro id t s hhub ht hacc halive
  dsimp only
  have hdo : exec (.readinessSample id) s = .next (doReadinessSample id s) := rfl
  have hgate : (!hubRuns s || !tourAccepted t || !tourAlive s t) = false := by rw [hhub, hacc, halive]; rfl
  rw [hdo, doReadinessSample, ht]
  dsimp only
  rw [hgate, if_neg Bool.false_ne_true]
  generalize ((dueSteps s t (s.time.now + 2)).flatMap (fun d => stepNeeds s t d.1 d.2.1 d.2.2)) = needs
  generalize hlate : chargedNeed (needs.filter (fun n => !n.isReady)) = late
  have hnote := tourOf_modTour_same (f := fun x => { x with samples := needs.foldl (fun rows n => noteSample s n rows) x.samples })
    (fun _ => rfl) s id
  rw [ht] at hnote
  cases late with
  | none => exact ⟨_, _, rfl, hnote, rfl, rfl, fun _ => ⟨rfl, rfl⟩, fun n hn => absurd hn (by simp), rfl, rfl, rfl, rfl, rfl⟩
  | some n =>
    have hslip := tourOf_modTour_same (f := fun x => { x with
      slips := vmod x.slips n.cause 0 (· + 1), slipLog := (s.time.now + 2 - tourBase x, slipOf x + 1) :: x.slipLog }) (fun _ => rfl)
      (modTour s id (fun x => { x with samples := needs.foldl (fun rows n => noteSample s n rows) x.samples })) id
    rw [hnote] at hslip
    refine ⟨_, _, rfl, hslip, rfl, rfl, fun h => absurd h (by simp), fun m hm => ?_, rfl, rfl, rfl, rfl, rfl⟩
    obtain rfl := Option.some.inj hm
    exact ⟨rfl, rfl⟩

end Sys2Proof.Machine
end

section
/-!
PROOF. The launch of a step (02 R29, 10 R226, 04 R95).
-/

namespace Sys2Proof.Machine

/-! ### What the launch looks at -/

theorem captureAll_frame (source : Nat) (vs : List Int) (s : State) :
    ∃ us, vs.foldl (fun x v => captureFrom source v x) s = { s with mon := { s.mon with units := us } } := by
  induction vs generalizing s with
  | nil => exact ⟨s.mon.units, rfl⟩
  | cons v vs ih =>
    obtain ⟨us, h⟩ := ih (captureFrom source v s)
    exact ⟨us, h⟩

/-- Two changes of one gallery are one. -/
theorem modGal_modGal (s : State) (g : Nat) (f h : Gallery → Gallery) (hg : g < 32) :
    modGal (modGal s g f) g h = modGal s g (fun x => h (f x)) := by
  have hsame : galOf (modGal s g f) g = f (galOf s g) := galOf_modGal_same s g f hg
  have htwice : ∀ v : Vector Gallery 32, ∀ a b, vset (vset v g a) g b = vset v g b := fun v a b => by
    apply Vector.ext
    intro i hi
    simp only [vset, Vector.getElem_setIfInBounds]
    split <;> rfl
  rw [modGal, hsame, setGal, modGal, setGal, modGal, setGal, htwice]

theorem mkCtx_congr {s t : State} (hper : perDie t = perDie s) (hrgn : rgnOf t = rgnOf s) (g : Nat) (rd : Rd) (st : StepV) :
    mkCtx t g rd st = mkCtx s g rd st := by
  rw [mkCtx, hper, hrgn, mkCtx]

theorem perDie_congr {s t : State} (h : t.fuses = s.fuses) : perDie t = perDie s := by
  rw [perDie, numGal, h, perDie, numGal]

theorem rgnOf_congr {s t : State} (h : t.gals = s.gals) : rgnOf t = rgnOf s := by
  funext g j
  rw [rgnOf, galOf, h, rgnOf, galOf]

theorem imageSealed_congr {s t : State} (hper : perDie t = perDie s) (hrgn : rgnOf t = rgnOf s) (g : Nat) (rd : Rd) :
    imageSealed t g rd = imageSealed s g rd := by
  have hctx : mkCtx t g rd = mkCtx s g rd := funext fun st => mkCtx_congr hper hrgn g rd st
  rw [imageSealed, imageCtxs, hctx, imageSealed, imageCtxs]

theorem readsPoisoned_congr {s t : State} (hrgn : rgnOf t = rgnOf s) (c : Ctx) : readsPoisoned t c = readsPoisoned s c := by
  rw [readsPoisoned, hrgn, readsPoisoned]

theorem rgnOf_modRegs_eq (s : State) (g : Nat) (f : GalRegs → GalRegs) : rgnOf (modRegs s g f) = rgnOf s :=
  funext fun k => funext fun m => rgnOf_modRegs s g f k m

theorem rgnOf_modGal_eq {f : Gallery → Gallery} (hf : ∀ x, (f x).regions = x.regions) (s : State) (g : Nat) :
    rgnOf (modGal s g f) = rgnOf s :=
  funext fun k => funext fun m => rgnOf_modGal_keeps hf s g k m

/-- The run of a step launched now, with nothing under way. -/
def launchedStep (s : State) (t : Tour) (g i : Nat) (st : StepV) : RunStep :=
  { tourId := t.tourId, index := i, launched := s.time.now, duration := st.dur, base := tourBase t, stopped := .none,
    engine := st.engine.map (engTicks s.time.now), secret := imageSealed s g (galImage s t g), sign := s.fab.lockstep.enabled,
    pipe := Pipe.empty }

/-- The gallery in the step that it was launched into. -/
def enteredGal (r : RunStep) (n : Nat) (x : Gallery) : Gallery :=
  { x with regs := { x.regs with inStep := true, step := BitVec.ofNat 16 r.index }, winDue := x.winDue + n, run := some r }

/-- A tour whose step `i` of gallery `g` was launched. -/
def launchedTour (g i : Nat) (st : StepV) (now : Nat) (y : Tour) : Tour :=
  { y with
    next := vset y.next g (i + 1), samples := y.samples.filter (fun w => !(w.gallery == g && w.step == i))
    endTick := if y.status.isNone then max y.endTick (now + ceilDiv st.dur 100) else y.endTick }

/-- The slack of every place that a step needed goes to the capture units. -/
def takeSlacks (t : Tour) (g i : Nat) (s : State) : State :=
  ((t.samples.filter (fun r => r.gallery == g && r.step == i && decide (r.region < 64))).filterMap (·.slack)).foldl
    (fun x v => captureFrom 0x40 v x) s

/-- The state right after the launch, with the step at its first cycle. -/
def launchedState (s : State) (t : Tour) (g i : Nat) (st : StepV) : State :=
  modTour (modGal (takeSlacks t g i s) g (enteredGal (launchedStep s t g i st) (windowSets (mkCtx s g (galImage s t g) st)))) t.tourId
    (launchedTour g i st s.time.now)

theorem takeSlacks_frame (t : Tour) (g i : Nat) (s : State) :
    ∃ us, takeSlacks t g i s = { s with mon := { s.mon with units := us } } := captureAll_frame ..

@[simp] theorem takeSlacks_gals (t : Tour) (g i : Nat) (s : State) : (takeSlacks t g i s).gals = s.gals := by
  obtain ⟨us, h⟩ := takeSlacks_frame t g i s
  rw [h]

theorem doStepLaunch_eq (g : Nat) (s : State) (t : Tour) (i : Nat) (st : StepV) (hg : g < 32) (hrun : runningOn s g = some t)
    (hnext : nextStep s t g = some (i, st)) (hmay : mayLaunch s t g = true) : doStepLaunch g s =
    if readsPoisoned s (mkCtx s g (galImage s t g) st) then
      poisonedLaunch t g (launchedStep s t g i st) (launchedState s t g i st)
    else catchUp g (launchedState s t g i st) := by
  obtain ⟨us, hus⟩ := takeSlacks_frame t g i s
  have hsealed : imageSealed (modRegs (takeSlacks t g i s) g (fun r => { r with inStep := true, step := BitVec.ofNat 16 i })) g
      (galImage s t g) = imageSealed s g (galImage s t g) := by
    refine imageSealed_congr (perDie_congr ?_) ((rgnOf_modRegs_eq ..).trans (rgnOf_congr (takeSlacks_gals t g i s))) g _
    rw [modRegs_fuses, hus]
  have hsign : (modRegs (takeSlacks t g i s) g (fun r => { r with inStep := true, step := BitVec.ofNat 16 i })).fab.lockstep.enabled
      = s.fab.lockstep.enabled := by rw [modRegs_fab, hus]
  have hpoison : readsPoisoned (launchedState s t g i st) (mkCtx s g (galImage s t g) st)
      = readsPoisoned s (mkCtx s g (galImage s t g) st) := by
    refine readsPoisoned_congr ?_ _
    show rgnOf (modGal (takeSlacks t g i s) g _) = rgnOf s
    exact (rgnOf_modGal_eq (f := enteredGal _ _) (fun _ => rfl) ..).trans (rgnOf_congr (takeSlacks_gals t g i s))
  unfold doStepLaunch
  rw [hrun]
  dsimp only
  rw [hnext]
  dsimp only
  refine (if_neg (by rw [hmay]; exact Bool.false_ne_true)).trans ?_
  rw [← takeSlacks.eq_1]
  rw [hsealed, hsign, modRegs, modGal_modGal _ g _ _ hg]
  change (if readsPoisoned (launchedState s t g i st) (mkCtx s g (galImage s t g) st) then
    poisonedLaunch t g (launchedStep s t g i st) (launchedState s t g i st) else catchUp g (launchedState s t g i st)) = _
  rw [hpoison]

/-! ### A launch into a poisoned region -/

@[simp] theorem galOf_modTour (s : State) (id : Quad) (f : Tour → Tour) (k : Nat) : galOf (modTour s id f) k = galOf s k := rfl

/-- A poisoned region is recorded in no fault register. -/
theorem galOf_recordFault_poisoned (e : Exe) (f : Flt) (s : State) (hf : f.status = stRegionPoisoned) (hg : e.c.g < 32) :
    galOf (recordFault e f s) e.c.g = galOf s e.c.g := by
  rw [recordFault, modRegs, galOf_modGal_same _ _ _ hg, hf, if_neg (by decide), if_neg (by decide)]

theorem tours_recordFault (e : Exe) (f : Flt) (s : State) : (recordFault e f s).tours = s.tours := rfl

/-- What a poisoned region's fault leaves of its gallery. -/
theorem galOf_takeFault_poisoned (e : Exe) (f : Flt) (s : State) (hf : f.status = stRegionPoisoned) (hg : e.c.g < 32) :
    galOf (takeFault e f s) e.c.g = { galOf s e.c.g with
      run := (galOf s e.c.g).run.map (fun r => { r with stopped := some stRegionPoisoned }) } := by
  have hcount : countsArith f = false := by rw [countsArith, hf]; rfl
  rw [takeFault, hcount, endEarly_eq, galOf_modTour, galOf_modGal_same _ _ _ hg, if_neg Bool.false_ne_true, galOf_recordFault_poisoned e f s hf hg, hf]

theorem tourOf_takeFault (e : Exe) (f : Flt) (s : State) : tourOf (takeFault e f s) e.tour.tourId =
    (tourOf s e.tour.tourId).map (endedTour f.status
      { step := e.index, gallery := e.c.g, station := f.station, cause := faultCause f, stepCycle := f.cycle }
      (e.launch + f.cycle / 100) (e.launch + f.cycle / 100 + 1)) := by
  rw [takeFault, endEarly_eq, tourOf_modTour_same (keepsId_endedTour _ _ _ _)]
  congr 1
  refine tourOf_congr ?_ _
  split <;> rfl

theorem poisonedLaunch_parts (t : Tour) (g i : Nat) (st : StepV) (s : State) (hg : g < 32) (ht : tourOf s t.tourId = some t)
    (hstatus : t.status = .none) : ∃ y, tourOf (poisonedLaunch t g (launchedStep s t g i st) (launchedState s t g i st)) t.tourId = some y ∧
      y.status = some stRegionPoisoned ∧ y.stopAt = s.time.now + 1 ∧ y.faultAt.stepCycle = 0 := by
  have htours : tourOf (modGal (takeSlacks t g i s) g
      (enteredGal (launchedStep s t g i st) (windowSets (mkCtx s g (galImage s t g) st)))) t.tourId = some t := by
    obtain ⟨us, hus⟩ := takeSlacks_frame t g i s
    rw [← ht]
    exact tourOf_congr (by rw [modGal_tours, hus]) _
  have hlaunched : tourOf (modCabRegs (launchedState s t g i st) g (fun c => { c with poisonFaults := bump8 c.poisonFaults })) t.tourId
      = some (launchedTour g i st s.time.now t) := by
    rw [tourOf_congr (modCabRegs_tours ..), launchedState, tourOf_modTour_same (f := launchedTour g i st s.time.now) (fun _ => rfl), htours]
    rfl
  have hfault := tourOf_takeFault (stepExe (launchedState s t g i st) t g (launchedStep s t g i st))
    { cycle := 0, station := 1, cause := 0, status := stRegionPoisoned }
    (modCabRegs (launchedState s t g i st) g (fun c => { c with poisonFaults := bump8 c.poisonFaults }))
  have hid : (stepExe (launchedState s t g i st) t g (launchedStep s t g i st)).tour.tourId = t.tourId := rfl
  rw [hid, hlaunched, Option.map_some, endedTour_first (show (launchedTour g i st s.time.now t).status = .none from hstatus)] at hfault
  exact ⟨_, hfault, rfl, rfl, rfl⟩

theorem galOf_poisonedLaunch (t : Tour) (g i : Nat) (st : StepV) (s : State) (hg : g < 32) :
    galOf (poisonedLaunch t g (launchedStep s t g i st) (launchedState s t g i st)) g =
      { enteredGal { launchedStep s t g i st with stopped := some stRegionPoisoned } (windowSets (mkCtx s g (galImage s t g) st)) (galOf s g) with
        cabRegs := { (galOf s g).cabRegs with poisonFaults := bump8 (galOf s g).cabRegs.poisonFaults } } := by
  have hentered : galOf (launchedState s t g i st) g =
      enteredGal (launchedStep s t g i st) (windowSets (mkCtx s g (galImage s t g) st)) (galOf s g) := by
    rw [launchedState, galOf_modTour, galOf_modGal_same _ g _ hg, galOf, takeSlacks_gals, ← galOf]
  have hfault := galOf_takeFault_poisoned (stepExe (launchedState s t g i st) t g (launchedStep s t g i st))
    { cycle := 0, station := 1, cause := 0, status := stRegionPoisoned }
    (modCabRegs (launchedState s t g i st) g (fun c => { c with poisonFaults := bump8 c.poisonFaults })) rfl hg
  have hgal : (stepExe (launchedState s t g i st) t g (launchedStep s t g i st)).c.g = g := rfl
  rw [hgal, modCabRegs, galOf_modGal_same _ g _ hg, hentered] at hfault
  exact hfault

/-- Settles O31. -/
theorem stepsLaunch : Obligations.StepsLaunch := by
  unfold Obligations.StepsLaunch
  intro g t i st s hrun hnext hmay
  have hg : g.toNat < 32 := g.isLt
  have hdo : exec (.stepLaunch g) s = .next (doStepLaunch g.toNat s) := rfl
  have heq := doStepLaunch_eq g.toNat s t i st hg hrun hnext hmay
  obtain ⟨us, hus⟩ := takeSlacks_frame t g.toNat i s
  dsimp only
  rw [hdo, heq]
  refine ⟨fun hclean => ?_, fun hpoison hstatus ht => ?_⟩
  · rw [if_neg (by rw [hclean]; exact Bool.false_ne_true)]
    refine ⟨rfl, fun hcycle => ?_⟩
    rw [catchUp, if_pos]
    · rfl
    · rw [launchedState, hus]
      exact hcycle
  · rw [if_pos hpoison]
    obtain ⟨y, hy, hys, hyt, hyf⟩ := poisonedLaunch_parts t g.toNat i st s hg ht hstatus
    have hgal := galOf_poisonedLaunch t g.toNat i st s hg
    exact ⟨_, y, rfl, hy, hys, hyt, hyf, (congrArg Gallery.run hgal :), (congrArg (fun x => x.cabRegs.poisonFaults) hgal :),
      (congrArg Gallery.cab hgal :)⟩

end Sys2Proof.Machine
end

section
/-!
PROOF. What the halt of a tour changes, and the start of tours (02 R24; 08 R164; 10 R214, R215).
-/

namespace Sys2Proof.Machine

/-! ### What a halt keeps -/

section
variable {α : Type} (proj : State → α) (hrgn : ∀ x g j f, proj (modRgn x g j f) = proj x)
  (hregs : ∀ x g f, (∀ r, (f r).swaps = r.swaps) → proj (modRegs x g f) = proj x) (hwork : ∀ x g f, proj (modWork x g f) = proj x)
  (hleave : ∀ g x, proj (leaveStep g x) = proj x)
include hrgn hregs hwork hleave

theorem settleStep_keeps (g : Nat) (s : State) : proj (settleStep g s) = proj s := by
  unfold settleStep
  split
  · split
    · rw [hleave, completeStep_keeps proj hrgn hregs hwork]
    · rfl
  · rfl

variable (htour : ∀ x id f, proj (modTour x id f) = proj x)
include htour

theorem haltGallery_keeps (t : Tour) (st : BitVec 16) (g : Nat) (s : State) : proj (haltGallery t st g s) = proj s := by
  have hpoison : ∀ ps x, proj (poisonRgns st ps x) = proj x :=
    fun ps x => foldl_keeps proj _ (fun y p => by split; exacts [hrgn .., rfl]) ps x
  unfold haltGallery
  dsimp only
  simp only [apply_ite proj, hwork, hleave, htour, hpoison, settleStep_keeps proj hrgn hregs hwork hleave, ite_self]

theorem haltTour_keeps (id : Quad) (s : State) : proj (haltTour id s) = proj s := by
  unfold haltTour
  split
  · rfl
  · split
    · rfl
    · split
      · rfl
      · rw [htour, apply_ite proj, foldl_keeps proj _ (fun x g => haltGallery_keeps proj hrgn hregs hwork hleave htour _ _ g x), ite_self]

end

/-- The part of a gallery that an exchange of its banks is about. -/
def bankView (x : Gallery) : Bool × Bank × Bank × BitVec 8 := (x.active1, x.bank0, x.bank1, x.regs.swaps)

theorem bankView_modRegs (s : State) (g : Nat) (f : GalRegs → GalRegs) (hf : ∀ r, (f r).swaps = r.swaps) (k : Nat) :
    bankView (galOf (modRegs s g f) k) = bankView (galOf s k) :=
  galOf_modGal_keeps bankView (f := fun x => { x with regs := f x.regs }) (fun x => by rw [bankView, hf]; rfl) s g k

theorem bankView_modRgn (s : State) (g j : Nat) (f : Region → Region) (k : Nat) :
    bankView (galOf (modRgn s g j f) k) = bankView (galOf s k) :=
  galOf_modGal_keeps bankView (f := fun x => { x with regions := vset x.regions j (f (rgnOf s g j)) }) (fun _ => rfl) s g k

theorem bankView_modWork (s : State) (g : Nat) (f : Work → Work) (k : Nat) : bankView (galOf (modWork s g f) k) = bankView (galOf s k) :=
  galOf_modGal_keeps bankView (f := fun x => { x with work := f x.work }) (fun _ => rfl) s g k

theorem bankView_leaveStep (g : Nat) (s : State) (k : Nat) : bankView (galOf (leaveStep g s) k) = bankView (galOf s k) := by
  rw [leaveStep, galOf_modGal_keeps bankView (f := fun x => { x with run := .none, winDue := 0, late := false }) (fun _ => rfl),
    modInv, galOf_modGal_keeps bankView (f := fun x => { x with inv := { x.inv with noted := [] } }) (fun _ => rfl),
    bankView_modRegs _ _ (fun r => { r with inStep := false }) (fun _ => rfl)]

theorem bankView_settleStep (g : Nat) (s : State) (k : Nat) : bankView (galOf (settleStep g s) k) = bankView (galOf s k) :=
  settleStep_keeps (fun x => bankView (galOf x k)) (fun x g j f => bankView_modRgn x g j f k) (fun x g f hf => bankView_modRegs x g f hf k)
    (fun x g f => bankView_modWork x g f k) (fun g x => bankView_leaveStep g x k) g s

theorem bankView_haltTour (id : Quad) (s : State) (k : Nat) : bankView (galOf (haltTour id s) k) = bankView (galOf s k) :=
  haltTour_keeps (fun x => bankView (galOf x k)) (fun x g j f => bankView_modRgn x g j f k) (fun x g f hf => bankView_modRegs x g f hf k)
    (fun x g f => bankView_modWork x g f k) (fun g x => bankView_leaveStep g x k) (fun _ _ _ => rfl) id s

/-! ### The tours of a halt -/

/-- A tour with the regions noted that its end with DEADLINE_MISSED poisons. -/
def noteMissed (ws : List (Nat × Nat)) (x : Tour) : Tour := { x with missed := ws ++ x.missed }

/-- One tour has changed, and no other. -/
structure OneTour (id : Quad) (f : Tour → Tour) (s u : State) : Prop where
  same : tourOf u id = (tourOf s id).map f
  other : ∀ k, k ≠ id → tourOf u k = tourOf s k

theorem OneTour.of_tours {id : Quad} {s u : State} (h : u.tours = s.tours) : OneTour id (fun x => x) s u :=
  ⟨by rw [tourOf_congr h, Option.map_id'], fun k _ => tourOf_congr h k⟩

theorem oneTour_modTour {f : Tour → Tour} (hf : KeepsId f) (id : Quad) (s : State) : OneTour id f s (modTour s id f) :=
  ⟨tourOf_modTour_same hf s id, fun k hk => tourOf_modTour_other hf s id k hk⟩

theorem OneTour.trans {id : Quad} {f h : Tour → Tour} {s u v : State} (a : OneTour id f s u) (b : OneTour id h u v) :
    OneTour id (fun x => h (f x)) s v :=
  ⟨by rw [b.same, a.same, Option.map_map]; rfl, fun k hk => (b.other k hk).trans (a.other k hk)⟩

theorem OneTour.congr {id : Quad} {f : Tour → Tour} {s t u v : State} (a : OneTour id f s u) (hs : t.tours = s.tours) (hu : v.tours = u.tours) :
    OneTour id f t v :=
  ⟨by rw [tourOf_congr hu, a.same, tourOf_congr hs], fun k hk => by rw [tourOf_congr hu, a.other k hk, tourOf_congr hs]⟩

theorem tours_poisonRgns (st : BitVec 16) (ps : List (Nat × Nat)) (s : State) : (poisonRgns st ps s).tours = s.tours :=
  foldl_keeps State.tours _ (fun x p => by split <;> rfl) ps s

theorem oneTour_haltGallery (t : Tour) (st : BitVec 16) (g : Nat) (s : State) :
    ∃ ws, OneTour t.tourId (noteMissed ws) s (haltGallery t st g s) ∧ (st ≠ stDeadlineMissed → ws = []) := by
  unfold haltGallery
  dsimp only
  by_cases hst : st = stDeadlineMissed
  · rw [if_pos hst]
    generalize writesFrom (settleStep g s) t g _ = ws
    refine ⟨ws, (oneTour_modTour (f := noteMissed ws) (fun _ => rfl) t.tourId (poisonRgns st ws (settleStep g s))).congr ?_ ?_,
      fun h => absurd hst h⟩
    · rw [tours_poisonRgns, tours_settleStep]
    · simp only [apply_ite State.tours, modWork_tours, tours_leaveStep, ite_self]
      rfl
  · rw [if_neg hst]
    refine ⟨[], (OneTour.of_tours ?_), fun _ => rfl⟩
    simp only [apply_ite State.tours, modWork_tours, tours_leaveStep, tours_poisonRgns, tours_settleStep, ite_self]

/-- What the galleries' stop notes with a tour. -/
theorem oneTour_haltGals (t : Tour) (st : BitVec 16) (gs : List Nat) (s : State) :
    ∃ ws, OneTour t.tourId (noteMissed ws) s (gs.foldl (fun x g => haltGallery t st g x) s) ∧ (st ≠ stDeadlineMissed → ws = []) := by
  induction gs generalizing s with
  | nil => exact ⟨[], OneTour.of_tours rfl, fun _ => rfl⟩
  | cons g gs ih =>
    obtain ⟨ws, h, hws⟩ := oneTour_haltGallery t st g s
    obtain ⟨vs, h', hvs⟩ := ih (haltGallery t st g s)
    refine ⟨vs ++ ws, ?_, fun hst => by rw [hws hst, hvs hst]; rfl⟩
    have hboth : noteMissed (vs ++ ws) = fun x => noteMissed vs (noteMissed ws x) := by
      funext x
      simp [noteMissed]
    rw [hboth]
    exact h.trans h'

/-- A tour whose galleries have stopped. -/
def haltedTour (ws : List (Nat × Nat)) (x : Tour) : Tour := { noteMissed ws x with halted := true }

/-- The halt of a tour that has ended and has not stopped yet. -/
theorem oneTour_haltTour (id : Quad) (s : State) (t : Tour) (st : BitVec 16) (ht : tourOf s id = some t) (hst : t.status = some st)
    (hh : t.halted = false) : ∃ ws, OneTour id (haltedTour ws) s (haltTour id s) ∧ (st ≠ stDeadlineMissed → ws = []) := by
  obtain rfl := tourId_of_tourOf ht
  have hnote : ∃ ws, OneTour t.tourId (noteMissed ws) s (if t.state = .running ∨ st = stDeadlineMissed
      then (maskList t.mask).foldl (fun x g => haltGallery t st g x) s else s) ∧ (st ≠ stDeadlineMissed → ws = []) := by
    split
    · exact oneTour_haltGals t st _ s
    · exact ⟨[], OneTour.of_tours rfl, fun _ => rfl⟩
  obtain ⟨ws, hone, hws⟩ := hnote
  refine ⟨ws, ?_, hws⟩
  rw [haltTour, ht]
  dsimp only
  rw [hst]
  dsimp only
  rw [hh, if_neg Bool.false_ne_true]
  exact hone.trans (oneTour_modTour (f := fun x => { x with halted := true }) (fun _ => rfl) t.tourId _)

/-- A halt does nothing to a tour that runs on or has stopped. -/
theorem haltTour_quiet (id : Quad) (s : State) (h : ∀ t, tourOf s id = some t → t.status = .none ∨ t.halted = true) : haltTour id s = s := by
  unfold haltTour
  split
  · rfl
  · next t ht =>
    split
    · rfl
    · next st hst =>
      rcases h t ht with hn | hn
      · rw [hn] at hst; exact absurd hst (by simp)
      · rw [hn, if_pos rfl]

/-- The halt of a tour notes what it stopped, and changes nothing else of it, and no other tour. -/
theorem haltTour_oneTour (id : Quad) (s : State) : ∃ (h : Tour → Bool) (ws : List (Nat × Nat)), OneTour id (fun x => { x with halted := h x, missed := ws ++ x.missed }) s (haltTour id s) := by
  by_cases hq : ∀ t, tourOf s id = some t → t.status = .none ∨ t.halted = true
  · rw [haltTour_quiet id s hq]
    exact ⟨Tour.halted, [], OneTour.of_tours rfl⟩
  · push Not at hq
    obtain ⟨t, ht, hst, hh⟩ := hq
    obtain ⟨st, hst⟩ := Option.ne_none_iff_exists'.mp hst
    obtain ⟨ws, hone, -⟩ := oneTour_haltTour id s t st ht hst (by simpa using hh)
    exact ⟨fun _ => true, ws, hone⟩

theorem tourOf_haltTour_other (id : Quad) (s : State) (k : Quad) (hk : k ≠ id) : tourOf (haltTour id s) k = tourOf s k := by
  obtain ⟨h, ws, hone⟩ := haltTour_oneTour id s
  exact hone.other k hk

/-! ### The exchange of the banks -/

/-- An earlier tour that is not through ends with DEADLINE_MISSED before the exchange. -/
def endUnfinished (t o : Tour) (x : State) : State :=
  if tourAlive x o && (maskList t.mask).any (fun g => unfinishedOn x o g) then
    endEarly o.tourId stDeadlineMissed (causeOnly 6) x.time.now x.time.now x
  else x

theorem tourOf_endUnfinished (t o : Tour) (x : State) (h : t.tourId ≠ o.tourId) :
    tourOf (endUnfinished t o x) t.tourId = tourOf x t.tourId := by
  unfold endUnfinished
  split
  · rw [endEarly_eq, tourOf_modTour_other (keepsId_endedTour _ _ _ _) _ _ _ h]
  · rfl

theorem galOf_endUnfinished (t o : Tour) (x : State) (k : Nat) : galOf (endUnfinished t o x) k = galOf x k := by
  unfold endUnfinished
  split
  · rfl
  · rfl

theorem endAllUnfinished_parts (t : Tour) (l : List Tour) (x : State) (hl : ∀ o ∈ l, o.tourId ≠ t.tourId) :
    tourOf (l.foldl (fun x o => haltTour o.tourId (endUnfinished t o x)) x) t.tourId = tourOf x t.tourId ∧
    ∀ k, bankView (galOf (l.foldl (fun x o => haltTour o.tourId (endUnfinished t o x)) x) k) = bankView (galOf x k) := by
  induction l generalizing x with
  | nil => exact ⟨rfl, fun _ => rfl⟩
  | cons o l ih =>
    obtain ⟨hmine, hbank⟩ := ih (haltTour o.tourId (endUnfinished t o x)) (fun p hp => hl p (List.mem_cons_of_mem _ hp))
    have ho := (hl o List.mem_cons_self).symm
    refine ⟨hmine.trans ?_, fun k => (hbank k).trans ?_⟩
    · rw [tourOf_haltTour_other _ _ _ ho, tourOf_endUnfinished t o x ho]
    · rw [bankView_haltTour, galOf_endUnfinished]

theorem endEarlier_parts (t : Tour) (s : State) : tourOf (endEarlier t s) t.tourId = tourOf s t.tourId ∧
    ∀ k, bankView (galOf (endEarlier t s) k) = bankView (galOf s k) := by
  unfold endEarlier
  dsimp only
  generalize hv : (maskList t.mask).foldl (fun x g => settleStep g x) s = v
  have htours : v.tours = s.tours := by rw [← hv]; exact foldl_keeps State.tours _ (fun x g => tours_settleStep g x) _ s
  have hbanks : ∀ k, bankView (galOf v k) = bankView (galOf s k) := fun k => by
    rw [← hv]
    exact foldl_keeps (fun x => bankView (galOf x k)) _ (fun x g => bankView_settleStep g x k) _ s
  have hlist : ∀ o ∈ v.tours.filter (fun o => o.tourId != t.tourId && o.state == .running && (maskList t.mask).any (fun g => o.mask.getLsbD g)),
      o.tourId ≠ t.tourId := fun o ho => by
    have hcond := List.of_mem_filter ho
    simp only [Bool.and_eq_true, bne_iff_ne, ne_eq] at hcond
    exact hcond.1.1
  obtain ⟨hmine, hbank⟩ := endAllUnfinished_parts t _ v hlist
  exact ⟨hmine.trans (tourOf_congr htours _), fun k => (hbank k).trans (hbanks k)⟩

theorem tourOf_leaveBank (t : Tour) (g : Nat) (s : State) : tourOf (leaveBank t g s) t.tourId = tourOf s t.tourId := by
  rw [tourOf, leaveBank, List.find?_map, tourOf]
  have hp : (fun o : Tour => o.tourId == t.tourId) ∘ (fun o => if o.tourId != t.tourId && o.mask.getLsbD g && holdsActive o g then
      { o with away := o.away ||| ((1 : BitVec 32) <<< g), kept := (g, (activeBank (galOf s g)).counters) :: o.kept } else o) =
      fun o => o.tourId == t.tourId := by
    funext o
    dsimp only [Function.comp]
    split <;> rfl
  rw [hp]
  cases h : s.tours.find? (fun o => o.tourId == t.tourId) with
  | none => rfl
  | some o =>
    have ho : (o.tourId != t.tourId) = false := by simpa using List.find?_some h
    rw [Option.map_some, ho]
    rfl

theorem tourOf_exchangeGal (t : Tour) (g : Nat) (s : State) : tourOf (exchangeGal t g s) t.tourId = tourOf s t.tourId :=
  (tourOf_congr (show (exchangeGal t g s).tours = (leaveBank t g s).tours from rfl) _).trans (tourOf_leaveBank t g s)

theorem galOf_exchangeGal_other (t : Tour) (g : Nat) (s : State) (k : Nat) (hk : k ≠ g) : galOf (exchangeGal t g s) k = galOf s k := by
  unfold exchangeGal
  dsimp only
  rw [modRegs, galOf_modGal_other _ g k _ hk, galOf_modGal_other _ g k _ hk]
  rfl

/-- Gallery `y` is gallery `x` after its exchange of the banks for a tour. -/
structure Exchanged (t : Tour) (x y : Gallery) : Prop where
  active : y.active1 = !x.active1
  work : y.work = Work.zero
  run : y.run = .none
  relay : y.relay = []
  inbox : y.inbox = []
  inStep : y.regs.inStep = false
  clear : y.regs.stateClear = true
  swaps : y.regs.swaps = bump8 x.regs.swaps
  bank : insertedRestore t = false → activeBank y = { inactiveBank x with
    status := .active, counters := if t.restore.isSome then CounterSet.zero else (inactiveBank x).counters }

/-- An exchange looks at nothing of a gallery but its banks and BANK_SWAPS. -/
theorem Exchanged.of_bankView {t : Tour} {x x' y : Gallery} (h : Exchanged t x' y) (hx : bankView x' = bankView x) : Exchanged t x y := by
  obtain ⟨hactive, hzero, hone, hswaps⟩ : x'.active1 = x.active1 ∧ x'.bank0 = x.bank0 ∧ x'.bank1 = x.bank1 ∧ x'.regs.swaps = x.regs.swaps := by
    simpa [bankView] using hx
  have hinactive : inactiveBank x' = inactiveBank x := by rw [inactiveBank, hactive, hzero, hone, inactiveBank]
  exact { h with active := hactive ▸ h.active, swaps := hswaps ▸ h.swaps, bank := fun hi => hinactive ▸ h.bank hi }

theorem exchanged_exchangeGal (t : Tour) (g : Nat) (s : State) (hg : g < 32) : Exchanged t (galOf s g) (galOf (exchangeGal t g s) g) := by
  have hleave : galOf (leaveBank t g s) g = galOf s g := rfl
  unfold exchangeGal
  dsimp only
  rw [modRegs, galOf_modGal_same _ g _ hg, galOf_modGal_same _ g _ hg, hleave]
  generalize galOf s g = x
  by_cases hi : insertedRestore t = true
  · rw [hi, if_pos rfl]
    refine ⟨?_, rfl, rfl, rfl, rfl, rfl, rfl, ?_, fun h => absurd (hi.symm.trans h) (by decide)⟩
    · cases hx : x.active1 <;> simp [modInactive, hx]
    · cases hx : x.active1 <;> simp [modInactive, hx]
  · rw [eq_false_of_ne_true hi, if_neg Bool.false_ne_true]
    refine ⟨?_, rfl, rfl, rfl, rfl, rfl, rfl, ?_, fun _ => ?_⟩
    · cases hx : x.active1 <;> simp [modInactive, modActive, hx]
    · cases hx : x.active1 <;> simp [modInactive, modActive, hx]
    · cases hx : x.active1 <;> simp [modInactive, modActive, inactiveBank, activeBank, hx]

/-- Every gallery of a list without repetition exchanges its banks once. -/
theorem exchangeAll_parts (t : Tour) (gs : List Nat) (s : State) (hnodup : gs.Nodup) (hlt : ∀ g ∈ gs, g < 32) :
    tourOf (gs.foldl (fun x g => exchangeGal t g x) s) t.tourId = tourOf s t.tourId ∧
    (∀ k, k ∉ gs → galOf (gs.foldl (fun x g => exchangeGal t g x) s) k = galOf s k) ∧
    ∀ g ∈ gs, Exchanged t (galOf s g) (galOf (gs.foldl (fun x g => exchangeGal t g x) s) g) := by
  induction gs generalizing s with
  | nil => exact ⟨rfl, fun _ _ => rfl, fun g hg => absurd hg List.not_mem_nil⟩
  | cons g gs ih =>
    obtain ⟨hg, hrest⟩ := List.nodup_cons.mp hnodup
    obtain ⟨htour, hother, hex⟩ := ih (exchangeGal t g s) hrest (fun k hk => hlt k (List.mem_cons_of_mem _ hk))
    refine ⟨htour.trans (tourOf_exchangeGal t g s), fun k hk => ?_, fun k hk => ?_⟩
    · obtain ⟨hne, hnot⟩ := not_or.mp (List.mem_cons.not.mp hk)
      exact (hother k hnot).trans (galOf_exchangeGal_other t g s k hne)
    · rcases List.mem_cons.mp hk with rfl | hmem
      · rw [List.foldl_cons, hother k hg]
        exact exchanged_exchangeGal t k s (hlt k List.mem_cons_self)
      · have hne : k ≠ g := fun h => hg (h ▸ hmem)
        have hk' := hex k hmem
        rwa [galOf_exchangeGal_other t g s k hne] at hk'

theorem maskList_nodup (m : BitVec 32) : (maskList m).Nodup := List.Nodup.filter _ List.nodup_range

theorem mem_maskList (m : BitVec 32) (g : Nat) : g ∈ maskList m ↔ g < 32 ∧ m.getLsbD g = true := by
  rw [maskList, List.mem_filter, List.mem_range]

/-! ### The start -/

/-- The comparisons of a Restoration's streams are drawn into its tour. -/
theorem drawChecks_parts (id : Quad) (s : State) : (drawChecks id s).gals = s.gals ∧
    ∃ f : Tour → Option RestoreJob, OneTour id (fun x => { x with restore := f x }) s (drawChecks id s) := by
  unfold drawChecks
  split
  · next t ht =>
    split
    · next j hj =>
      exact ⟨rfl, _, (oneTour_modTour (f := fun x => { x with restore := some _ }) (fun _ => rfl) id _).congr rfl rfl⟩
    · exact ⟨rfl, Tour.restore, OneTour.of_tours rfl⟩
  · exact ⟨rfl, Tour.restore, OneTour.of_tours rfl⟩

/-- The tour at its start. -/
def startedTour (x : Tour) : Tour := { x with state := .running, endTick := if x.restore.isSome then x.start + x.budget else x.start }

/-- The state after the exchange of a tour's banks, with the tour running. -/
def startedState (t : Tour) (s : State) : State :=
  modTour ((maskList t.mask).foldl (fun x g => exchangeGal t g x) (endEarlier t s)) t.tourId startedTour

theorem startedState_parts (t : Tour) (s : State) (ht : tourOf s t.tourId = some t) :
    tourOf (startedState t s) t.tourId = some (startedTour t) ∧
    ∀ g < 32, t.mask.getLsbD g = true → Exchanged t (galOf s g) (galOf (startedState t s) g) := by
  obtain ⟨htour, hbank⟩ := endEarlier_parts t s
  obtain ⟨htour', -, hex⟩ := exchangeAll_parts t (maskList t.mask) (endEarlier t s) (maskList_nodup _) (fun g hg => ((mem_maskList _ g).mp hg).1)
  refine ⟨?_, fun g hg hbit => (hex g ((mem_maskList _ g).mpr ⟨hg, hbit⟩)).of_bankView (hbank g)⟩
  rw [startedState, tourOf_modTour_same (f := startedTour) (fun _ => rfl), htour', htour, ht]
  rfl

section
variable (id : Quad) (t : Tour) (s : State) (hhub : hubRuns (endAwaited id s) = true) (ht : tourOf (endAwaited id s) id = some t)
  (hstate : t.state = .accepted) (hstart : t.start = (endAwaited id s).time.now)
include hhub ht hstate hstart

/-- A tour that has ended already does not start. -/
theorem doTourStart_ended (hst : t.status ≠ .none) : doTourStart id s = endAwaited id s := by
  rw [doTourStart, ht]
  dsimp only
  rw [if_pos (by simp [Option.isSome_iff_ne_none.mpr hst])]

variable (hst : t.status = .none)
include hst

theorem doTourStart_emergency (he : (endAwaited id s).power.emergency = true) : doTourStart id s =
    endEarly id (endAwaited id s).power.emergencyCode (causeOnly 0) (endAwaited id s).time.now (endAwaited id s).time.now (endAwaited id s) := by
  rw [doTourStart, ht]
  dsimp only
  rw [if_neg (by simp [hhub, hstate, hst, hstart]), if_pos he]

variable (he : (endAwaited id s).power.emergency = false)
include he

theorem doTourStart_awaited (st : BitVec 16) (f : FaultAt) (tick : Nat) (ha : awaitedFault (endAwaited id s) t = some (st, f, tick)) :
    doTourStart id s = endEarly id st f tick (endAwaited id s).time.now (endAwaited id s) := by
  rw [doTourStart, ht]
  dsimp only
  rw [if_neg (by simp [hhub, hstate, hst, hstart]), if_neg (by simp [he]), ha]

variable (ha : awaitedFault (endAwaited id s) t = .none)
include ha

theorem doTourStart_lost (g : Nat) (hl : lostIsland (endAwaited id s) t = some g) :
    doTourStart id s = endEarly id stLateRelease (locateAt t g 0 7 (100 * (endAwaited id s).time.now) (endAwaited id s)).1
      (endAwaited id s).time.now (endAwaited id s).time.now (locateAt t g 0 7 (100 * (endAwaited id s).time.now) (endAwaited id s)).2 := by
  rw [doTourStart, ht]
  dsimp only
  rw [if_neg (by simp [hhub, hstate, hst, hstart]), if_neg (by simp [he]), ha, hl]

theorem doTourStart_runs (hl : lostIsland (endAwaited id s) t = .none) : ∃ f : Tour → Option RestoreJob,
    (doTourStart id s).gals = (startedState t (endAwaited id s)).gals ∧
    tourOf (doTourStart id s) id = (tourOf (startedState t (endAwaited id s)) id).map (fun x => { x with restore := f x }) := by
  obtain rfl := tourId_of_tourOf ht
  rw [doTourStart, ht]
  dsimp only
  rw [if_neg (by simp [hhub, hstate, hst, hstart]), if_neg (by simp [he]), ha, hl]
  dsimp only
  split
  · obtain ⟨hgals, f, hone⟩ := drawChecks_parts t.tourId
      { startedState t (endAwaited t.tourId s) with rst := { (startedState t (endAwaited t.tourId s)).rst with running := true } }
    exact ⟨f, hgals, hone.same⟩
  · exact ⟨Tour.restore, rfl, (OneTour.of_tours rfl).same⟩

end

theorem locateAt_gallery (t : Tour) (g station cause X : Nat) (s : State) : (locateAt t g station cause X s).1.gallery = g ∧
    (locateAt t g station cause X s).1.cause = cause := by
  unfold locateAt
  split
  · exact ⟨rfl, rfl⟩
  · exact ⟨rfl, rfl⟩

theorem tourOf_endEarly_first (id : Quad) (st : BitVec 16) (loc : FaultAt) (tick stop : Nat) (s : State) (t : Tour)
    (ht : tourOf s id = some t) (hst : t.status = .none) : tourOf (endEarly id st loc tick stop s) id =
      some { t with status := some st, faultAt := loc, endTick := tick, stopAt := stop } := by
  rw [endEarly_eq, tourOf_modTour_same (keepsId_endedTour _ _ _ _), ht, Option.map_some, endedTour_first hst]

/-- Settles O29. -/
theorem toursStart : Obligations.ToursStart := by
  unfold Obligations.ToursStart
  intro id t s
  dsimp only
  intro hhub ht hstate hstart
  have hdo : exec (.tourStart id) s = .next (doTourStart id (stageFor id s)) := rfl
  rw [hdo]
  generalize stageFor id s = w at *
  refine ⟨fun hst => by rw [doTourStart_ended id t w hhub ht hstate hstart hst], fun hst => ⟨_, rfl, fun he ha hl => ?_, fun he => ?_,
    fun he st f tick ha => ?_, fun he ha g hl => ?_⟩⟩
  · obtain ⟨f, hgals, htour⟩ := doTourStart_runs id t w hhub ht hstate hstart hst he ha hl
    obtain rfl := tourId_of_tourOf ht
    obtain ⟨hstarted, hex⟩ := startedState_parts t _ ht
    rw [hstarted, Option.map_some] at htour
    refine ⟨⟨_, htour, rfl, hst, rfl, rfl⟩, fun g hg hbit => ?_⟩
    have hgal : galOf (doTourStart t.tourId w) g = galOf (startedState t (endAwaited t.tourId w)) g := by rw [galOf, hgals, galOf]
    obtain ⟨h1, h2, h3, h4, h5, h6, h7, h8, h9⟩ := hex g hg hbit
    rw [hgal]
    exact ⟨h1, h2, h3, h4, h5, h6, h7, h8, h9⟩
  · rw [doTourStart_emergency id t w hhub ht hstate hstart hst he]
    exact ⟨tourOf_endEarly_first _ _ _ _ _ _ t ht hst, rfl⟩
  · rw [doTourStart_awaited id t w hhub ht hstate hstart hst he st f tick ha]
    exact ⟨tourOf_endEarly_first _ _ _ _ _ _ t ht hst, rfl⟩
  · rw [doTourStart_lost id t w hhub ht hstate hstart hst he ha g hl]
    obtain ⟨n, hn⟩ := locateAt_frame t g 0 7 (100 * (endAwaited id w).time.now) (endAwaited id w)
    obtain ⟨hg, hc⟩ := locateAt_gallery t g 0 7 (100 * (endAwaited id w).time.now) (endAwaited id w)
    generalize locateAt t g 0 7 (100 * (endAwaited id w).time.now) (endAwaited id w) = l at hn hg hc ⊢
    rw [hn]
    exact ⟨⟨_, tourOf_endEarly_first _ _ _ _ _ _ t ht hst, rfl, hg, hc, rfl⟩, rfl⟩

end Sys2Proof.Machine
end

section
/-!
PROOF. The end of a tour: what its completion frees and leaves (10 R213; 16 R355).
-/

namespace Sys2Proof.Machine

/-! ### What the end of a tour leaves alone -/

/-- The state without what the end of a tour changes: memories and their records, galleries, tours, Restoration, monitors, the parameter
blocks and what lock-step notes of tours. -/
def besideEnd (s : State) : State :=
  { besideMem s with
    gals := State.reset.gals, tours := [], rst := State.reset.rst, mon := State.reset.mon, booked := [], cat := State.reset.cat
    fab := { s.fab with lockstep := { s.fab.lockstep with sigs := [], diverged := [], lost := [] } } }

/-- The state without what a Restoration's result changes: memories and their records, galleries and the Vault. -/
def besideResult (s : State) : State := { besideMem s with gals := State.reset.gals, vault := State.reset.vault }

/-- The state without what the end of a tour or a Restoration's result changes. -/
def besideStore (s : State) : State := { besideEnd s with vault := State.reset.vault }

theorem besideEnd_of_besideMem {s t : State} (h : besideMem t = besideMem s) : besideEnd t = besideEnd s := by
  have e : besideEnd (besideMem t) = besideEnd (besideMem s) := by rw [h]
  exact e

theorem besideEnd_of_besideTours {s t : State} (h : besideTours t = besideTours s) : besideEnd t = besideEnd s := by
  have e : besideEnd (besideTours t) = besideEnd (besideTours s) := by rw [h]
  exact e

theorem besideStore_of_besideEnd {s t : State} (h : besideEnd t = besideEnd s) : besideStore t = besideStore s := by
  rw [besideStore, besideStore, h]

theorem besideResult_of_besideMem {s t : State} (h : besideMem t = besideMem s) : besideResult t = besideResult s := by
  rw [besideResult, besideResult, h]

theorem besideResult_of_besideSlots {s t : State} (h : besideSlots t = besideSlots s) : besideResult t = besideResult s := by
  have e : besideResult (besideSlots t) = besideResult (besideSlots s) := by rw [h]
  exact e

theorem besideStore_of_besideResult {s t : State} (h : besideResult t = besideResult s) : besideStore t = besideStore s := by
  have e : besideStore (besideResult t) = besideStore (besideResult s) := by rw [h]
  exact e

theorem tours_of_besideResult {s t : State} (h : besideResult t = besideResult s) : t.tours = s.tours := (congrArg State.tours h :)

/-! ### The result of a Restoration -/

theorem besideResult_storeExtents (n e : Nat) (sealed_ : Bool) (bs : List Byte) (s u : State) (h : storeExtents n e sealed_ bs s = some u) :
    besideResult u = besideResult s := by
  induction n generalizing e bs s with
  | zero => obtain rfl := Option.some.inj h; rfl
  | succ n ih =>
    rw [storeExtents] at h
    split at h
    · obtain rfl := Option.some.inj h; rfl
    · split at h
      · exact absurd h (by simp)
      · refine (ih _ _ _ h).trans ?_
        rw [besideResult_of_besideSlots (besideSlots_commitExtent ..)]
        exact (besideResult_of_besideSlots (besideSlots_of_besideStripes (besideStripes_pickSlot slotCount s)) :)

theorem besideResult_storeVault (out : CatEnt) (logN limbs special : Nat) (ws : List Nat) (s : State) :
    besideResult (storeVault out logN limbs special ws s) = besideResult s := by
  unfold storeVault
  dsimp only
  generalize hx : storeExtents _ _ _ _ s = x
  cases x with
  | none => rfl
  | some u => exact besideResult_storeExtents _ _ _ _ _ _ hx

theorem besideResult_storeResult (out : CatEnt) (logN limbs special : Nat) (ws : List Nat) (s : State) :
    besideResult (storeResult out logN limbs special ws s) = besideResult s := by
  unfold storeResult
  dsimp only
  split
  · exact besideResult_storeVault ..
  · refine foldRange_keeps besideResult 2 _ (fun p x => ?_) s
    split
    · rfl
    · exact besideResult_of_besideMem (besideMem_hbmPutBytes ..)

theorem besideResult_restoreStore (j : RestoreJob) (s : State) : besideResult (restoreStore j s) = besideResult s := by
  unfold restoreStore
  dsimp only
  split
  · rfl
  · split
    · exact besideResult_storeResult ..
    · exact besideResult_storeResult _ _ _ _ _ (freeBits _ s).2

theorem besideResult_settleRestore (id : Quad) (s : State) : besideResult (settleRestore id s) = besideResult s := by
  unfold settleRestore
  split
  · split
    · exact besideResult_restoreStore ..
    · rfl
  · rfl

theorem settleRestore_none (id : Quad) (s : State) (h : ∀ t, tourOf s id = some t → t.restore = .none) : settleRestore id s = s := by
  unfold settleRestore
  split
  · next t ht => rw [h t ht]
  · rfl

/-! ### What is done before the record -/

/-- The part of a tour's end that comes before its completion: regions, output entries, locks, counters and banks. -/
def closing (t : Tour) (st : BitVec 16) (f : FaultAt) (s : State) : State :=
  let s := if st = stDivergence ∨ st = stUnreachable then (maskList t.mask).foldl (fun x g => poisonRgns st (writesFrom x t g 0) x) s else s
  let s := if st = stOk ∨ st = stDeadlineMissed then readyWrites t s else s
  let s := pruneBlocks ((outCats t).foldl (fun x i => writeOutput t (resultsWhole t st) i x) s)
  let s := countTour t (closeRestore t st f (unlockEntries t s))
  (maskList t.mask).foldl (fun x g => freeBank t g x) s

/-- A tour that is completed. -/
def completedTour (x : Tour) : Tour := { x with state := .completed, claims := [], locked := [] }

/-- The state with the tour completed, all but its record. -/
def completing (id : Quad) (t : Tour) (s : State) : State :=
  let s := modTour s id completedTour
  let past : Tour := { t with state := .completed, claims := [], locked := [], package := [] }
  let s := { s with booked := past :: s.booked.filter (fun b => decide (s.time.now < b.deadline)) }
  { s with fab := { s.fab with lockstep := { s.fab.lockstep with
      sigs := s.fab.lockstep.sigs.filter (fun r => r.tourId != id),
      diverged := s.fab.lockstep.diverged.filter (fun d => d.1 != id),
      lost := s.fab.lockstep.lost.filter (· ≠ id) } } }

theorem finishTour_eq (id : Quad) (s : State) (t : Tour) (ht : tourOf (haltTour id (settleRestore id s)) id = some t) :
    ∃ st f, finishTour id s = writeCompletion t st f (completing id t (closing t st f (haltTour id (settleRestore id s)))) := by
  unfold finishTour
  dsimp only
  rw [ht]
  generalize haltTour id (settleRestore id s) = v
  exact ⟨(finalStatus v t).1, (finalStatus v t).2, rfl⟩

theorem besideEnd_modRgn (s g j f) : besideEnd (modRgn s g j f) = besideEnd s := rfl

theorem besideMem_writeOutput (t : Tour) (whole : Bool) (i : Nat) (s : State) : besideMem (writeOutput t whole i s) = besideMem s := by
  unfold writeOutput
  split
  · exact besideMem_modEnt ..
  · split
    · exact besideMem_modEnt ..
    · exact besideMem_modEnt ..

theorem besideEnd_endEarly (id st loc tick stop s) : besideEnd (endEarly id st loc tick stop s) = besideEnd s := rfl

theorem besideEnd_closeRestore (t : Tour) (st : BitVec 16) (f : FaultAt) (s : State) : besideEnd (closeRestore t st f s) = besideEnd s := by
  have hpoison : ∀ (n : Nat) (x : State), besideEnd (foldRange n (fun g y => poisonRgns st ((List.range 4).map (fun i => (g, 60 + i))) y) x)
      = besideEnd x := fun n x =>
    foldRange_keeps besideEnd n _ (fun g y => besideEnd_of_besideTours (besideTours_poisonRgns ..)) x
  unfold closeRestore
  split
  · rfl
  · dsimp only
    split
    · rw [apply_ite besideEnd, besideEnd_endEarly, ite_self, apply_ite besideEnd, hpoison, ite_self]
      rfl
    · rw [apply_ite besideEnd, hpoison, ite_self]
      rfl

theorem besideEnd_captureFrom (source : Nat) (v : Int) (s : State) : besideEnd (captureFrom source v s) = besideEnd s := rfl

theorem besideEnd_addTotals (c : CounterSet) (s : State) : besideEnd (addTotals c s) = besideEnd s := rfl

theorem besideEnd_countTour (t : Tour) (s : State) : besideEnd (countTour t s) = besideEnd s := by
  unfold countTour
  dsimp only
  rw [besideEnd_captureFrom, besideEnd_captureFrom, foldl_keeps besideEnd _ (fun x c => besideEnd_addTotals c x)]

theorem besideEnd_freeBank (t : Tour) (g : Nat) (s : State) : besideEnd (freeBank t g s) = besideEnd s := by
  unfold freeBank
  dsimp only
  split
  · rfl
  · split <;> rfl

theorem besideEnd_readyWrites (t : Tour) (s : State) : besideEnd (readyWrites t s) = besideEnd s := by
  unfold readyWrites
  refine foldl_keeps besideEnd _ (fun x g => ?_) _ s
  refine foldl_keeps besideEnd _ (fun y p => ?_) _ x
  dsimp only
  split <;> rfl

theorem besideEnd_closing (t : Tour) (st : BitVec 16) (f : FaultAt) (s : State) : besideEnd (closing t st f s) = besideEnd s := by
  unfold closing
  dsimp only
  rw [foldl_keeps besideEnd _ (fun x g => besideEnd_freeBank t g x), besideEnd_countTour, besideEnd_closeRestore,
    besideEnd_of_besideMem (besideMem_unlockEntries ..)]
  refine Eq.trans (b := besideEnd ((outCats t).foldl (fun x i => writeOutput t (resultsWhole t st) i x)
    (if st = stOk ∨ st = stDeadlineMissed then readyWrites t (if st = stDivergence ∨ st = stUnreachable
      then (maskList t.mask).foldl (fun x g => poisonRgns st (writesFrom x t g 0) x) s else s)
    else if st = stDivergence ∨ st = stUnreachable then (maskList t.mask).foldl (fun x g => poisonRgns st (writesFrom x t g 0) x) s else s)))
    rfl ?_
  rw [foldl_keeps besideEnd _ (fun x i => besideEnd_of_besideMem (besideMem_writeOutput t _ i x)), apply_ite besideEnd,
    besideEnd_readyWrites, ite_self, apply_ite besideEnd,
    foldl_keeps besideEnd _ (fun x g => besideEnd_of_besideTours (besideTours_poisonRgns st (writesFrom x t g 0) x)), ite_self]

/-! ### The tours and the queue pairs at a tour's end -/

theorem tours_of_besideMem {s t : State} (h : besideMem t = besideMem s) : t.tours = s.tours := (congrArg State.tours h :)

theorem tours_of_besideEntries {s t : State} (h : besideEntries t = besideEntries s) : t.tours = s.tours := (congrArg State.tours h :)

theorem qps_of_besideEnd {s t : State} (h : besideEnd t = besideEnd s) : t.host.qps = s.host.qps := (congrArg (fun x => x.host.qps) h :)

theorem tours_freeBank (t : Tour) (g : Nat) (s : State) : (freeBank t g s).tours = s.tours := by
  unfold freeBank
  dsimp only
  split
  · rfl
  · split <;> rfl

theorem tours_readyWrites (t : Tour) (s : State) : (readyWrites t s).tours = s.tours := by
  unfold readyWrites
  refine foldl_keeps State.tours _ (fun x g => ?_) _ s
  refine foldl_keeps State.tours _ (fun y p => ?_) _ x
  dsimp only
  split <;> rfl

theorem tours_countTour (t : Tour) (s : State) : (countTour t s).tours = s.tours := by
  refine Eq.trans (b := ((((maskList t.mask).filter (fun g => t.state == .running && (!imageSealed s g (tourImage t g) || t.restore.isSome))).map
    (tourCounters s t)).foldl (fun x c => addTotals c x) s).tours) rfl ?_
  exact foldl_keeps State.tours (fun x c => addTotals c x) (fun _ _ => rfl) _ s

/-- A tour with its times and galleries, whatever else became of it. -/
def SamePlan (t x : Tour) : Prop := x.start = t.start ∧ x.mask = t.mask

theorem samePlan_endedTour (st : BitVec 16) (loc : FaultAt) (tick stop : Nat) (t : Tour) : SamePlan t (endedTour st loc tick stop t) := by
  unfold endedTour
  split
  · exact ⟨rfl, rfl⟩
  · dsimp only
    split
    · exact ⟨rfl, rfl⟩
    · exact ⟨rfl, rfl⟩

theorem tourOf_endEarly_samePlan (main id : Quad) (st : BitVec 16) (loc : FaultAt) (tick stop : Nat) (s : State) (t : Tour)
    (ht : tourOf s id = some t) : ∃ x, tourOf (endEarly main st loc tick stop s) id = some x ∧ SamePlan t x := by
  by_cases hid : id = main
  · subst hid
    exact ⟨_, by rw [endEarly_eq, tourOf_modTour_same (keepsId_endedTour _ _ _ _), ht]; rfl, samePlan_endedTour st loc tick stop t⟩
  · exact ⟨t, by rw [endEarly_eq, tourOf_modTour_other (keepsId_endedTour _ _ _ _) _ _ _ hid, ht], rfl, rfl⟩

/-- The end of a Restoration ends at most the tour that it was for. -/
theorem tourOf_closeRestore (t : Tour) (st : BitVec 16) (f : FaultAt) (s : State) (id : Quad) (x : Tour) (hx : tourOf s id = some x) :
    ∃ y, tourOf (closeRestore t st f s) id = some y ∧ SamePlan x y := by
  unfold closeRestore
  split
  · exact ⟨x, hx, rfl, rfl⟩
  · next j hj =>
    dsimp only
    generalize hp : (if (st != stOk && st != stDeadlineMissed) = true then foldRange _ _ _ else _) = p
    have htours : p.tours = s.tours := by
      rw [← hp, apply_ite State.tours, foldRange_keeps State.tours _ _ (fun g y => tours_poisonRgns ..), ite_self]
    have hpx : tourOf p id = some x := (tourOf_congr htours id).trans hx
    split
    · split
      · exact tourOf_endEarly_samePlan _ id st f _ _ _ x hpx
      · exact ⟨x, hpx, rfl, rfl⟩
    · exact ⟨x, hpx, rfl, rfl⟩

theorem tourOf_closing (t : Tour) (st : BitVec 16) (f : FaultAt) (s : State) (id : Quad) (x : Tour) (hx : tourOf s id = some x) :
    ∃ y, tourOf (closing t st f s) id = some y ∧ SamePlan x y := by
  unfold closing
  dsimp only
  generalize hpoison : (if st = stDivergence ∨ st = stUnreachable then
    (maskList t.mask).foldl (fun x g => poisonRgns st (writesFrom x t g 0) x) s else s) = v
  have hv : v.tours = s.tours := by
    rw [← hpoison, apply_ite State.tours, foldl_keeps State.tours _ (fun x g => tours_poisonRgns st (writesFrom x t g 0) x), ite_self]
  generalize hready : (if st = stOk ∨ st = stDeadlineMissed then readyWrites t v else v) = w
  have hw : w.tours = s.tours := by rw [← hready, apply_ite State.tours, tours_readyWrites, ite_self, hv]
  generalize hout : (outCats t).foldl (fun x i => writeOutput t (resultsWhole t st) i x) w = o
  have ho : o.tours = s.tours := by
    rw [← hout, foldl_keeps State.tours _ (fun x i => tours_of_besideMem (besideMem_writeOutput t _ i x)), hw]
  obtain ⟨y, hy, hplan⟩ := tourOf_closeRestore t st f (unlockEntries t (pruneBlocks o)) id x ((tourOf_congr (by rw [tours_unlockEntries]; exact ho) id).trans hx)
  refine ⟨y, (tourOf_congr ?_ id).trans hy, hplan⟩
  rw [foldl_keeps State.tours _ (fun x g => tours_freeBank t g x), tours_countTour]

theorem qps_locPut (s : State) (hbm : Bool) (a : Nat) (bs : List Byte) : (locPut s hbm a bs).host.qps = s.host.qps := by
  unfold locPut
  split
  · exact (congrArg (fun x => x.host.qps) (besideMem_hubWrite s a bs) :)
  · rfl

theorem qps_raiseVec (s : State) (v : BitVec 6) : (raiseVec s v).host.qps = s.host.qps := by
  obtain ⟨r, p, h⟩ := raiseVec_frame s v
  rw [h]

theorem qpOf_congr {s t : State} (h : t.host.qps = s.host.qps) (k : Nat) : qpOf t k = qpOf s k := by rw [qpOf, h, qpOf]

/-- An entry of a queue pair changes no count of accepted tours. -/
theorem qpTours_qpEntry (s : State) (q : Nat) (irq : Bool) (tag : BitVec 16) (kind : Nat) (st op : BitVec 16) (body : List Byte) (k : Nat)
    (hk : k < 64) : (qpOf (qpEntry s q irq tag kind st op body) k).tours = (qpOf s k).tours := by
  have hstep : ∀ (a : Nat) (bs : List Byte) (f : Qp → Qp), (∀ x, (f x).tours = x.tours) →
      (qpOf (modQp (locPut s (qpOf s q).rqLoc a bs) q f) k).tours = (qpOf s k).tours := fun a bs f hf => by
    have hput : ∀ j, qpOf (locPut s (qpOf s q).rqLoc a bs) j = qpOf s j := fun j => by rw [qpOf, qps_locPut, qpOf]
    by_cases hq : k = q
    · subst hq
      rw [qpOf_modQp_same _ _ _ hk, hf, hput]
    · rw [qpOf_modQp_other _ _ _ _ hq, hput]
  unfold qpEntry
  dsimp only
  split
  · exact (congrArg Qp.tours (qpOf_congr (qps_raiseVec _ _) k)).trans (hstep _ _ _ (by intro x; rfl))
  · exact hstep _ _ _ (by intro x; rfl)

theorem besideEntries_writeCompletion (t : Tour) (st : BitVec 16) (f : FaultAt) (s : State) :
    besideEntries (writeCompletion t st f s) = besideEntries s := by
  unfold writeCompletion
  split
  · rfl
  · dsimp only
    rw [besideEntries_modQp, besideEntries_qpEntry, besideEntries_qpEntry]

theorem qpTours_writeCompletion (t : Tour) (st : BitVec 16) (f : FaultAt) (s : State) (q : BitVec 6) (hq : t.hdr.src = .qp q) :
    (qpOf (writeCompletion t st f s) q.toNat).tours = (qpOf s q.toNat).tours - 1 := by
  unfold writeCompletion
  rw [hq]
  dsimp only
  rw [qpOf_modQp_same _ _ _ q.isLt, qpTours_qpEntry _ _ _ _ _ _ _ _ _ q.isLt, qpTours_qpEntry _ _ _ _ _ _ _ _ _ q.isLt]

/-! ### TOUR_END -/

theorem oneTour_completing (id : Quad) (t : Tour) (s : State) : OneTour id completedTour s (completing id t s) :=
  (oneTour_modTour (f := completedTour) (fun _ => rfl) id s).congr rfl rfl

theorem besideEnd_completing (id : Quad) (t : Tour) (s : State) : besideEnd (completing id t s) = besideEnd s := rfl

/-- What the end of a tour leaves: the tour completed, and beside memories, galleries and lists only its record. -/
theorem finishTour_parts (id : Quad) (s : State) (t : Tour) (ht : tourOf s id = some t) :
    (∃ x, tourOf (finishTour id s) id = some x ∧ x.state = .completed ∧ x.claims = [] ∧ x.locked = [] ∧ SamePlan t x) ∧
    besideEnd (besideEntries (finishTour id s)) = besideEnd (besideEntries (settleRestore id s)) ∧
    ∀ q, t.hdr.src = .qp q → (qpOf (finishTour id s) q.toNat).tours = (qpOf (settleRestore id s) q.toNat).tours - 1 := by
  have hsettled : tourOf (settleRestore id s) id = some t := by
    rw [tourOf_congr (tours_of_besideResult (besideResult_settleRestore id s)), ht]
  obtain ⟨h, ws, hone⟩ := haltTour_oneTour id (settleRestore id s)
  have hhalted := hone.same
  rw [hsettled, Option.map_some] at hhalted
  obtain ⟨st, f, hfin⟩ := finishTour_eq id s _ hhalted
  obtain ⟨y, hy, hstart, hmask⟩ := tourOf_closing { t with halted := h t, missed := ws ++ t.missed } st f (haltTour id (settleRestore id s)) id _ hhalted
  have hclosed : besideEnd (closing { t with halted := h t, missed := ws ++ t.missed } st f (haltTour id (settleRestore id s)))
      = besideEnd (settleRestore id s) := by
    rw [besideEnd_closing, besideEnd_of_besideTours (besideTours_haltTour ..)]
  generalize closing { t with halted := h t, missed := ws ++ t.missed } st f (haltTour id (settleRestore id s)) = v at hfin hy hclosed
  rw [hfin]
  refine ⟨⟨completedTour y, ?_, rfl, rfl, rfl, hstart, hmask⟩, ?_, fun q hq => ?_⟩
  · rw [tourOf_congr (tours_of_besideEntries (besideEntries_writeCompletion ..)), (oneTour_completing ..).same, hy]
    rfl
  · rw [besideEntries_writeCompletion]
    have e : ∀ x, besideEnd (besideEntries x) = besideEntries (besideEnd x) := fun _ => rfl
    rw [e, e, besideEnd_completing, hclosed]
  · rw [qpTours_writeCompletion { t with halted := h t, missed := ws ++ t.missed } st f _ q hq]
    have hqps : qpOf (completing id { t with halted := h t, missed := ws ++ t.missed } v) q.toNat = qpOf (settleRestore id s) q.toNat := by
      rw [qpOf, qps_of_besideEnd ((besideEnd_completing ..).trans hclosed), ← qpOf]
    rw [hqps]

/-- Settles O35. -/
theorem toursComplete : Obligations.ToursComplete := by
  unfold Obligations.ToursComplete
  intro id t q s hhub ht hlock hsrc
  dsimp only
  intro hended
  have hdo : exec (.tourEnd id) s = .next (doTourEnd id s) := rfl
  have htours := foldl_keeps State.tours (fun x g => settleStep g x) (fun x g => tours_settleStep g x) (maskList t.mask) s
  have hbeside := foldl_keeps besideTours (fun x g => settleStep g x) (fun x g => besideTours_settleStep g x) (maskList t.mask) s
  rw [hdo, doTourEnd, ht]
  dsimp only
  generalize (maskList t.mask).foldl (fun x g => settleStep g x) s = v at *
  rw [if_pos (by simp [hhub, hlock, hended])]
  have htv : tourOf v id = some t := (tourOf_congr htours id).trans ht
  obtain ⟨⟨x, hx, hstate, hclaims, hlocked, hstart, hmask⟩, hrest, hqp⟩ := finishTour_parts id v t htv
  have hstore := besideResult_settleRestore id v
  have hvault : t.restore = .none → (finishTour id v).vault = v.vault := fun hnone => by
    rw [settleRestore_none id v (fun o ho => by rw [htv] at ho; rw [← Option.some.inj ho, hnone])] at hrest
    exact (congrArg State.vault hrest :)
  have hqps : (settleRestore id v).host.qps = s.host.qps :=
    (congrArg (fun y => y.host.qps) hstore :).trans (congrArg (fun y => y.host.qps) hbeside :)
  refine ⟨finishTour id v, x, rfl, hx, hstate, hclaims, hlocked, hstart, hmask, ?_, ?_, fun hnone => ?_, ?_, ?_⟩
  · rw [hqp q hsrc, qpOf, hqps, ← qpOf]
  · exact ((congrArg State.time hrest :).trans (congrArg State.time hstore :)).trans (congrArg State.time hbeside :)
  · rw [hvault hnone]
    exact (congrArg (fun y => y.vault.map) hbeside :)
  · exact ((congrArg State.flash hrest :).trans (congrArg State.flash hstore :)).trans (congrArg State.flash hbeside :)
  · exact ((congrArg State.fuses hrest :).trans (congrArg State.fuses hstore :)).trans (congrArg State.fuses hbeside :)

end Sys2Proof.Machine
end

section
/-!
PROOF. Lock-step: windows compared, tours completed, and a partner lost (17 R380 to R383).
-/

namespace Sys2Proof.Machine

/-- The galleries of a tour leave the steps that have run to their end. -/
def settleGals (m : BitVec 32) (s : State) : State := (maskList m).foldl (fun x g => settleStep g x) s

theorem tours_settleGals (m : BitVec 32) (s : State) : (settleGals m s).tours = s.tours :=
  foldl_keeps State.tours _ (fun x g => tours_settleStep g x) _ s

theorem besideTours_settleGals (m : BitVec 32) (s : State) : besideTours (settleGals m s) = besideTours s :=
  foldl_keeps besideTours _ (fun x g => besideTours_settleStep g x) _ s

/-! ### A window compared -/

theorem summariesDiffer_congr {s u : State} (h : u.fab = s.fab) (t : Tour) (w : Nat) (remote : List (Nat × List Quad)) :
    summariesDiffer u t w remote = summariesDiffer s t w remote := by
  have hsigs : sigsAt u = sigsAt s := by
    funext id g ct
    rw [sigsAt, h, sigsAt]
  rw [summariesDiffer, hsigs, summariesDiffer]

theorem any_noted (id : Quad) (l : List (Quad × FaultAt)) (f : FaultAt) :
    (if l.any (fun d => d.1 == id) then l else (id, f) :: l).any (fun d => d.1 == id) = true := by
  split
  · assumption
  · simp

/-- A divergence stands in DIVERGENCES, in the record and with its tour. -/
theorem recordDivergence_frame (t : Tour) (ct g station : Nat) (s : State) : ∃ l r p, recordDivergence t ct g station s =
      { s with fab := { s.fab with lockstep := l }, host := { s.host with raised := r, msixPending := p } } ∧
    l.divergences = bump8 s.fab.lockstep.divergences ∧ l.divValid = true ∧ l.diverged.any (fun d => d.1 == t.tourId) = true := by
  unfold recordDivergence
  extract_lets step at_ s1 tick s2
  obtain ⟨r, p, h⟩ := raiseEvent_frame s2
  rw [h]
  clear h
  have hany : s1.fab.lockstep.diverged.any (fun d => d.1 == t.tourId) = true := any_noted t.tourId s.fab.lockstep.diverged at_
  by_cases hv : s1.fab.lockstep.divValid = true
  · have hs2 : s2 = s1 := if_pos hv
    rw [hs2]
    exact ⟨s1.fab.lockstep, r, p, rfl, rfl, hv, hany⟩
  · have hs2 : s2 = modLock s1 (fun l => { l with
        divValid := true, divStep := BitVec.ofNat 16 step, divStation := BitVec.ofNat 3 station, divGallery := BitVec.ofNat 5 g,
        divCtick := BitVec.ofNat 32 ct, divTick := BitVec.ofNat 64 (tickOfCompiled t ct) }) := if_neg hv
    rw [hs2]
    exact ⟨_, r, p, rfl, rfl, rfl, hany⟩

/-- What a comparison of a tour that is no Restoration does, once its window has passed. -/
theorem doSummary_eq (id : Quad) (t : Tour) (rt : Quad) (remote : List (Nat × List Quad)) (s : State) (hhub : hubRuns s = true)
    (hup : anyPortUp s = true) (hlock : s.fab.lockstep.enabled = true) (ht : tourOf s id = some t) (hacc : tourAccepted t = true)
    (hrst : t.restore = .none) (hpass : windowPassed (settleGals t.mask s) t t.compared = true) :
    let u := modTour (settleGals t.mask s) id (fun x => { x with compared := x.compared + 1 })
    (summariesDiffer s t t.compared remote = true ∨ rt ≠ id → ∃ ct g k, doSummary id t.compared rt remote s = recordDivergence t ct g k u) ∧
    (summariesDiffer s t t.compared remote = false → rt = id → doSummary id t.compared rt remote s = u) := by
  dsimp only
  have hdiff := summariesDiffer_congr (s := s) (u := modTour (settleGals t.mask s) id (fun x => { x with compared := x.compared + 1 }))
    (congrArg State.fab (besideTours_settleGals t.mask s) :) t t.compared remote
  have hgo : doSummary id t.compared rt remote s =
      (let u := modTour (settleGals t.mask s) id (fun x => { x with compared := x.compared + 1 })
      if summariesDiffer u t t.compared remote || rt != id then
        match firstDivergence u t t.compared remote with
        | some (ct, g, k) => recordDivergence t ct g (min 6 (k + 1)) u
        | .none => recordDivergence t 0 0 0 u
      else u) := by
    unfold doSummary
    rw [ht]
    dsimp only
    rw [← settleGals, if_neg (by simp [hhub, hup, hlock, hacc, hpass]), if_neg (by simp [hrst])] <;>
      rfl
  rw [hgo]
  dsimp only
  rw [hdiff]
  refine ⟨fun h => ?_, fun h hid => ?_⟩
  · rw [if_pos (by simpa using h)]
    split
    · exact ⟨_, _, _, rfl⟩
    · exact ⟨_, _, _, rfl⟩
  · rw [if_neg (by simp [h, hid])]

/-! ### The lost partner -/

theorem besideStore_doTourEnd (id : Quad) (s : State) : besideStore (besideEntries (doTourEnd id s)) = besideStore (besideEntries s) := by
  unfold doTourEnd
  split
  · rfl
  · next t ht =>
    dsimp only
    rw [← settleGals]
    split
    · have htv : tourOf (settleGals t.mask s) id = some t := (tourOf_congr (tours_settleGals t.mask s) id).trans ht
      obtain ⟨-, hrest, -⟩ := finishTour_parts id (settleGals t.mask s) t htv
      have e : ∀ x, besideStore (besideEntries x) = besideEntries (besideStore x) := fun _ => rfl
      rw [besideStore_of_besideEnd hrest, e, besideStore_of_besideResult (besideResult_settleRestore ..),
        besideStore_of_besideEnd (besideEnd_of_besideTours (besideTours_settleGals ..)), e]
    · rfl

theorem doPartnerLost_parts (s : State) (hhub : hubRuns s = true) (hlock : s.fab.lockstep.enabled = true)
    (hmiss : s.tours.any (summaryMissing s) = true) :
    (doPartnerLost s).fab.lockstep.partnerLost = true ∧ (doPartnerLost s).fab.lockstep.enabled = false := by
  unfold doPartnerLost
  rw [if_neg (by simp only [hhub, hlock, hmiss]; decide)]
  dsimp only
  generalize (s.tours.filter _).map _ = ids
  have hkeep := foldl_keeps (fun x => besideStore (besideEntries x)) (fun x id => doTourEnd id x) (fun x id => besideStore_doTourEnd id x)
    ids.reverse (modLock s (fun l => { l with partnerLost := true, enabled := false, lost := ids }))
  exact ⟨(congrArg (fun x => x.fab.lockstep.partnerLost) hkeep :), (congrArg (fun x => x.fab.lockstep.enabled) hkeep :)⟩

/-- Settles O48. -/
theorem lockStepCompares : Obligations.LockStepCompares := by
  unfold Obligations.LockStepCompares
  intro s hhub hlock
  refine ⟨fun id t rt remote hup ht hacc hrst => ?_, fun id t ht => ?_, fun hmiss => ⟨_, rfl, doPartnerLost_parts s hhub hlock hmiss⟩⟩
  · dsimp only
    intro hpass
    obtain ⟨hdiff, hsame⟩ := doSummary_eq id t rt remote s hhub hup hlock ht hacc hrst hpass
    have hone : tourOf (modTour (settleGals t.mask s) id (fun x => { x with compared := x.compared + 1 })) id =
        some { t with compared := t.compared + 1 } := by
      rw [tourOf_modTour_same (f := fun x => { x with compared := x.compared + 1 }) (fun _ => rfl),
        tourOf_congr (tours_settleGals t.mask s), ht]
      rfl
    have hfab : (modTour (settleGals t.mask s) id (fun x => { x with compared := x.compared + 1 })).fab = s.fab :=
      (congrArg State.fab (besideTours_settleGals t.mask s) :)
    have hhbm : (modTour (settleGals t.mask s) id (fun x => { x with compared := x.compared + 1 })).hbm = s.hbm :=
      (congrArg State.hbm (besideTours_settleGals t.mask s) :)
    have hdo : exec (.lockstepSummary id t.compared rt remote) s = .next (doSummary id t.compared rt remote s) := rfl
    rw [hdo]
    by_cases hd : summariesDiffer s t t.compared remote = true ∨ rt ≠ id
    · obtain ⟨ct, g, k, hu⟩ := hdiff hd
      obtain ⟨l, r, p, hrec, hcount, hvalid, hany⟩ := recordDivergence_frame t ct g k
        (modTour (settleGals t.mask s) id (fun x => { x with compared := x.compared + 1 }))
      rw [hu, hrec]
      obtain rfl := tourId_of_tourOf ht
      refine ⟨_, _, rfl, hone, rfl, fun _ => ⟨?_, hvalid, hany⟩, fun hn hid => ?_, rfl, hhbm⟩
      · rw [← hfab]; exact hcount
      · rcases hd with hd | hd
        · exact absurd (hd.symm.trans hn) (by decide)
        · exact absurd hid hd
    · obtain ⟨hn, hid⟩ := not_or.mp hd
      rw [hsame (eq_false_of_ne_true hn) (not_not.mp hid)]
      exact ⟨_, _, rfl, hone, rfl, fun h => absurd h hd, fun _ _ => hfab, rfl, hhbm⟩
  · dsimp only
    intro hended hwhole
    have hdo : exec (.lockstepComplete id) s = .next (doLockstepComplete id s) := rfl
    have htv : tourOf (settleGals t.mask s) id = some t := (tourOf_congr (tours_settleGals t.mask s) id).trans ht
    obtain ⟨⟨x, hx, hstate, hclaims, hlocked, -⟩, -, -⟩ := finishTour_parts id (settleGals t.mask s) t htv
    refine ⟨_, x, hdo, ?_, hstate, hclaims, hlocked⟩
    rw [← hx]
    unfold doLockstepComplete
    rw [ht]
    dsimp only
    rw [← settleGals] at hended ⊢
    rw [if_pos (by simp [hhub, hlock, hended, hwhole])]

end Sys2Proof.Machine
end

section
/-!
PROOF. Tours that end early: overrun, hold limit, losses (02 R24, R31, R33, R34, R42; 03 R67).
-/

namespace Sys2Proof.Machine

/-! ### An ending at the present tick edge -/

/-- Equal beside galleries and tours, two states differ in them alone. -/
theorem frame_of_besideTours {s u : State} (h : besideTours u = besideTours s) : u = { s with tours := u.tours, gals := u.gals } := by
  calc u = { besideTours u with tours := u.tours, gals := u.gals } := rfl
    _ = { besideTours s with tours := u.tours, gals := u.gals } := by rw [h]
    _ = _ := rfl

theorem ceilDiv_gt (d n m : Nat) (h : n < m + ceilDiv d 100) : 100 * n < 100 * m + d := by
  unfold ceilDiv at h
  omega

/-- The place of a step that runs on. -/
theorem locateAt_running (t : Tour) (g station : Nat) (r : RunStep) (s : State) (hrst : t.restore = .none)
    (hrun : (galOf s g).run = some r) (hid : r.tourId = t.tourId) (hend : s.time.now < runEnds r) :
    locateAt t g station 0 (100 * s.time.now) s =
      ({ step := r.index, gallery := g, station := station, cause := 0, stepCycle := 100 * (s.time.now - r.launched) }, s) := by
  have hlt : 100 * s.time.now < 100 * r.launched + r.duration := ceilDiv_gt _ _ _ hend
  unfold locateAt
  rw [if_neg (by simp [hrst]), placeAt, hrun]
  dsimp only
  rw [if_pos ⟨hid, hlt⟩, Nat.mul_sub]

/-- The tour that ends and stops now. -/
def endedNow (st : BitVec 16) (loc : FaultAt) (now : Nat) (ws : List (Nat × Nat)) (t : Tour) : Tour :=
  { t with status := some st, faultAt := loc, endTick := now, stopAt := now, halted := true, missed := ws ++ t.missed }

theorem haltAtEdge_due (id : Quad) (s : State) (t : Tour) (ht : tourOf s id = some t) (hacc : tourAccepted t = true)
    (hst : t.status.isSome = true) (hstop : t.stopAt ≤ s.time.now) : haltAtEdge id s = haltTour id s := by
  rw [haltAtEdge, ht]
  exact if_pos (by rw [hacc, hst, decide_eq_true hstop]; rfl)

theorem haltAtEdge_endEarly (id : Quad) (st : BitVec 16) (loc : FaultAt) (s : State) (t : Tour) (ht : tourOf s id = some t)
    (hacc : tourAccepted t = true) (hst : t.status = .none) :
    haltAtEdge id (endEarly id st loc s.time.now s.time.now s) = haltTour id (endEarly id st loc s.time.now s.time.now s) :=
  haltAtEdge_due id _ _ (tourOf_endEarly_first id st loc _ _ s t ht hst) hacc rfl (Nat.le_refl _)

theorem endNow_parts (id : Quad) (st : BitVec 16) (loc : FaultAt) (s : State) (t : Tour) (ht : tourOf s id = some t)
    (hacc : tourAccepted t = true) (hst : t.status = .none) :
    let u := haltAtEdge id (endEarly id st loc s.time.now s.time.now s)
    (∃ ws, tourOf u id = some (endedNow st loc s.time.now ws t) ∧ (st ≠ stDeadlineMissed → ws = [])) ∧
    (∀ k, k ≠ id → tourOf u k = tourOf s k) ∧ u = { s with tours := u.tours, gals := u.gals } := by
  dsimp only
  have hended := tourOf_endEarly_first id st loc s.time.now s.time.now s t ht hst
  have hother : ∀ k, k ≠ id → tourOf (endEarly id st loc s.time.now s.time.now s) k = tourOf s k := fun k hk =>
    tourOf_modTour_other (keepsId_endedTour _ _ _ _) s id k hk
  refine ⟨?_, fun k hk => ?_, frame_of_besideTours (besideTours_haltAtEdge ..)⟩
  · rw [haltAtEdge_endEarly id st loc s t ht hacc hst]
    by_cases hh : t.halted = true
    · refine ⟨[], ?_, fun _ => rfl⟩
      rw [haltTour_quiet id _ (fun x hx => .inr (by rw [hended] at hx; rw [← Option.some.inj hx]; exact hh)), hended, endedNow, hh]
      rfl
    · obtain ⟨ws, hone, hws⟩ := oneTour_haltTour id _ _ st hended rfl (eq_false_of_ne_true hh)
      refine ⟨ws, ?_, hws⟩
      rw [hone.same, hended]
      rfl
  · rw [haltAtEdge_endEarly id st loc s t ht hacc hst, tourOf_haltTour_other id _ k hk, hother k hk]

/-! ### Overrun and hold limit -/

theorem mem_maskList_first (m : BitVec 32) (p : Nat → Bool) (g : Nat) (hg : g < 32) (hbit : m.getLsbD g = true) (hp : p g = true)
    (hfirst : ∀ k < g, m.getLsbD k = true → p k = false) : (maskList m).find? p = some g := by
  rw [maskList, List.find?_filter]
  refine find?_range_first _ 32 g hg (by rw [hbit, hp]; rfl) (fun k hk => ?_)
  by_cases hb : m.getLsbD k = true
  · rw [hb, hfirst k hk hb]; rfl
  · rw [eq_false_of_ne_true hb]; rfl

theorem doTourOverrun_eq (id : Quad) (t : Tour) (g : Nat) (r : RunStep) (s : State) (hhub : hubRuns s = true) (ht : tourOf s id = some t)
    (hst : t.status = .none) (hrun : t.state = .running) (hrst : t.restore = .none) (hover : tourBase t + t.budget ≤ s.time.now)
    (hg : g < 32) (hbit : t.mask.getLsbD g = true)
    (hfirst : ∀ k < g, t.mask.getLsbD k = true → ∀ e, (galOf s k).run = some e → e.tourId = id → runEnds e ≤ s.time.now)
    (hstep : (galOf s g).run = some r) (hid : r.tourId = id) (hend : s.time.now < runEnds r) :
    doTourOverrun id s = haltAtEdge id (endEarly id stTourOverrun
      { step := r.index, gallery := g, station := 7, cause := 0, stepCycle := 100 * (s.time.now - r.launched) } s.time.now s.time.now s) := by
  have hfind : (maskList t.mask).find? (fun g => match (galOf s g).run with
      | some r => r.tourId == id && decide (s.time.now < runEnds r) | .none => false) = some g := by
    refine mem_maskList_first t.mask _ g hg hbit (by rw [hstep]; simp [hid, hend]) (fun k hk hb => ?_)
    cases he : (galOf s k).run with
    | none => rfl
    | some e =>
      by_cases hmine : e.tourId = id
      · simp [Nat.not_lt.mpr (hfirst k hk hb e he hmine)]
      · simp [hmine]
  unfold doTourOverrun
  rw [ht]
  dsimp only
  rw [if_neg (by simp [hhub, hrun, tourAlive, hst, hover])]
  split
  · next k hk =>
    obtain rfl : k = g := Option.some.inj (hk.symm.trans hfind)
    rw [locateAt_running t k 7 r s hrst hstep (hid.trans (tourId_of_tourOf ht).symm) hend]
  · next hk => exact absurd (hk.symm.trans hfind) (by simp)

/-! ### What an end with DEADLINE_MISSED poisons -/

/-- A region is changed, or it is another one. -/
theorem rgnOf_modRgn_or (s : State) (g j : Nat) (f : Region → Region) (k m : Nat) :
    rgnOf (modRgn s g j f) k m = f (rgnOf s k m) ∨ rgnOf (modRgn s g j f) k m = rgnOf s k m := by
  by_cases hg : g < 32
  · by_cases hkm : (k, m) = (g, j)
    · obtain ⟨rfl, rfl⟩ := Prod.mk.inj hkm
      by_cases hj : m < 64
      · exact .inl (rgnOf_setRgn_same _ _ _ _ hg hj)
      · exact .inr (by simp [rgnOf, vget, Nat.le_of_not_lt hj])
    · exact .inr (rgnOf_setRgn_other _ _ _ _ _ _ hkm hg)
  · refine .inr ?_
    by_cases hk : k = g
    · rw [rgnOf, galOf_beyond _ k (hk ▸ Nat.le_of_not_lt hg), rgnOf, galOf_beyond _ k (hk ▸ Nat.le_of_not_lt hg)]
    · rw [rgnOf, modRgn, setRgn, galOf_modGal_other _ _ _ _ hk, rgnOf]

/-- A declared region lies in a gallery's table. -/
theorem rgnOf_modRgn_valid (s : State) (g j : Nat) (f : Region → Region) (h : (rgnOf s g j).valid = true) :
    rgnOf (modRgn s g j f) g j = f (rgnOf s g j) := by
  by_cases hg : g < 32
  · by_cases hj : j < 64
    · exact rgnOf_setRgn_same _ _ _ _ hg hj
    · exact absurd h (by simp [rgnOf, vget, Nat.le_of_not_lt hj, Region.none])
  · have hnone : rgnOf s g j = Region.none := by
      rw [rgnOf, galOf_beyond s g (Nat.le_of_not_lt hg), vget]
      by_cases hj : j < 64
      · simp [Gallery.reset, hj]
      · simp [Nat.le_of_not_lt hj]
    exact absurd h (by rw [hnone]; decide)

theorem foldl_keeps_prop {β : Type} (P : State → Prop) (f : State → β → State) (l : List β) (hf : ∀ x b, P x → P (f x b)) (s : State)
    (h : P s) : P (l.foldl f s) := by
  induction l generalizing s with
  | nil => exact h
  | cons b l ih => exact ih _ (hf s b h)

/-- A region is poisoned with a status. -/
def PoisonedBy (st : BitVec 16) (r : Region) : Prop := r.poisoned = true ∧ r.poisonCode = st

theorem poisonedBy_modRgn (st : BitVec 16) (s : State) (a b g j : Nat) (h : PoisonedBy st (rgnOf s g j)) :
    PoisonedBy st (rgnOf (modRgn s a b (poisonRgn st)) g j) := by
  rcases rgnOf_modRgn_or s a b (poisonRgn st) g j with e | e
  · rw [e]; exact ⟨rfl, rfl⟩
  · rw [e]; exact h

theorem poisonedBy_poisonRgns (st : BitVec 16) (ps : List (Nat × Nat)) (s : State) (g j : Nat) (h : PoisonedBy st (rgnOf s g j)) :
    PoisonedBy st (rgnOf (poisonRgns st ps s) g j) :=
  foldl_keeps_prop (fun x => PoisonedBy st (rgnOf x g j)) _ ps (fun x p hx => by
    split
    · exact poisonedBy_modRgn st x _ _ g j hx
    · exact hx) s h

/-- Every declared region of the list is poisoned. -/
theorem poisonRgns_poisons (st : BitVec 16) (ps : List (Nat × Nat)) (s : State) (p : Nat × Nat) (hp : p ∈ ps)
    (hv : (rgnOf s p.1 p.2).valid = true) : PoisonedBy st (rgnOf (poisonRgns st ps s) p.1 p.2) := by
  induction ps generalizing s with
  | nil => exact absurd hp List.not_mem_nil
  | cons q ps ih =>
    have hcons : poisonRgns st (q :: ps) s = poisonRgns st ps (if (rgnOf s q.1 q.2).valid then modRgn s q.1 q.2 (poisonRgn st) else s) := rfl
    rw [hcons]
    rcases List.mem_cons.mp hp with rfl | hmem
    · rw [if_pos hv]
      refine poisonedBy_poisonRgns st ps _ _ _ ?_
      rw [rgnOf_modRgn_valid s _ _ _ hv]
      exact ⟨rfl, rfl⟩
    · refine ih _ hmem ?_
      split
      · rw [rgnOf_modRgn_keeps Region.valid (f := poisonRgn st) (fun _ => rfl), hv]
      · exact hv

theorem writesFrom_congr {s u : State} {t x : Tour} (hgals : u.gals = s.gals) (hfuses : u.fuses = s.fuses)
    (himage : ∀ g, galImage u x g = galImage s t g) (htotal : ∀ g, stepTotal x g = stepTotal t g) (g i : Nat) :
    writesFrom u x g i = writesFrom s t g i := by
  have hctx : mkCtx u g (galImage u x g) = mkCtx s g (galImage s t g) := by
    funext st
    rw [himage, mkCtx_congr (perDie_congr hfuses) (rgnOf_congr hgals)]
  unfold writesFrom
  dsimp only
  rw [htotal]
  refine congrArg (fun f => List.flatMap f _) ?_
  funext k
  rw [himage] at hctx ⊢
  rw [hctx]

/-- The halt of a gallery outside any step, at an end with DEADLINE_MISSED. -/
theorem rgnOf_haltGallery_missed (t : Tour) (g : Nat) (s : State) (hrun : (galOf s g).run = .none) (k m : Nat) :
    rgnOf (haltGallery t stDeadlineMissed g s) k m = rgnOf (poisonRgns stDeadlineMissed (writesFrom s t g (vget t.next g 0)) s) k m := by
  have hsettle : settleStep g s = s := by rw [settleStep, hrun]
  unfold haltGallery
  rw [hsettle]
  dsimp only
  rw [hrun, if_pos rfl]
  dsimp only
  rw [if_neg Bool.false_ne_true, apply_ite (fun x => rgnOf x k m), rgnOf_modWork, ite_self]
  rfl

/-- What an end with DEADLINE_MISSED poisons of a tour on one gallery, outside any step. -/
theorem haltTour_missed (id : Quad) (s : State) (t : Tour) (g : Nat) (ht : tourOf s id = some t) (hst : t.status = some stDeadlineMissed)
    (hh : t.halted = false) (hmask : maskList t.mask = [g]) (hrun : (galOf s g).run = .none) (p : Nat × Nat)
    (hp : p ∈ writesFrom s t g (vget t.next g 0)) (hv : (rgnOf s p.1 p.2).valid = true) :
    PoisonedBy stDeadlineMissed (rgnOf (haltTour id s) p.1 p.2) := by
  unfold haltTour
  rw [ht]
  dsimp only
  rw [hst]
  dsimp only
  rw [hh, if_neg Bool.false_ne_true, if_pos (.inr rfl), hmask]
  have e : ∀ x : State, rgnOf (modTour x id (fun y => { y with halted := true })) p.1 p.2 = rgnOf x p.1 p.2 := fun _ => rfl
  rw [e, List.foldl_cons, List.foldl_nil, rgnOf_haltGallery_missed t g s hrun]
  exact poisonRgns_poisons _ _ s p hp hv

theorem doHoldLimit_eq (id : Quad) (t : Tour) (s : State) (hhub : hubRuns s = true) (ht : tourOf s id = some t) (hst : t.status = .none)
    (hacc : tourAccepted t = true) (hlimit : (if t.hold = 0 then 2 ^ 24 else t.hold) < slipOf t) :
    doHoldLimit id s = haltAtEdge id (endEarly id stDeadlineMissed (causeOnly 5) s.time.now s.time.now s) := by
  unfold doHoldLimit
  rw [ht]
  dsimp only
  rw [if_pos (by rw [hhub, hacc, tourAlive, hst, holdLimit, decide_eq_true hlimit]; rfl)]

theorem holdLimitEnds (id : Quad) (t : Tour) (s : State) (hhub : hubRuns s = true) (ht : tourOf s id = some t) (hst : t.status = .none)
    (hacc : tourAccepted t = true) (hlimit : (if t.hold = 0 then 2 ^ 24 else t.hold) < slipOf t) :
        ∃ u, exec (.holdLimitExceeded id) s = .next u ∧
          (∃ m, tourOf u id = some { t with status := some stDeadlineMissed, faultAt := causeOnly 5, endTick := s.time.now,
                                            stopAt := s.time.now, halted := true, missed := m }) ∧
          (∀ k, k ≠ id → tourOf u k = tourOf s k) ∧ u = { s with tours := u.tours, gals := u.gals } ∧
          (∀ g, t.halted = false → maskList t.mask = [g] → (galOf s g).run = .none →
            ∀ p ∈ writesFrom s t g (vget t.next g 0), (rgnOf s p.1 p.2).valid = true →
              (rgnOf u p.1 p.2).poisoned = true ∧ (rgnOf u p.1 p.2).poisonCode = stDeadlineMissed) := by
  have hdo : exec (.holdLimitExceeded id) s = .next (doHoldLimit id s) := rfl
  obtain ⟨⟨ws, hid, -⟩, hother, hframe⟩ := endNow_parts id stDeadlineMissed (causeOnly 5) s t ht hacc hst
  rw [hdo, doHoldLimit_eq id t s hhub ht hst hacc hlimit]
  refine ⟨_, rfl, ⟨_, hid⟩, hother, hframe, fun g hh hmask hrun p hp hv => ?_⟩
  rw [haltAtEdge_endEarly id _ _ s t ht hacc hst]
  refine haltTour_missed id _ _ g (tourOf_endEarly_first id _ _ _ _ s t ht hst) rfl hh hmask hrun p ?_ hv
  have hwrites := writesFrom_congr (s := s) (u := endEarly id stDeadlineMissed (causeOnly 5) s.time.now s.time.now s) (t := t)
    (x := { t with status := some stDeadlineMissed, faultAt := causeOnly 5, endTick := s.time.now, stopAt := s.time.now }) rfl rfl
    (fun _ => rfl) (fun _ => rfl) g (vget t.next g 0)
  exact (congrArg (p ∈ ·) hwrites).mpr hp

/-! ### The bridge -/

theorem failCrossings_frame (n : Nat) (cs : List (Quad × BitVec 5)) (s : State) :
    ∃ c ts, failCrossings n cs s = { s with freeCount := c, tours := ts } := by
  unfold failCrossings
  induction cs generalizing s with
  | nil => exact ⟨s.freeCount, s.tours, rfl⟩
  | cons p cs ih =>
    have hone : ∃ c ts, (match tourOf s p.1 with
        | some t => if t.state = .running ∧ t.restore.isSome ∧ t.mask.getLsbD p.2.toNat then
            endWithin n t stLateRelease p.2.toNat 0 7 s else s
        | .none => s) = { s with freeCount := c, tours := ts } := by
      split
      · split
        · exact endWithin_frame ..
        · exact ⟨s.freeCount, s.tours, rfl⟩
      · exact ⟨s.freeCount, s.tours, rfl⟩
    obtain ⟨c, ts, h⟩ := hone
    obtain ⟨c', ts', h'⟩ := ih { s with freeCount := c, tours := ts }
    refine ⟨c', ts', ?_⟩
    rw [List.foldl_cons]
    refine Eq.trans ?_ h'
    exact congrArg (fun x => List.foldl _ x cs) h

theorem dieOf_congr {s u : State} (h : u.fuses = s.fuses) (g : Nat) : dieOf u g = dieOf s g := by
  rw [dieOf, siteOf, h, dieOf, siteOf]

/-- The inbox of a gallery holds nothing from another die that is not lost. -/
def InboxLost (die : Nat) (x : Gallery) : Prop := ∀ w ∈ x.inbox, stackDie (stackOf w.addr) ≠ die → w.lost = true

theorem besideGals_loseInFlight (die : Nat) (s : State) : besideGals (loseInFlight die s) = besideGals s := by
  unfold loseInFlight
  refine foldRange_keeps besideGals _ _ (fun g x => ?_) s
  split <;> rfl

theorem inboxLost_loseInFlight (die : Nat) (s : State) (g : Nat) (hg : g < numGal s) (hdie : dieOf s g = die) :
    InboxLost die (galOf (loseInFlight die s) g) := by
  have hg32 : g < 32 := hg.trans_le (numGal_le s)
  unfold loseInFlight
  dsimp only
  generalize hF : (fun (g : Nat) (x : State) => if dieOf x g != die then x else modGal x g _) = F
  have hfuses : ∀ n, (foldRange n F s).fuses = s.fuses := fun n => foldRange_keeps State.fuses n F (fun k x => by
    rw [← hF]
    dsimp only
    split <;> rfl) s
  have hown : ∀ x : State, dieOf x g = die → InboxLost die (galOf (F g x) g) := fun x hx => by
    rw [← hF]
    dsimp only
    rw [if_neg (by simp [hx]), galOf_modGal_same _ g _ hg32]
    intro w hw hne
    obtain ⟨v, -, rfl⟩ := List.mem_map.mp hw
    by_cases hv : (stackDie (stackOf v.addr) != die) = true
    · rw [if_pos hv]
    · rw [if_neg hv] at hne
      exact absurd (bne_iff_ne.mpr hne) hv
  have hrest : ∀ (k : Nat) (x : State), k ≠ g → galOf (F k x) g = galOf x g := fun k x hk => by
    rw [← hF]
    dsimp only
    split
    · rfl
    · exact galOf_modGal_other _ k g _ (Ne.symm hk)
  have hfold : ∀ n, g < n → InboxLost die (galOf (foldRange n F s) g) := by
    intro n
    induction n with
    | zero => omega
    | succ n ih =>
      intro hn
      rw [foldRange_succ]
      by_cases hng : n = g
      · subst hng
        exact hown _ ((dieOf_congr (hfuses n) n).trans hdie)
      · rw [hrest n _ hng]
        exact ih (by omega)
  exact hfold _ hg

/-- A flit lost is counted, and nothing on its way into the die arrives. -/
theorem flitLoss (dir10 : Bool) (cs : List (Quad × BitVec 5)) (s : State) (hup : (if dir10 then s.bridge.dir10Up else s.bridge.dir01Up) = true) :
    ∃ u, exec (.bridgeFlitLoss dir10 cs) s = .next u ∧ u.bridge = { s.bridge with
        flitLosses := bump8 s.bridge.flitLosses, lossTicks := s.time.now :: recentLosses s.time.now s.bridge.lossTicks } ∧
      (∀ g < numGal s, dieOf s g = (if dir10 then 0 else 1) → ∀ w ∈ (galOf u g).inbox,
        stackDie (stackOf w.addr) ≠ (if dir10 then 0 else 1) → w.lost = true) := by
  have hdo : exec (.bridgeFlitLoss dir10 cs) s = .next (doFlitLoss dir10 cs s) := rfl
  refine ⟨_, hdo, ?_⟩
  unfold doFlitLoss
  rw [dirUp, hup]
  dsimp only
  rw [if_neg (by decide)]
  generalize hv : ({ s with bridge := { s.bridge with flitLosses := bump8 s.bridge.flitLosses, lossTicks := s.time.now :: recentLosses s.time.now s.bridge.lossTicks } } : State) = v
  have hnum : numGal v = numGal s := by rw [← hv]; rfl
  have hdie : ∀ g, dieOf v g = dieOf s g := fun g => dieOf_congr (by rw [← hv]) g
  have hbridge : v.bridge = { s.bridge with
      flitLosses := bump8 s.bridge.flitLosses, lossTicks := s.time.now :: recentLosses s.time.now s.bridge.lossTicks } := by rw [← hv]
  obtain ⟨c, ts, h⟩ := failCrossings_frame 112 (cs.filter (fun c => dieOf v c.2.toNat == if dir10 then 0 else 1)) (loseInFlight (if dir10 then 0 else 1) v)
  rw [h]
  refine ⟨(congrArg State.bridge (besideGals_loseInFlight _ v) :).trans hbridge, fun g hg hd w hw hne => ?_⟩
  exact inboxLost_loseInFlight _ v g (hnum ▸ hg) ((hdie g).trans hd) w hw hne

theorem bridgeRetrain_parts (cs : List (Quad × BitVec 5)) (s : State) (hr : s.bridge.retraining = false)
    (hloss : 4 ≤ (recentLosses s.time.now s.bridge.lossTicks).length) :
    (doBridgeRetrain cs s).bridge = { s.bridge with
      retrains := bump8 s.bridge.retrains, retraining := true, dir10Up := false, dir01Up := false, lossTicks := []
      startTick := s.time.now } ∧ (doBridgeRetrain cs s).health.taps.tr = s.health.taps.tr + 1 := by
  unfold doBridgeRetrain
  rw [hr, if_neg (by simpa using hloss)]
  dsimp only
  obtain ⟨c, ts, h⟩ := failCrossings_frame 5000 cs (modTaps { s with bridge := { s.bridge with
    retrains := bump8 s.bridge.retrains, retraining := true, dir10Up := false, dir01Up := false, lossTicks := []
    startTick := s.time.now } } (fun t => { t with tr := t.tr + 1 }))
  rw [h]
  exact ⟨rfl, rfl⟩

/-! ### Late arrivals -/

theorem run_completeStep (g i : Nat) (s : State) (k : Nat) : (galOf (completeStep g i s) k).run = (galOf s k).run :=
  completeStep_keeps (fun x => (galOf x k).run)
    (fun x g j f => galOf_modGal_keeps Gallery.run (f := fun y => { y with regions := vset y.regions j (f (rgnOf x g j)) }) (fun _ => rfl) x g k)
    (fun x g f _ => galOf_modGal_keeps Gallery.run (f := fun y => { y with regs := f y.regs }) (fun _ => rfl) x g k)
    (fun x g f => galOf_modGal_keeps Gallery.run (f := fun y => { y with work := f y.work }) (fun _ => rfl) x g k) g i s

/-- The step of a gallery, once the one that has run to its end is left. -/
theorem run_settleStep (g : Nat) (s : State) (k : Nat) : (galOf (settleStep g s) k).run =
    if k = g ∧ stepDone s g s.time.now = true then .none else (galOf s k).run := by
  cases hrun : (galOf s g).run with
  | none =>
    have hdone : stepDone s g s.time.now = false := by rw [stepDone, hrun]
    rw [settleStep, hrun, hdone, if_neg (by simp)]
  | some r =>
    have hg : g < 32 := by
      by_contra h
      rw [galOf_beyond s g (Nat.le_of_not_lt h)] at hrun
      exact absurd hrun (by simp [Gallery.reset])
    by_cases hdone : stepDone s g s.time.now = true
    · rw [settleStep_done g r s hrun hdone]
      by_cases hk : k = g
      · rw [if_pos ⟨hk, hdone⟩, hk, galOf_leaveStep_same _ _ hg]
      · rw [if_neg (fun h => hk h.1), galOf_leaveStep_other _ _ _ hk, run_completeStep]
    · have hstay : settleStep g s = s := by
        rw [settleStep, hrun]
        exact if_neg hdone
      rw [if_neg (fun h => hdone h.2), hstay]

/-- Two states have the same tours, the same tick and the same steps under way. -/
structure SameRuns (s u : State) : Prop where
  tours : u.tours = s.tours
  time : u.time = s.time
  run : ∀ k, (galOf u k).run = (galOf s k).run

theorem SameRuns.stepDone {s u : State} (h : SameRuns s u) (g n : Nat) : stepDone u g n = stepDone s g n := by
  rw [Machine.stepDone, h.run, Machine.stepDone]
  cases (galOf s g).run with
  | none => rfl
  | some r =>
    dsimp only
    rw [tourOf_congr h.tours]

theorem SameRuns.settleStep {s u : State} (h : SameRuns s u) (g : Nat) : SameRuns (settleStep g s) (settleStep g u) :=
  ⟨by rw [tours_settleStep, tours_settleStep, h.tours],
    ((congrArg State.time (besideTours_settleStep g u) :).trans h.time).trans (congrArg State.time (besideTours_settleStep g s) :).symm,
    fun k => by rw [run_settleStep, run_settleStep, h.stepDone, h.time, h.run]⟩

theorem SameRuns.settleGals {s u : State} (h : SameRuns s u) (m : BitVec 32) : SameRuns (settleGals m s) (settleGals m u) := by
  unfold Machine.settleGals
  induction maskList m generalizing s u with
  | nil => exact h
  | cons g gs ih => exact ih (h.settleStep g)

theorem SameRuns.tourOver {s u : State} (h : SameRuns s u) (t : Tour) : tourOver u t = tourOver s t := by
  have hv := h.settleGals t.mask
  unfold Machine.settleGals at hv
  unfold Machine.tourOver
  dsimp only
  have hall : allStepsDone ((maskList t.mask).foldl (fun x g => Machine.settleStep g x) u) t
      = allStepsDone ((maskList t.mask).foldl (fun x g => Machine.settleStep g x) s) t := by
    unfold allStepsDone
    refine congrArg (fun p => (maskList t.mask).all p) ?_
    funext g
    rw [hv.run]
  rw [hall, tourOf_congr hv.tours, h.time]

theorem sameRuns_modRegs (s : State) (g : Nat) (f : GalRegs → GalRegs) : SameRuns s (modRegs s g f) :=
  ⟨rfl, rfl, fun k => galOf_modGal_keeps Gallery.run (f := fun x => { x with regs := f x.regs }) (fun _ => rfl) s g k⟩

theorem relayHop_range (s : State) (t : Tour) (g : Nat) : 1 ≤ (relayHop s t g).getD 5 ∧ (relayHop s t g).getD 5 ≤ 5 := by
  unfold relayHop
  cases spanOf t g with
  | none => simp
  | some sp =>
    dsimp only [Option.bind_some]
    split
    · simp
    · split <;> simp

/-- An ending in the present tick stops its tour at the next tick edge. -/
theorem endInTick_ends (t : Tour) (st : BitVec 16) (g station cause : Nat) (s : State) (hcycle : s.time.cycle < 100) :
    ∃ loc c, endInTick t st g station cause s = endEarly t.tourId st loc s.time.now (s.time.now + 1) { s with freeCount := c } ∧
      loc.gallery = g ∧ loc.cause = cause := by
  have hlt : (freeBits 16 s).1.toNat % max 1 (100 - s.time.cycle) < max 1 (100 - s.time.cycle) := Nat.mod_lt _ (by omega)
  have hX : (100 * s.time.now + s.time.cycle + (freeBits 16 s).1.toNat % max 1 (100 - s.time.cycle)) / 100 = s.time.now := by omega
  obtain ⟨n, hn⟩ := locateAt_frame t g station cause
    (100 * s.time.now + s.time.cycle + (freeBits 16 s).1.toNat % max 1 (100 - s.time.cycle)) (freeBits 16 s).2
  obtain ⟨hgal, hc⟩ := locateAt_gallery t g station cause
    (100 * s.time.now + s.time.cycle + (freeBits 16 s).1.toNat % max 1 (100 - s.time.cycle)) (freeBits 16 s).2
  have hend : endInTick t st g station cause s = (
      let X := 100 * s.time.now + s.time.cycle + (freeBits 16 s).1.toNat % max 1 (100 - s.time.cycle)
      endEarly t.tourId st (locateAt t g station cause X (freeBits 16 s).2).1 (X / 100) (X / 100 + 1)
        (locateAt t g station cause X (freeBits 16 s).2).2) := rfl
  refine ⟨_, n, ?_, hgal, hc⟩
  rw [hend]
  dsimp only
  rw [hX, hn]
  rfl

/-- A missed crossing ends its tour in the present tick, with the cause of a crossing. -/
theorem missCrossing_ends (t : Tour) (g v : Nat) (s : State) (ht : tourOf s t.tourId = some t) (hst : t.status = .none) (hcycle : s.time.cycle < 100) :
    (∃ x, tourOf (missCrossing t g v s) t.tourId = some x ∧ x.status = some stLateRelease ∧ x.stopAt = s.time.now + 1 ∧
      x.faultAt.gallery = g ∧ 1 ≤ x.faultAt.cause ∧ x.faultAt.cause ≤ 5) ∧
    ∃ c ts, missCrossing t g v s = { s with freeCount := c, tours := ts } := by
  unfold missCrossing
  extract_lets cause station
  have hcause : 1 ≤ cause ∧ cause ≤ 5 := by
    have hr := relayHop_range s t g
    show 1 ≤ (if t.restore.isSome then v % 5 + 1 else if v % 2 = 0 then (relayHop s t g).getD 5 else 5) ∧
      (if t.restore.isSome then v % 5 + 1 else if v % 2 = 0 then (relayHop s t g).getD 5 else 5) ≤ 5
    split
    · omega
    · split
      · exact hr
      · omega
  obtain ⟨loc, c, hend, hgal, hc⟩ := endInTick_ends t stLateRelease g station cause s hcycle
  have hts : tourOf { s with freeCount := c } t.tourId = some t := ht
  have hended := tourOf_endEarly_first t.tourId stLateRelease loc s.time.now (s.time.now + 1) _ t hts hst
  rw [← hend] at hended
  rw [← hc] at hcause
  exact ⟨⟨_, hended, rfl, rfl, hgal, hcause⟩, endInTick_frame ..⟩

/-- LATE_ARRIVAL_DISCARD at a gallery whose clock runs, once the arrival is counted. -/
def lateCounted (g : Nat) (s : State) : State := modRegs s g (fun r => { r with lateArrivals := bump8 r.lateArrivals })

theorem doLateArrival_idle (g : Nat) (s : State) (hg : g < numGal s) (hclock : (galOf s g).regs.clockOn = true)
    (hrun : runningOn s g = .none) : doLateArrival g s = lateCounted g s := by
  have hrun' : runningOn (lateCounted g s) g = .none := hrun
  unfold doLateArrival
  rw [decide_eq_false (Nat.not_le.mpr hg), hclock, if_neg (by decide)]
  dsimp only
  rw [← lateCounted, hrun']

/-- What a late arrival does beside its count: nothing, or the step's next release is missed, or a crossing ends the tour. -/
theorem doLateArrival_cases (g : Nat) (s : State) (t : Tour) (hg : g < numGal s) (hclock : (galOf s g).regs.clockOn = true)
    (hrun : runningOn s g = some t) :
    ((!tourAlive s t || tourOver s t) = true ∧ doLateArrival g s = lateCounted g s) ∨
    ((galOf s g).run.isSome = true ∧ ∃ c, doLateArrival g s = modGal { lateCounted g s with freeCount := c } g (fun x => { x with late := true })) ∨
    ∃ v c, doLateArrival g s = missCrossing t g v { lateCounted g s with freeCount := c } := by
  have hrun' : runningOn (lateCounted g s) g = some t := hrun
  have hsame := sameRuns_modRegs s g (fun r => { r with lateArrivals := bump8 r.lateArrivals })
  have hover : tourOver (lateCounted g s) t = tourOver s t := hsame.tourOver t
  have hstep : (galOf (lateCounted g s) g).run = (galOf s g).run := hsame.run g
  unfold doLateArrival
  rw [decide_eq_false (Nat.not_le.mpr hg), hclock, if_neg (by decide)]
  dsimp only
  rw [← lateCounted, hrun']
  dsimp only
  rw [hover, hstep]
  by_cases hquiet : (!tourAlive s t || tourOver s t) = true
  · exact .inl ⟨hquiet, if_pos hquiet⟩
  · refine .inr ?_
    have hq : ¬ (!tourAlive (lateCounted g s) t || tourOver s t) = true := hquiet
    rw [if_neg hq]
    cases hr : (galOf s g).run with
    | none => exact .inr ⟨_, _, rfl⟩
    | some r =>
      dsimp only
      split
      · exact .inl ⟨rfl, _, rfl⟩
      · exact .inr ⟨_, _, rfl⟩

theorem missCrossing_frame (t : Tour) (g v : Nat) (s : State) : ∃ c ts, missCrossing t g v s = { s with freeCount := c, tours := ts } :=
  endInTick_frame ..

theorem regs_modGal_late (s : State) (g k : Nat) : (galOf (modGal s g (fun x => { x with late := true })) k).regs = (galOf s k).regs :=
  galOf_modGal_keeps Gallery.regs (f := fun x => { x with late := true }) (fun _ => rfl) s g k

/-- What a late arrival leaves, whatever follows from it. -/
theorem doLateArrival_frame (g : Nat) (s : State) (hg : g < numGal s) (hclock : (galOf s g).regs.clockOn = true) :
    (∀ k, (galOf (doLateArrival g s) k).regs = (galOf (lateCounted g s) k).regs) ∧ (doLateArrival g s).hbm = s.hbm ∧
      (doLateArrival g s).hostMem = s.hostMem := by
  cases hrun : runningOn s g with
  | none =>
    rw [doLateArrival_idle g s hg hclock hrun]
    exact ⟨fun _ => rfl, rfl, rfl⟩
  | some t =>
    rcases doLateArrival_cases g s t hg hclock hrun with ⟨-, h⟩ | ⟨-, c, h⟩ | ⟨v, c, h⟩
    · rw [h]
      exact ⟨fun _ => rfl, rfl, rfl⟩
    · rw [h]
      exact ⟨fun k => regs_modGal_late .., rfl, rfl⟩
    · obtain ⟨c', ts, h'⟩ := missCrossing_frame t g v { lateCounted g s with freeCount := c }
      rw [h, h']
      exact ⟨fun _ => rfl, rfl, rfl⟩

theorem lateArrival_parts (g : BitVec 5) (s : State) (hg : g.toNat < numGal s) (hclock : (galOf s g.toNat).regs.clockOn = true) :
    ∃ u, exec (.lateArrivalDiscard g) s = .next u ∧
      (galOf u g.toNat).regs.lateArrivals = bump8 (galOf s g.toNat).regs.lateArrivals ∧
      (runningOn s g.toNat = .none → u.tours = s.tours ∧ (galOf u g.toNat).late = (galOf s g.toNat).late) ∧
      (∀ t, runningOn s g.toNat = some t → tourOf s t.tourId = some t → t.status = .none → tourOver s t = false →
        s.time.cycle < 100 →
        ((galOf u g.toNat).late = true ∧ (galOf s g.toNat).run.isSome = true ∧ u.tours = s.tours) ∨
        (∃ x, tourOf u t.tourId = some x ∧ x.status = some stLateRelease ∧ x.stopAt = s.time.now + 1 ∧
          x.faultAt.gallery = g.toNat ∧ 1 ≤ x.faultAt.cause ∧ x.faultAt.cause ≤ 5)) ∧
      (∀ k, k ≠ g.toNat → (galOf u k).regs = (galOf s k).regs) ∧ u.hbm = s.hbm ∧ u.hostMem = s.hostMem := by
  have hg32 : g.toNat < 32 := g.isLt
  have hdo : exec (.lateArrivalDiscard g) s = .next (doLateArrival g.toNat s) := rfl
  obtain ⟨hregs, hhbm, hhost⟩ := doLateArrival_frame g.toNat s hg hclock
  have hcounted : galOf (lateCounted g.toNat s) g.toNat = { galOf s g.toNat with
      regs := { (galOf s g.toNat).regs with lateArrivals := bump8 (galOf s g.toNat).regs.lateArrivals } } := galOf_modGal_same _ _ _ hg32
  refine ⟨_, hdo, by rw [hregs, hcounted], fun hrun => ?_, fun t hrun ht hst hover hcycle => ?_, fun k hk => ?_, hhbm, hhost⟩
  · rw [doLateArrival_idle g.toNat s hg hclock hrun]
    exact ⟨rfl, by rw [hcounted]⟩
  · rcases doLateArrival_cases g.toNat s t hg hclock hrun with ⟨hq, -⟩ | ⟨hin, c, h⟩ | ⟨v, c, h⟩
    · rw [hover, tourAlive, hst] at hq
      exact absurd hq (by simp)
    · rw [h]
      exact .inl ⟨by rw [galOf_modGal_same _ _ _ hg32], hin, rfl⟩
    · obtain ⟨hended, -⟩ := missCrossing_ends t g.toNat v { lateCounted g.toNat s with freeCount := c } ht hst hcycle
      rw [h]
      exact .inr hended
  · rw [hregs, lateCounted, modRegs, galOf_modGal_other _ _ _ _ hk]

/-! ### The loss of an island -/

theorem dropRelay_keeps {α : Type} (proj : State → α)
    (hp : ∀ x g f, proj (modGal x g (fun y => { y with relay := y.relay.filter f })) = proj x) (i : Nat) (s : State) :
    proj (dropRelay i s) = proj s := by
  unfold dropRelay
  dsimp only
  split
  · exact foldRange_keeps proj _ _ (fun g x => hp ..) s
  · refine foldl_keeps proj _ (fun x sp => ?_) _ s
    exact foldRange_keeps proj _ _ (fun k y => hp ..) x

theorem stopStepOn_keeps {α : Type} (proj : State → α) (hp : ∀ x g (r : Option RunStep), proj (modGal x g (fun y => { y with run := r })) = proj x)
    (g : Nat) (s : State) : proj (stopStepOn g s) = proj s := by
  unfold stopStepOn
  split
  · split
    · exact hp ..
    · rfl
  · rfl

/-- A tour has ended at a tick with LATE_RELEASE and stops at it. -/
def LateAt (tick : Nat) (x : Tour) : Prop := x.status = some stLateRelease ∧ x.endTick = tick ∧ x.stopAt = tick

theorem lateAt_endedTour_none (loc : FaultAt) (tick : Nat) (x : Tour) (h : x.status = .none) :
    LateAt tick (endedTour stLateRelease loc tick tick x) := by
  rw [endedTour_first h]
  exact ⟨rfl, rfl, rfl⟩

theorem lateAt_endedTour (loc : FaultAt) (tick : Nat) (x : Tour) (h : LateAt tick x) :
    LateAt tick (endedTour stLateRelease loc tick tick x) := by
  unfold endedTour
  rw [h.1]
  dsimp only
  split
  · exact ⟨rfl, rfl, rfl⟩
  · exact h

/-- The endings of a list of tours with LATE_RELEASE at a tick. -/
def endLate (tick : Nat) (at_ : Tour → Nat) (l : List Tour) (s : State) : State :=
  l.foldl (fun x t =>
    let (loc, x) := locateAt t (at_ t) 0 7 (100 * tick) x
    endEarly t.tourId stLateRelease loc tick tick x) s

theorem endLate_cons (tick : Nat) (at_ : Tour → Nat) (o : Tour) (l : List Tour) (s : State) : ∃ loc c,
    endLate tick at_ (o :: l) s = endLate tick at_ l (modTour { s with freeCount := c } o.tourId (endedTour stLateRelease loc tick tick)) := by
  obtain ⟨c, h⟩ := locateAt_frame o (at_ o) 0 7 (100 * tick) s
  refine ⟨(locateAt o (at_ o) 0 7 (100 * tick) s).1, c, ?_⟩
  rw [← h]
  rfl

theorem endLate_frame (tick : Nat) (at_ : Tour → Nat) (l : List Tour) (s : State) :
    ∃ c ts, endLate tick at_ l s = { s with freeCount := c, tours := ts } := by
  induction l generalizing s with
  | nil => exact ⟨s.freeCount, s.tours, rfl⟩
  | cons o l ih =>
    obtain ⟨loc, c, h⟩ := endLate_cons tick at_ o l s
    obtain ⟨c', ts, h'⟩ := ih (modTour { s with freeCount := c } o.tourId (endedTour stLateRelease loc tick tick))
    exact ⟨c', ts, h.trans h'⟩

/-- A tour that is late, or that runs on, stays so or is late after the endings; one of the list is late. -/
theorem tourOf_endLate (tick : Nat) (at_ : Tour → Nat) (l : List Tour) (s : State) (id : Quad) (x : Tour) (hx : tourOf s id = some x)
    (hlate : LateAt tick x ∨ x.status = .none) :
    ∃ y, tourOf (endLate tick at_ l s) id = some y ∧ (LateAt tick y ∨ y = x) ∧ ((∃ o ∈ l, o.tourId = id) → LateAt tick y) := by
  induction l generalizing s x with
  | nil => exact ⟨x, hx, .inr rfl, fun ⟨o, ho, _⟩ => absurd ho List.not_mem_nil⟩
  | cons o l ih =>
    obtain ⟨loc, c, h⟩ := endLate_cons tick at_ o l s
    rw [h]
    by_cases ho : id = o.tourId
    · have hlate' : LateAt tick (endedTour stLateRelease loc tick tick x) := by
        rcases hlate with hl | hl
        · exact lateAt_endedTour loc tick x hl
        · exact lateAt_endedTour_none loc tick x hl
      have hx' : tourOf (modTour { s with freeCount := c } o.tourId (endedTour stLateRelease loc tick tick)) id
          = some (endedTour stLateRelease loc tick tick x) := by
        subst ho
        rw [tourOf_modTour_same (keepsId_endedTour _ _ _ _)]
        exact congrArg (Option.map _) hx
      obtain ⟨y, hy, hsame, -⟩ := ih _ _ hx' (.inl hlate')
      have hly : LateAt tick y := by
        rcases hsame with hs | hs
        · exact hs
        · exact hs ▸ hlate'
      exact ⟨y, hy, .inl hly, fun _ => hly⟩
    · have hx' : tourOf (modTour { s with freeCount := c } o.tourId (endedTour stLateRelease loc tick tick)) id = some x := by
        rw [tourOf_modTour_other (keepsId_endedTour _ _ _ _) _ _ _ ho]
        exact hx
      obtain ⟨y, hy, hsame, hin⟩ := ih _ _ hx' hlate
      refine ⟨y, hy, hsame, fun ⟨p, hp, hpid⟩ => hin ?_⟩
      rcases List.mem_cons.mp hp with rfl | hp
      · exact absurd hpid.symm ho
      · exact ⟨p, hp, hpid⟩

/-- The running tours of a set that are not over end late. -/
theorem tourOf_lateTours (tick : Nat) (uses : Tour → Bool) (at_ : Tour → Nat) (s : State) (id : Quad) (t : Tour) (ht : tourOf s id = some t)
    (hst : t.status = .none) : ∃ y, tourOf (lateTours tick uses at_ s) id = some y ∧ (LateAt tick y ∨ y = t) ∧
      (t.state = .running → tourOver s t = false → uses t = true → LateAt tick y) := by
  obtain ⟨y, hy, hsame, hin⟩ := tourOf_endLate tick at_ ((runningTours s).filter uses) s id t ht (.inr hst)
  refine ⟨y, hy, hsame, fun hrun hover huse => hin ⟨t, ?_, tourId_of_tourOf ht⟩⟩
  exact List.mem_filter.mpr ⟨List.mem_filter.mpr ⟨mem_of_tourOf ht, by rw [hrun, hover]; rfl⟩, huse⟩

/-- Where a tour stands: its state, its status, and where it ends and stops. -/
def SameEnd (t x : Tour) : Prop := x.state = t.state ∧ x.status = t.status ∧ x.endTick = t.endTick ∧ x.stopAt = t.stopAt

theorem haltAtEdge_oneTour (id : Quad) (s : State) : ∃ (h : Tour → Bool) (ws : List (Nat × Nat)),
    OneTour id (fun x => { x with halted := h x, missed := ws ++ x.missed }) s (haltAtEdge id s) := by
  unfold haltAtEdge
  split
  · exact ⟨Tour.halted, [], OneTour.of_tours rfl⟩
  · split
    · exact haltTour_oneTour id s
    · exact ⟨Tour.halted, [], OneTour.of_tours rfl⟩

theorem tourOf_haltAll (l : List Tour) (s : State) (id : Quad) (t : Tour) (ht : tourOf s id = some t) :
    ∃ x, tourOf (l.foldl (fun x o => haltAtEdge o.tourId x) s) id = some x ∧ SameEnd t x := by
  induction l generalizing s t with
  | nil => exact ⟨t, ht, rfl, rfl, rfl, rfl⟩
  | cons o l ih =>
    obtain ⟨h, ws, hone⟩ := haltAtEdge_oneTour o.tourId s
    by_cases hid : id = o.tourId
    · subst hid
      have hx := hone.same
      rw [ht, Option.map_some] at hx
      obtain ⟨y, hy, hend⟩ := ih _ _ hx
      exact ⟨y, hy, hend⟩
    · exact ih _ _ ((hone.other id hid).trans ht)

/-! ### The loss of the hub's island -/

/-- A tour that has ended stops at a tick at the latest. -/
def stoppedBy (now : Nat) (t : Tour) : Tour := if t.status.isSome then { t with stopAt := min t.stopAt now } else t

/-- The ended tours stop at a tick at the latest. -/
def stopBy (now : Nat) (s : State) : State := { s with tours := s.tours.map (stoppedBy now) }

theorem stoppedBy_none (now : Nat) (t : Tour) (h : t.status = .none) : stoppedBy now t = t := by
  rw [stoppedBy, h]
  rfl

theorem lateAt_stoppedBy (now : Nat) (t : Tour) (h : LateAt now t) : LateAt now (stoppedBy now t) := by
  obtain ⟨hst, hend, hstop⟩ := h
  have e : stoppedBy now t = { t with stopAt := min t.stopAt now } := if_pos (by rw [hst]; rfl)
  rw [e]
  exact ⟨hst, hend, by show min t.stopAt now = now; rw [hstop, Nat.min_self]⟩

/-- The galleries of every tour that has ended stop. -/
def haltAll (s : State) : State := s.tours.foldl (fun x t => haltAtEdge t.tourId x) s

theorem loseHub_eq (s : State) : loseHub s =
    (let w := haltAll (stopBy s.time.now (lateTours s.time.now (fun _ => true) firstGal s))
    endLate s.time.now firstGal (w.tours.filter (fun t => t.state == .accepted && t.status.isNone)) w) := rfl

theorem tourOf_stopBy (now : Nat) (s : State) (id : Quad) (t : Tour) (ht : tourOf s id = some t) :
    tourOf (stopBy now s) id = some (stoppedBy now t) := by
  rw [tourOf, stopBy, List.find?_map]
  have hp : (fun t : Tour => t.tourId == id) ∘ stoppedBy now = fun t => t.tourId == id := by
    funext x
    dsimp only [Function.comp, stoppedBy]
    split <;> rfl
  rw [hp]
  exact congrArg (Option.map _) ht

/-- The loss of the hub's island ends a tour that runs or is accepted at once. -/
theorem tourOf_loseHub (s : State) (id : Quad) (t : Tour) (ht : tourOf s id = some t) (hst : t.status = .none)
    (hlive : (t.state = .running ∧ tourOver s t = false) ∨ t.state = .accepted) :
    ∃ x, tourOf (loseHub s) id = some x ∧ LateAt s.time.now x := by
  obtain ⟨y, hy, hsame, hrun⟩ := tourOf_lateTours s.time.now (fun _ => true) firstGal s id t ht hst
  have hdoomed : LateAt s.time.now y ∨ (y.status = .none ∧ y.state = .accepted) := by
    rcases hlive with ⟨hr, ho⟩ | hacc
    · exact .inl (hrun hr ho rfl)
    · refine hsame.imp_right (fun e => ?_)
      rw [e]
      exact ⟨hst, hacc⟩
  have hstop := tourOf_stopBy s.time.now _ id y hy
  have hdoomed' : LateAt s.time.now (stoppedBy s.time.now y) ∨
      ((stoppedBy s.time.now y).status = .none ∧ (stoppedBy s.time.now y).state = .accepted) := by
    rcases hdoomed with hl | hn
    · exact .inl (lateAt_stoppedBy _ _ hl)
    · rw [stoppedBy_none _ _ hn.1]
      exact .inr hn
  generalize stoppedBy s.time.now y = z at hstop hdoomed'
  obtain ⟨x, hx, hxstate, hxstatus, hxend, hxstop⟩ := tourOf_haltAll (stopBy s.time.now (lateTours s.time.now (fun _ => true) firstGal s)).tours _ id z hstop
  rw [← haltAll] at hx
  rw [loseHub_eq]
  dsimp only
  generalize haltAll (stopBy s.time.now (lateTours s.time.now (fun _ => true) firstGal s)) = w at hx
  rcases hdoomed' with ⟨h1, h2, h3⟩ | ⟨h1, h2⟩
  · have hlate : LateAt s.time.now x := ⟨hxstatus.trans h1, hxend.trans h2, hxstop.trans h3⟩
    obtain ⟨v, hv, hvsame, -⟩ := tourOf_endLate s.time.now firstGal
      (w.tours.filter (fun t => t.state == .accepted && t.status.isNone)) w id x hx (.inl hlate)
    exact ⟨v, hv, hvsame.elim (fun h => h) (fun h => h ▸ hlate)⟩
  · obtain ⟨v, hv, -, hin⟩ := tourOf_endLate s.time.now firstGal
      (w.tours.filter (fun t => t.state == .accepted && t.status.isNone)) w id x hx (.inr (hxstatus.trans h1))
    exact ⟨v, hv, hin ⟨x, List.mem_filter.mpr ⟨mem_of_tourOf hx, by rw [hxstate, h2, hxstatus, h1]; rfl⟩, tourId_of_tourOf hx⟩⟩

/-! ### ISLAND_LOCK_LOSS -/

/-- The state beside galleries, tours, module time's locks and free values. -/
def besideLoss (s : State) : State := { besideTours s with freeCount := 0 }

theorem besideLoss_of_besideTours {s u : State} (h : besideTours u = besideTours s) : besideLoss u = besideLoss s := by
  rw [besideLoss, besideLoss, h]

theorem besideLoss_endLate (tick : Nat) (at_ : Tour → Nat) (l : List Tour) (s : State) : besideLoss (endLate tick at_ l s) = besideLoss s := by
  obtain ⟨c, ts, h⟩ := endLate_frame tick at_ l s
  rw [h]
  rfl

theorem besideLoss_lateTours (tick : Nat) (uses : Tour → Bool) (at_ : Tour → Nat) (s : State) :
    besideLoss (lateTours tick uses at_ s) = besideLoss s := besideLoss_endLate tick at_ _ s

theorem besideLoss_loseHub (s : State) : besideLoss (loseHub s) = besideLoss s := by
  rw [loseHub_eq]
  dsimp only
  rw [besideLoss_endLate]
  have hhalt : ∀ x, besideLoss (haltAll x) = besideLoss x := fun x => besideLoss_of_besideTours
    (foldl_keeps besideTours (fun x (t : Tour) => haltAtEdge t.tourId x) (fun x t => besideTours_haltAtEdge t.tourId x) x.tours x)
  exact (hhalt _).trans (besideLoss_lateTours s.time.now _ firstGal s)

/-- The endings that the loss of an island brings. -/
def islandEndings (i : Nat) (s : State) : State :=
  if i = 42 then loseHub s
  else lateTours (s.time.now + 1) (fun t => usesIsland s t i) (fun t => if i < 32 then i else firstGal t) s

theorem besideLoss_islandEndings (i : Nat) (s : State) : besideLoss (islandEndings i s) = besideLoss s := by
  unfold islandEndings
  split
  · exact besideLoss_loseHub s
  · exact besideLoss_lateTours ..

theorem gals_islandEndings (i : Nat) (s : State) (hi : i ≠ 42) : (islandEndings i s).gals = s.gals := by
  rw [islandEndings, if_neg hi]
  obtain ⟨c, ts, h⟩ := endLate_frame (s.time.now + 1) (fun t => if i < 32 then i else firstGal t)
    ((runningTours s).filter (fun t => usesIsland s t i)) s
  exact (congrArg State.gals h :)

/-- The island's lock bit reads 0, with what was on its way there dropped. -/
def unlocked (i : Nat) (s : State) : State := modTime (dropRelay i s) (fun t => { t with islandLock := t.islandLock &&& ~~~((1 : Quad) <<< i) })

theorem doIslandLoss_eq (i : Nat) (s : State) (hhub : hubRuns s = true) (hi : i < 43) (hlock : s.time.islandLock.getLsbD i = true) :
    doIslandLoss i s = if i < 32 then modRegs (stopStepOn i (unlocked i (islandEndings i s))) i (fun r => { r with clockOn := false })
      else unlocked i (islandEndings i s) := by
  unfold doIslandLoss
  rw [hhub, hlock, decide_eq_false (Nat.not_le.mpr hi), if_neg (by decide)]
  rfl

theorem doIslandLoss_keeps {α : Type} (proj : State → α) (hgal : ∀ x g f, proj (modGal x g f) = proj x) (i : Nat) (s : State)
    (hhub : hubRuns s = true) (hi : i < 43) (hlock : s.time.islandLock.getLsbD i = true) :
    proj (doIslandLoss i s) = proj (modTime (dropRelay i (islandEndings i s)) (fun t => { t with islandLock := t.islandLock &&& ~~~((1 : Quad) <<< i) })) := by
  rw [doIslandLoss_eq i s hhub hi hlock]
  split
  · rw [modRegs, hgal, stopStepOn_keeps proj (fun x g r => hgal ..)]
    rfl
  · rfl

/-- The loss of an island changes no register of a gallery that is not its own, but by the endings that it brings. -/
theorem regs_doIslandLoss (i g : Nat) (s : State) (hhub : hubRuns s = true) (hi : i < 43) (hlock : s.time.islandLock.getLsbD i = true)
    (hg : g ≠ i) : (galOf (doIslandLoss i s) g).regs = (galOf (islandEndings i s) g).regs := by
  have hunlocked : (galOf (unlocked i (islandEndings i s)) g).regs = (galOf (islandEndings i s) g).regs :=
    dropRelay_keeps (fun x => (galOf x g).regs)
      (fun x k f => galOf_modGal_keeps Gallery.regs (f := fun y => { y with relay := y.relay.filter f }) (fun _ => rfl) x k g) i _
  rw [doIslandLoss_eq i s hhub hi hlock, ← hunlocked]
  split
  · rw [modRegs, galOf_modGal_other _ _ _ _ hg]
    exact stopStepOn_keeps (fun x => (galOf x g).regs)
      (fun x k r => galOf_modGal_keeps Gallery.regs (f := fun y => { y with run := r }) (fun _ => rfl) x k g) i _
  · rfl

theorem islandLoss (i : BitVec 6) (s : State) (hhub : hubRuns s = true) (hi : i.toNat < 43) (hlock : s.time.islandLock.getLsbD i.toNat = true) :
    ∃ u, exec (.islandLockLoss i) s = .next u ∧
      u.time = { s.time with islandLock := s.time.islandLock &&& ~~~((1 : Quad) <<< i.toNat) } ∧
      (i.toNat < 32 → (galOf u i.toNat).regs.clockOn = false) ∧
      (i.toNat ≠ 42 → ∀ g, g ≠ i.toNat → (galOf u g).regs = (galOf s g).regs) ∧
      (∀ id t, tourOf s id = some t → t.status = .none → usesIsland s t i.toNat = true →
        (t.state = .running ∧ tourOver s t = false) ∨ (t.state = .accepted ∧ i.toNat = 42) →
        ∃ x, tourOf u id = some x ∧ x.status = some stLateRelease ∧
          x.stopAt = if i.toNat = 42 then s.time.now else s.time.now + 1) ∧
      u.hbm = s.hbm ∧ u.hostMem = s.hostMem := by
  have hdo : exec (.islandLockLoss i) s = .next (doIslandLoss i.toNat s) := rfl
  have hbeside := besideLoss_islandEndings i.toNat s
  have hdrop : ∀ {α : Type} (proj : State → α), (∀ x g f, proj (modGal x g f) = proj x) → proj (dropRelay i.toNat (islandEndings i.toNat s)) = proj (islandEndings i.toNat s) :=
    fun proj hgal => dropRelay_keeps proj (fun x g f => hgal ..) _ _
  have htime := doIslandLoss_keeps State.time (fun _ _ _ => rfl) i.toNat s hhub hi hlock
  have htours := doIslandLoss_keeps State.tours (fun _ _ _ => rfl) i.toNat s hhub hi hlock
  have hhbm := doIslandLoss_keeps State.hbm (fun _ _ _ => rfl) i.toNat s hhub hi hlock
  have hhost := doIslandLoss_keeps State.hostMem (fun _ _ _ => rfl) i.toNat s hhub hi hlock
  rw [modTime_tours, hdrop State.tours (fun _ _ _ => rfl)] at htours
  rw [modTime_hbm, hdrop State.hbm (fun _ _ _ => rfl)] at hhbm
  rw [modTime_hostMem, hdrop State.hostMem (fun _ _ _ => rfl)] at hhost
  refine ⟨_, hdo, ?_, fun h32 => ?_, fun h42 g hg => ?_, fun id t ht hst huse hlive => ?_, hhbm.trans (congrArg State.hbm hbeside :),
    hhost.trans (congrArg State.hostMem hbeside :)⟩
  · have hdropped : (dropRelay i.toNat (islandEndings i.toNat s)).time = s.time :=
      (hdrop State.time (fun _ _ _ => rfl)).trans (congrArg State.time hbeside :)
    rw [htime, modTime]
    dsimp only
    rw [hdropped]
  · rw [doIslandLoss_eq i.toNat s hhub hi hlock, if_pos h32, modRegs, galOf_modGal_same _ _ _ h32]
  · have hother := regs_doIslandLoss i.toNat g s hhub hi hlock hg
    rw [hother, galOf, gals_islandEndings _ _ h42, ← galOf]
  · have htour : ∀ k, tourOf (doIslandLoss i.toNat s) k = tourOf (islandEndings i.toNat s) k := fun k => tourOf_congr htours k
    rw [htour]
    by_cases h42 : i.toNat = 42
    · obtain ⟨x, hx, hstatus, -, hstop⟩ := tourOf_loseHub s id t ht hst (hlive.imp_right (·.1))
      rw [if_pos h42]
      exact ⟨x, by rw [islandEndings, if_pos h42, hx], hstatus, hstop⟩
    · obtain ⟨x, hx, -, hlate⟩ := tourOf_lateTours (s.time.now + 1) (fun t => usesIsland s t i.toNat)
        (fun t => if i.toNat < 32 then i.toNat else firstGal t) s id t ht hst
      obtain ⟨hrun, hover⟩ := hlive.resolve_right (fun h => h42 h.2)
      obtain ⟨hstatus, -, hstop⟩ := hlate hrun hover huse
      rw [if_neg h42]
      exact ⟨x, by rw [islandEndings, if_neg h42, hx], hstatus, hstop⟩

/-- Settles O34. -/
theorem toursEndEarly : Obligations.ToursEndEarly := by
  unfold Obligations.ToursEndEarly
  refine ⟨fun id t s hhub ht hst => ⟨fun g r hrun hrst hover hg hbit hfirst hstep hid hend => ?_,
    fun hacc hlimit => holdLimitEnds id t s hhub ht hst hacc hlimit⟩,
    fun s => ⟨fun i hhub hi hlock => islandLoss i s hhub hi hlock, fun dir10 cs hup => flitLoss dir10 cs s hup,
      fun cs hr hloss => ⟨_, rfl, bridgeRetrain_parts cs s hr hloss⟩, fun hr => ?_, fun g hg hclock => lateArrival_parts g s hg hclock⟩⟩
  · have hdo : exec (.tourOverrun id) s = .next (doTourOverrun id s) := rfl
    obtain ⟨⟨ws, hended, hws⟩, hother, hframe⟩ := endNow_parts id stTourOverrun
      { step := r.index, gallery := g, station := 7, cause := 0, stepCycle := 100 * (s.time.now - r.launched) } s t ht
      (by rw [tourAccepted, hrun]; rfl) hst
    rw [hdo, doTourOverrun_eq id t g r s hhub ht hst hrun hrst hover hg hbit hfirst hstep hid hend]
    rw [hws (by decide)] at hended
    exact ⟨_, rfl, hended, hother, hframe⟩
  · have hdo : exec .bridgeRetrainDone s = .next (doRetrainDone s) := rfl
    rw [hdo, doRetrainDone, if_pos hr]

end Sys2Proof.Machine
end

section
/-!
PROOF. The big-number engine (19 R414 to R418).
-/

namespace Sys2Proof.Machine

/-! ### Powers modulo m -/

/-- Square and multiply, with a bit of the exponent in each round. -/
theorem powModFrom_eq (n a e m acc : Nat) (he : e < 2 ^ n) (hacc : acc % m = acc) : powModFrom n a e m acc = acc * a ^ e % m := by
  induction n generalizing a e acc with
  | zero =>
    obtain rfl : e = 0 := by simpa using he
    rw [powModFrom, pow_zero, Nat.mul_one, hacc]
  | succ n ih =>
    have hhalf : e / 2 < 2 ^ n := by rw [Nat.div_lt_iff_lt_mul (by decide)]; rwa [pow_succ] at he
    have hsquare : ∀ x, x * (a * a % m) ^ (e / 2) % m = x * a ^ (2 * (e / 2)) % m := fun x => by
      rw [pow_mul, pow_two, Nat.mul_mod, ← Nat.pow_mod, ← Nat.mul_mod]
    rw [powModFrom]
    by_cases hodd : e % 2 = 1
    · rw [if_pos hodd, ih _ _ _ hhalf (Nat.mod_mod _ _), hsquare, Nat.mod_mul_mod, mul_assoc, ← pow_succ']
      congr 3
      omega
    · rw [if_neg hodd, ih _ _ _ hhalf hacc, hsquare]
      congr 3
      omega

theorem powMod_eq (a e m : Nat) : powMod a e m = a ^ e % m := by
  rw [powMod, powModFrom_eq _ _ _ _ _ Nat.lt_log2_self (Nat.mod_mod _ _), Nat.mod_mul_mod, Nat.one_mul, ← Nat.pow_mod]

/-! ### A request block -/

theorem pkBlock_ready (addr : Nat) (lOk : Nat → Bool) (f : List Byte → Nat → State → Answer × State) (s : State) (haddr : addr % 4096 = 0)
    (hbus : s.host.busMaster = true) (hl : lOk (bytesAt (hostGet s addr 4096) 0 2) = true) :
    pkBlock addr lOk f s = f (hostGet s addr 4096) (bytesAt (hostGet s addr 4096) 0 2) s := by
  unfold pkBlock
  rw [if_neg (not_not.mpr haddr), hostReady, hbus, if_neg (by decide)]
  exact if_pos hl

theorem modInputsOk_iff (a b m : Nat) : modInputsOk a b m = true ↔ m % 2 = 1 ∧ a ≠ 0 ∧ b ≠ 0 ∧ a < m ∧ b < m := by
  simp [modInputsOk, and_assoc]

/-- The engine busy with a request. -/
def pkBusy (s : State) : State := { s with sec := { s.sec with pkBusy := true } }

theorem pkStart_eq (k : LongKind) (s : State) : pkStart k s = (ansLong k, pkBusy s) := rfl

/-- What a modular operation answers: its result, or PK_FAIL with a zero result. -/
theorem modular_kind (a b m r cycles addr : Nat) : (if modInputsOk a b m then pkDone cycles addr (leBytes 512 r) else pkFail cycles addr) =
    .pkOperation addr (if m % 2 = 1 ∧ a ≠ 0 ∧ b ≠ 0 ∧ a < m ∧ b < m then stOk else stPkFail)
      (if m % 2 = 1 ∧ a ≠ 0 ∧ b ≠ 0 ∧ a < m ∧ b < m then leBytes 512 r else List.replicate 512 0) cycles := by
  by_cases hs : modInputsOk a b m = true
  · rw [if_pos hs, if_pos ((modInputsOk_iff ..).mp hs), if_pos ((modInputsOk_iff ..).mp hs), pkDone,
      padTo_of_length _ _ (leBytes_length ..)]
  · rw [if_neg hs, if_neg (fun h => hs ((modInputsOk_iff ..).mpr h)), if_neg (fun h => hs ((modInputsOk_iff ..).mpr h)), pkFail]

/-- The modular commands, on a sound request block. -/
theorem modularRuns (h : Hdr) (addr : Quad) (s : State) (hd : docentUp s = true) (haddr : addr.toNat % 4096 = 0)
    (hbus : s.host.busMaster = true) :
      let blk := hostGet s addr.toNat 4096
      let l := bytesAt blk 0 2
      let a := pkField blk 0x40 l
      let b := pkField blk 0x240 l
      let m := pkField blk 0x440 l
      let sound := m % 2 = 1 ∧ a ≠ 0 ∧ b ≠ 0 ∧ a < m ∧ b < m
      let u : State := { s with sec := { s.sec with pkBusy := true } }
      let mulCycles := (l / 64) * (l / 64) + 4 * (l / 64) + 8
      64 ≤ l → l ≤ 4096 → l % 64 = 0 →
      exec (.modmul h addr) s = .next (writeReply u h 0x0704 (ansLong (.pkOperation addr.toNat (if sound then stOk else stPkFail)
        (if sound then leBytes 512 (a * b % m) else List.replicate 512 0) mulCycles))) ∧
      exec (.modexp h addr) s = .next (writeReply u h 0x0704 (ansLong (.pkOperation addr.toNat (if sound then stOk else stPkFail)
        (if sound then leBytes 512 (a ^ b % m) else List.replicate 512 0) ((2 * l + 3) * mulCycles + 200)))) := by
  dsimp only
  intro hlo hhi hmul
  have hl : lengthOk (bytesAt (hostGet s addr.toNat 4096) 0 2) = true := by simp [lengthOk, hlo, hhi, hmul]
  have hmm : exec (.modmul h addr) s = .next (command h 0x0704 (doModmul addr.toNat) s) := rfl
  have hme : exec (.modexp h addr) s = .next (command h 0x0704 (doModexp addr.toNat) s) := rfl
  refine ⟨?_, ?_⟩
  · have hdo := pkBlock_ready addr.toNat lengthOk (fun blk l => pkStart
      (if modInputsOk (pkField blk 0x40 l) (pkField blk 0x240 l) (pkField blk 0x440 l)
        then pkDone (modmulCycles l) addr.toNat (leBytes 512 (pkField blk 0x40 l * pkField blk 0x240 l % pkField blk 0x440 l))
        else pkFail (modmulCycles l) addr.toNat)) s haddr hbus hl
    rw [hmm, next_command h 0x0704 (doModmul addr.toNat) s hd _ _ (hdo.trans (pkStart_eq ..)), modular_kind]
    rfl
  · have hdo := pkBlock_ready addr.toNat lengthOk (fun blk l => pkStart
      (if modInputsOk (pkField blk 0x40 l) (pkField blk 0x240 l) (pkField blk 0x440 l)
        then pkDone (modexpCycles l) addr.toNat (leBytes 512 (powMod (pkField blk 0x40 l) (pkField blk 0x240 l) (pkField blk 0x440 l)))
        else pkFail (modexpCycles l) addr.toNat)) s haddr hbus hl
    rw [hme, next_command h 0x0704 (doModexp addr.toNat) s hd _ _ (hdo.trans (pkStart_eq ..)), modular_kind, powMod_eq]
    rfl

/-! ### P-521 -/

section
variable (h : Hdr) (addr : Quad) (s : State) (hd : docentUp s = true) (haddr : addr.toNat % 4096 = 0) (hbus : s.host.busMaster = true)
  (hl : bytesAt (hostGet s addr.toNat 4096) 0 2 = 521)
include hd haddr hbus hl

theorem keygenRuns : exec (.p521Keygen h addr) s =
    .next (writeReply (pkBusy (drawScalar s).2) h 0x0704 (ansLong (keygenKind addr.toNat (drawScalar s).1))) := by
  have hdo := pkBlock_ready addr.toNat (· == 521) (fun _ _ s => pkStart (keygenKind addr.toNat (drawScalar s).1) (drawScalar s).2) s haddr hbus
    (beq_iff_eq.mpr hl)
  exact next_command h 0x0704 (doP521Keygen addr.toNat) s hd _ _ (hdo.trans (pkStart_eq ..))

theorem ecdhRuns : exec (.p521Ecdh h addr) s = .next (writeReply (pkBusy s) h 0x0704 (ansLong
    (ecdhKind addr.toNat (bytesAt (hostGet s addr.toNat 4096) 0x40 512) (bytesAt (hostGet s addr.toNat 4096) 0x240 512)
      (bytesAt (hostGet s addr.toNat 4096) 0x440 512)))) := by
  have hdo := pkBlock_ready addr.toNat (· == 521) (fun blk _ s => pkStart (ecdhKind addr.toNat (bytesAt blk 0x40 512) (bytesAt blk 0x240 512)
    (bytesAt blk 0x440 512)) s) s haddr hbus (beq_iff_eq.mpr hl)
  exact next_command h 0x0704 (doP521Ecdh addr.toNat) s hd _ _ (hdo.trans (pkStart_eq ..))

/-- The answer of a signature by the scalar drawn, as its self-check finds it. -/
theorem signRuns : exec (.p521Sign h addr) s =
    .next (if scalarOk (bytesAt (hostGet s addr.toNat 4096) 0x40 512) = true then
        if signatureGood (bytesAt (hostGet s addr.toNat 4096) 0x40 512) (bytesAt (hostGet s addr.toNat 4096) 0x240 512) (drawScalar s).1 = true then
          writeReply (pkBusy (drawScalar s).2) h 0x0704 (ansLong (signKind addr.toNat (bytesAt (hostGet s addr.toNat 4096) 0x40 512)
            (bytesAt (hostGet s addr.toNat 4096) 0x240 512) (drawScalar s).1))
        else writeReply (pkBusy (selfFailed (drawScalar s).2)) h 0x0704 (ansLong (pkFail 4187500 addr.toNat))
      else writeReply (pkBusy (drawScalar s).2) h 0x0704 (ansLong (pkFail 4187500 addr.toNat))) := by
  have hdo := pkBlock_ready addr.toNat (· == 521) (fun blk _ s =>
    if scalarOk (bytesAt blk 0x40 512) then
      if signatureGood (bytesAt blk 0x40 512) (bytesAt blk 0x240 512) (drawScalar s).1 then
        pkStart (signKind addr.toNat (bytesAt blk 0x40 512) (bytesAt blk 0x240 512) (drawScalar s).1) (drawScalar s).2
      else pkStart (pkFail 4187500 addr.toNat) (selfFailed (drawScalar s).2)
    else pkStart (pkFail 4187500 addr.toNat) (drawScalar s).2) s haddr hbus (beq_iff_eq.mpr hl)
  have hnext := next_command h 0x0704 (doP521Sign addr.toNat) s hd
  by_cases hk : scalarOk (bytesAt (hostGet s addr.toNat 4096) 0x40 512) = true
  · rw [if_pos hk] at hdo ⊢
    by_cases hg : signatureGood (bytesAt (hostGet s addr.toNat 4096) 0x40 512) (bytesAt (hostGet s addr.toNat 4096) 0x240 512) (drawScalar s).1 = true
    · rw [if_pos hg] at hdo ⊢
      exact hnext _ _ (hdo.trans (pkStart_eq ..))
    · rw [if_neg hg] at hdo ⊢
      exact hnext _ _ (hdo.trans (pkStart_eq ..))
  · rw [if_neg hk] at hdo ⊢
    exact hnext _ _ (hdo.trans (pkStart_eq ..))

/-- What a verification answers: 1 or 0, or PK_FAIL for a bad operand or a sum at infinity. -/
def verifyKind (addr : Nat) (blk : List Byte) : LongKind :=
  if onCurve (bytesAt blk 0x240 512) (bytesAt blk 0x440 512) && scalarOk (bytesAt blk 0x640 96) && scalarOk (bytesAt blk 0x6A0 416) &&
      (ecdsaPoint (bytesAt blk 0x240 512) (bytesAt blk 0x440 512) (bytesAt blk 0x40 512) (bytesAt blk 0x640 96) (bytesAt blk 0x6A0 416)).isSome then
    pkDone 2750000 addr (leBytes 4 (bit01 (ecdsaVerify (bytesAt blk 0x240 512) (bytesAt blk 0x440 512) (bytesAt blk 0x40 512)
      (bytesAt blk 0x640 96) (bytesAt blk 0x6A0 416))))
  else pkFail 2750000 addr

theorem verifyRuns : exec (.p521Verify h addr) s =
    .next (writeReply (pkBusy s) h 0x0704 (ansLong (verifyKind addr.toNat (hostGet s addr.toNat 4096)))) := by
  have hdo := pkBlock_ready addr.toNat (· == 521) (fun blk _ s =>
    if onCurve (bytesAt blk 0x240 512) (bytesAt blk 0x440 512) && scalarOk (bytesAt blk 0x640 96) && scalarOk (bytesAt blk 0x6A0 416) &&
        (ecdsaPoint (bytesAt blk 0x240 512) (bytesAt blk 0x440 512) (bytesAt blk 0x40 512) (bytesAt blk 0x640 96) (bytesAt blk 0x6A0 416)).isSome then
      pkStart (pkDone 2750000 addr.toNat (leBytes 4 (bit01 (ecdsaVerify (bytesAt blk 0x240 512) (bytesAt blk 0x440 512) (bytesAt blk 0x40 512)
        (bytesAt blk 0x640 96) (bytesAt blk 0x6A0 416))))) s
    else pkStart (pkFail 2750000 addr.toNat) s) s haddr hbus (beq_iff_eq.mpr hl)
  have hnext := next_command h 0x0704 (doP521Verify addr.toNat) s hd
  generalize hostGet s addr.toNat 4096 = blk at *
  unfold verifyKind
  split at hdo
  · next hok => rw [if_pos hok]; exact hnext _ _ (hdo.trans (pkStart_eq ..))
  · next hok => rw [if_neg hok]; exact hnext _ _ (hdo.trans (pkStart_eq ..))

end

theorem keygenKind_eq (addr d : Nat) : keygenKind addr d = match pointMul d p521G with
    | some (x, y) =>
      if onCurve x y = true then LongKind.pkOperation addr stOk (padTo 512 (leBytes 66 d ++ leBytes 66 x ++ leBytes 66 y)) 1312500
      else .pkOperation addr stPkFail (List.replicate 512 0) 1312500
    | .none => .pkOperation addr stPkFail (List.replicate 512 0) 1312500 := by
  delta keygenKind
  generalize pointMul d p521G = p
  cases p with
  | none => rfl
  | some q => rfl

theorem ecdhKind_eq (addr d x y : Nat) : ecdhKind addr d x y = if scalarOk d = true ∧ onCurve x y = true then
      match pointMul d (some (x, y)) with
      | some (rx, ry) =>
        if onCurve rx ry = true then LongKind.pkOperation addr stOk (padTo 512 (leBytes 66 rx)) 1375000
        else .pkOperation addr stPkFail (List.replicate 512 0) 1375000
      | .none => .pkOperation addr stPkFail (List.replicate 512 0) 1375000
    else .pkOperation addr stPkFail (List.replicate 512 0) 1375000 := by
  delta ecdhKind
  generalize pointMul d (some (x, y)) = p
  by_cases hok : scalarOk d = true ∧ onCurve x y = true
  · rw [if_pos hok, if_pos (by rw [hok.1, hok.2]; rfl)]
    cases p with
    | none => rfl
    | some q => rfl
  · rw [if_neg hok, if_neg (fun h => hok ((Bool.and_eq_true ..).mp h))]
    rfl

theorem verifyKind_eq (addr : Nat) (blk : List Byte) : verifyKind addr blk =
    if onCurve (bytesAt blk 0x240 512) (bytesAt blk 0x440 512) = true ∧ scalarOk (bytesAt blk 0x640 96) = true ∧
        scalarOk (bytesAt blk 0x6A0 416) = true ∧
        (ecdsaPoint (bytesAt blk 0x240 512) (bytesAt blk 0x440 512) (bytesAt blk 0x40 512) (bytesAt blk 0x640 96) (bytesAt blk 0x6A0 416)).isSome = true then
      .pkOperation addr stOk (padTo 512 (leBytes 4 (bit01 (ecdsaVerify (bytesAt blk 0x240 512) (bytesAt blk 0x440 512) (bytesAt blk 0x40 512)
        (bytesAt blk 0x640 96) (bytesAt blk 0x6A0 416))))) 2750000
    else .pkOperation addr stPkFail (List.replicate 512 0) 2750000 := by
  delta verifyKind pkDone pkFail
  generalize ecdsaPoint (bytesAt blk 0x240 512) (bytesAt blk 0x440 512) (bytesAt blk 0x40 512) (bytesAt blk 0x640 96) (bytesAt blk 0x6A0 416) = p
  generalize ecdsaVerify (bytesAt blk 0x240 512) (bytesAt blk 0x440 512) (bytesAt blk 0x40 512) (bytesAt blk 0x640 96) (bytesAt blk 0x6A0 416) = v
  simp only [Bool.and_eq_true, and_assoc]

/-- Settles O54. -/
theorem bigNumbersAreComputed : Obligations.BigNumbersAreComputed := by
  unfold Obligations.BigNumbersAreComputed
  refine ⟨fun h addr s hd haddr hbus => modularRuns h addr s hd haddr hbus, fun h addr s hd haddr hbus => ?_⟩
  intro blk f busy k r z failed good hl
  have hk : drawScalar s = k := rfl
  clear_value k
  refine ⟨?_, ?_, ?_, ?_⟩
  · refine (keygenRuns h addr s hd haddr hbus hl).trans ?_
    rw [hk, keygenKind_eq]
    generalize pointMul k.1 p521G = p
    cases p with
    | none => rfl
    | some q => rfl
  · refine (ecdhRuns h addr s hd haddr hbus hl).trans ?_
    rw [ecdhKind_eq]
    refine congrArg (fun x => Host.Outcome.next (writeReply (pkBusy s) h 0x0704 (ansLong x))) ?_
    by_cases hok : scalarOk (f 0) = true ∧ onCurve (f 1) (f 2) = true
    · refine (if_pos hok).trans (Eq.trans ?_ (if_pos hok).symm)
      generalize pointMul (f 0) (some (f 1, f 2)) = p
      cases p with
      | none => rfl
      | some q => rfl
    · exact (if_neg hok).trans (if_neg hok).symm
  · refine (signRuns h addr s hd haddr hbus hl).trans ?_
    rw [hk]
    rfl
  · refine (verifyRuns h addr s hd haddr hbus hl).trans ?_
    rw [verifyKind_eq]
    rfl

end Sys2Proof.Machine
end

section
/-!
PROOF. The boot and FIRMWARE_WRITE (19 R405 to R409).
-/

namespace Sys2Proof.Machine

/-! ### What the ROM does before it enters an image -/

theorem checkCert_parts (s : State) : ∃ n k ok, checkCert s = { s with freeCount := n, sec := { s.sec with pkCycles := k, certOk := ok } } := by
  delta checkCert
  generalize Config.certKey (identityCert (freeBits 1 s).2) = c
  exact ⟨_, _, _, rfl⟩

theorem bootLinks_parts (s : State) : ∃ n h, bootLinks s = { s with
      freeCount := n, host := h
      time := { s.time with refLock := true, islandLock := s.time.islandLock ||| 0x40000000000 } } ∧ h.link.up = true := by
  unfold bootLinks
  dsimp only
  split
  · next h => exact ⟨s.freeCount, s.host, rfl, h⟩
  · exact ⟨_, _, rfl, rfl⟩

/-- The state in which the ROM enters an image, or recovery. -/
structure Checked (s u : State) (ra rb : Nat) (noImage : Bool) : Prop where
  aReason : u.sec.aReason = BitVec.ofNat 4 ra
  bReason : u.sec.bReason = BitVec.ofNat 4 rb
  recovery : u.sec.recovery = noImage
  refLock : u.time.refLock = true
  hub : u.time.islandLock.getLsbD 42 = true
  link : u.host.link.up = true
  fuses : u.fuses = s.fuses
  flash : u.flash = s.flash
  hostMem : u.hostMem = s.hostMem
  gals : u.gals = s.gals
  vault : u.vault = s.vault

theorem checked_noteSlots (s : State) (ra rb : Nat) (differ noImage : Bool) :
    Checked s (noteSlots ra rb differ noImage (checkCert (bootLinks s))) ra rb noImage := by
  obtain ⟨n, h, hlinks, hup⟩ := bootLinks_parts s
  obtain ⟨n', k, ok, hcert⟩ := checkCert_parts (bootLinks s)
  rw [hcert, hlinks]
  refine ⟨rfl, rfl, rfl, rfl, ?_, hup, rfl, rfl, rfl, rfl, rfl⟩
  show (s.time.islandLock ||| 0x40000000000).getLsbD 42 = true
  rw [BitVec.getLsbD_or]
  simp

/-! ### The entry into an image, or into recovery -/

theorem besideDrbg_drbgStart (s : State) : besideDrbg (drbgStart s) = besideDrbg s := by
  unfold drbgStart
  split
  · rfl
  · exact besideDrbg_drbgInstantiateNow s

/-- A fresh challenge and a power state change nothing that the boot has found. -/
theorem entered_parts (s : State) (p : PowerState) : ∃ n c pw h r q, setPowerState (newChallenge s) p = { s with
      freeCount := n, sec := { s.sec with challenge := c }, power := pw, host := { h with raised := r, msixPending := q } } ∧
    pw.state = p ∧ h = s.host := by
  obtain ⟨n, hn⟩ := newChallenge_parts s
  obtain ⟨r, q, hp⟩ := setPowerState_frame (newChallenge s) p
  generalize newChallenge s = x at hn hp
  rw [hp]
  generalize BitVec.ofNat 256 (leNat (freshNonce s).1) = c at hn
  subst hn
  exact ⟨n, c, { s.power with state := p }, s.host, r, q, rfl, rfl, rfl⟩

theorem Checked.entered {s v : State} {ra rb : Nat} {noImage : Bool} (hc : Checked s v ra rb noImage) (p : PowerState) :
    Checked s (setPowerState (newChallenge v) p) ra rb noImage ∧ (setPowerState (newChallenge v) p).power.state = p ∧
      (setPowerState (newChallenge v) p).sec.slotB = v.sec.slotB ∧ (setPowerState (newChallenge v) p).sec.bootSvn = v.sec.bootSvn := by
  obtain ⟨n, c, pw, h, r, q, hu, hp, hh⟩ := entered_parts v p
  generalize setPowerState (newChallenge v) p = u at hu
  subst hu
  subst hh
  exact ⟨⟨hc.aReason, hc.bReason, hc.recovery, hc.refLock, hc.hub, hc.link, hc.fuses, hc.flash, hc.hostMem, hc.gals, hc.vault⟩, hp, rfl, rfl⟩

/-- The fuses once an image is entered. -/
def fusesBlown (f : Fuses) (hdr : List Byte) : Fuses := { f with svnBlown := max f.svnBlown (fwMinSvn hdr) }

theorem Checked.image {s v : State} {ra rb : Nat} (hc : Checked s v ra rb false) (b : Bool) (hdr : List Byte) :
    Checked { s with fuses := fusesBlown s.fuses hdr } (drbgStart (enterImage b hdr v)) ra rb false ∧
      (drbgStart (enterImage b hdr v)).sec.slotB = b ∧
      (drbgStart (enterImage b hdr v)).sec.bootSvn = BitVec.ofNat 7 (fwSvn hdr) := by
  have hbeside := besideDrbg_drbgStart (enterImage b hdr v)
  have hsec : (drbgStart (enterImage b hdr v)).sec = (enterImage b hdr v).sec := (congrArg State.sec hbeside :)
  have htime : (drbgStart (enterImage b hdr v)).time = v.time := (congrArg State.time hbeside :)
  have hhost : (drbgStart (enterImage b hdr v)).host = v.host := (congrArg State.host hbeside :)
  have hfuses : (drbgStart (enterImage b hdr v)).fuses = fusesBlown v.fuses hdr := (congrArg State.fuses hbeside :)
  have hflash : (drbgStart (enterImage b hdr v)).flash = v.flash := (congrArg State.flash hbeside :)
  have hmem : (drbgStart (enterImage b hdr v)).hostMem = v.hostMem := (congrArg State.hostMem hbeside :)
  have hgals : (drbgStart (enterImage b hdr v)).gals = v.gals := (congrArg State.gals hbeside :)
  have hvault : (drbgStart (enterImage b hdr v)).vault = v.vault := (congrArg State.vault hbeside :)
  generalize drbgStart (enterImage b hdr v) = u at *
  refine ⟨⟨?_, ?_, ?_, ?_, ?_, ?_, ?_, hflash.trans hc.flash, hmem.trans hc.hostMem, hgals.trans hc.gals, hvault.trans hc.vault⟩, ?_, ?_⟩
  · rw [hsec]; exact hc.aReason
  · rw [hsec]; exact hc.bReason
  · rw [hsec]; exact hc.recovery
  · rw [htime]; exact hc.refLock
  · rw [htime]; exact hc.hub
  · rw [hhost]; exact hc.link
  · rw [hfuses, hc.fuses]
  · rw [hsec]; rfl
  · rw [hsec]; rfl

/-! ### The slot that boots -/

/-- Of two valid images the one with the higher SVN boots, and A on a tie. -/
theorem slotChoice_fst (okA okB : Bool) (ha hb : List Byte) : (slotChoice okA okB ha hb).1 =
    if okA = false ∧ okB = false then .none else some (decide (okB = true ∧ (okA = false ∨ fwSvn ha < fwSvn hb))) := by
  unfold slotChoice
  cases okA <;> cases okB
  · rfl
  · rfl
  · rfl
  · dsimp only
    by_cases hlt : fwSvn ha < fwSvn hb
    · simp [hlt]
    · by_cases hgt : fwSvn hb < fwSvn ha
      · simp [hlt, hgt]
      · simp [hlt, hgt]

/-- The first part of O52: BOOT. -/
theorem bootRuns (ea eb : Bool) (s : State) (hstate : s.power.state = .boot) (hperst : s.power.perst = false) :
      let ra := slotReason s false ea
      let rb := slotReason s true eb
      let ha := flashGet s 0 512
      let hb := flashGet s 0x1000000 512
      let useB := rb = 0 ∧ (ra ≠ 0 ∨ fwSvn ha < fwSvn hb)
      ∃ u, exec (.boot ea eb) s = .next u ∧ u.sec.aReason = BitVec.ofNat 4 ra ∧ u.sec.bReason = BitVec.ofNat 4 rb ∧
        u.power.state = (if ra ≠ 0 ∧ rb ≠ 0 then .recovery else .idle) ∧ u.sec.recovery = decide (ra ≠ 0 ∧ rb ≠ 0) ∧
        (¬(ra ≠ 0 ∧ rb ≠ 0) → u.sec.slotB = decide useB ∧
          u.sec.bootSvn = BitVec.ofNat 7 (fwSvn (if useB then hb else ha)) ∧
          u.fuses = { s.fuses with svnBlown := max s.fuses.svnBlown (fwMinSvn (if useB then hb else ha)) }) ∧
        (ra ≠ 0 ∧ rb ≠ 0 → u.fuses = s.fuses) ∧ u.time.refLock = true ∧ u.time.islandLock.getLsbD 42 = true ∧
        u.host.link.up = true ∧ u.flash = s.flash ∧ u.hostMem = s.hostMem ∧ u.gals = s.gals ∧ u.vault = s.vault := by
  intro ra rb ha hb useB
  have hdo : exec (.boot ea eb) s = .next (doBoot ea eb s) := rfl
  have hgo : doBoot ea eb s = bootInto (bootChoice s ea eb).1 ha hb
      (noteSlots ra rb (bootChoice s ea eb).2 (bootChoice s ea eb).1.isNone (checkCert (bootLinks s))) := by
    unfold doBoot
    exact if_neg (by rw [hstate, hperst]; simp)
  have hpick : (bootChoice s ea eb).1 = if ra ≠ 0 ∧ rb ≠ 0 then .none else some (decide useB) := by
    have hzero : slotBase false = 0 := rfl
    have hone : slotBase true = 0x1000000 := rfl
    rw [bootChoice, slotChoice_fst, hzero, hone]
    simp only [beq_eq_false_iff_ne, beq_iff_eq]
    rfl
  clear_value ra rb ha hb
  have hchecked := checked_noteSlots s ra rb (bootChoice s ea eb).2 (bootChoice s ea eb).1.isNone
  rw [hdo, hgo]
  generalize noteSlots ra rb (bootChoice s ea eb).2 (bootChoice s ea eb).1.isNone (checkCert (bootLinks s)) = v at hchecked
  rw [hpick] at hchecked ⊢
  by_cases hnone : ra ≠ 0 ∧ rb ≠ 0
  · rw [if_pos hnone] at hchecked ⊢
    obtain ⟨hc, hp, -, -⟩ := hchecked.entered .recovery
    refine ⟨_, rfl, hc.aReason, hc.bReason, hp.trans (if_pos hnone).symm, hc.recovery.trans (decide_eq_true hnone).symm,
      fun h => absurd hnone h, fun _ => hc.fuses, hc.refLock, hc.hub, hc.link, hc.flash, hc.hostMem, hc.gals, hc.vault⟩
  · rw [if_neg hnone] at hchecked ⊢
    have hinto : bootInto (some (decide useB)) ha hb v =
        setPowerState (newChallenge (drbgStart (enterImage (decide useB) (if useB then hb else ha) v))) .idle := by
      have hhdr : (if (decide useB) = true then hb else ha) = if useB then hb else ha := by simp only [decide_eq_true_eq]
      rw [← hhdr]
      rfl
    rw [hinto]
    generalize (if useB then hb else ha) = hdr
    obtain ⟨hi, hslot, hsvn⟩ := hchecked.image (decide useB) hdr
    obtain ⟨hc, hp, hslot', hsvn'⟩ := hi.entered .idle
    generalize drbgStart (enterImage (decide useB) hdr v) = w at *
    generalize setPowerState (newChallenge w) .idle = u at *
    exact ⟨u, rfl, hc.aReason, hc.bReason, hp.trans (if_neg hnone).symm, hc.recovery.trans (decide_eq_false hnone).symm,
      fun _ => ⟨hslot'.trans hslot, hsvn'.trans hsvn, hc.fuses⟩, fun h => absurd h hnone, hc.refLock, hc.hub, hc.link, hc.flash, hc.hostMem,
      hc.gals, hc.vault⟩

/-! ### FIRMWARE_WRITE -/

theorem doFirmwareWrite_eq (slot addr bytes : Nat) (s : State) (hslot : slot ≤ 1) (hlo : 512 ≤ bytes) (hhi : bytes ≤ 0xFF0000)
    (hbus : s.host.busMaster = true) (hother : s.sec.recovery = false → slot ≠ bit01 s.sec.slotB) (hrun : firmwareRunning s = false) :
    doFirmwareWrite slot addr bytes s =
      (if imageReason s.fuses.svnBlown ((hostGet s addr bytes).take 512) (fun n => ((hostGet s addr bytes).drop 0x1000).take n) false = 0 then
        ansLong (.firmwareWrite (slot == 1) (hostGet s addr bytes)) else ansFail stAuthFail, s) := by
  have hbooted : namesBooted s slot = false := by
    rw [namesBooted]
    cases hr : s.sec.recovery with
    | true => rfl
    | false => rw [decide_eq_false (hother hr)]; rfl
  unfold doFirmwareWrite
  rw [if_neg (by omega), hostReady, hbus, hbooted, hrun, if_neg (by decide)]
  dsimp only
  generalize imageReason s.fuses.svnBlown _ _ false = n
  by_cases hn : n = 0
  · rw [if_neg (not_not.mpr hn), if_pos hn]
  · rw [if_pos hn, if_neg hn]

/-- A command that the Docent takes, or the recovery image from the mailbox. -/
theorem next_firmwareWrite (h : Hdr) (f : State → Answer × State) (s : State) (a : Answer) (t : State)
    (hup : docentUp s = true ∨ (s.power.state = .recovery ∧ h.src = .mbox)) (hf : f s = (a, t)) :
    (Host.Outcome.next (command h 0x0703 f s) : Out) = .next (writeReply t h 0x0703 a) := by
  rcases hup with hd | ⟨hr, hm⟩
  · exact next_command h _ f s hd a t hf
  · have hdown : docentUp s = false := by rw [docentUp, hr]; rfl
    unfold command
    rw [hdown, if_neg Bool.false_ne_true, if_pos hr, hm]
    dsimp only
    rw [if_pos (by decide), hf]

/-- Settles O52. -/
theorem firmwareBoots : Obligations.FirmwareBoots := by
  unfold Obligations.FirmwareBoots
  refine ⟨fun ea eb s hstate hperst => bootRuns ea eb s hstate hperst, fun h slot addr bytes s hup hslot hlo hhi hbus hother hrun => ?_⟩
  intro img
  have hdo : exec (.firmwareWrite h slot addr bytes) s =
    .next (command h 0x0703 (doFirmwareWrite slot.toNat addr.toNat bytes.toNat) s) := rfl
  rw [hdo, next_firmwareWrite h _ s _ _ hup (doFirmwareWrite_eq slot.toNat addr.toNat bytes.toNat s hslot hlo hhi hbus hother hrun)]
  rw [toNat_beq_one]

end Sys2Proof.Machine
end

section
/-!
PROOF. Checkpoints (18 R390 to R394): the cut, the staging and the drain.
-/

namespace Sys2Proof.Machine

/-! ### A Vault that takes writes goes on taking them -/

/-- The Vault is not read-only, and neither its stripes nor its endurance will make it so. -/
structure Writable (s : State) : Prop where
  notReadOnly : s.vault.readOnly = false
  good : 32960 ≤ s.vault.medium.goodStripes
  bytes : s.vault.medium.bytesWritten < enduranceBytes

/-- The parts of the Vault that `Writable` looks at are those of another state. -/
theorem Writable.of_eq {s t : State} (h : Writable s) (hro : t.vault.readOnly = s.vault.readOnly)
    (hgood : t.vault.medium.goodStripes = s.vault.medium.goodStripes) (hbytes : t.vault.medium.bytesWritten = s.vault.medium.bytesWritten) :
    Writable t := ⟨hro.trans h.notReadOnly, hgood ▸ h.good, hbytes ▸ h.bytes⟩

theorem meanErases_young (m : Medium) (h : m.bytesWritten < enduranceBytes) : meanErases m < 5000 := by
  unfold meanErases
  dsimp only
  rw [if_pos h]
  omega

theorem Writable.checkReadOnly {s : State} (h : Writable s) : checkReadOnly s = s := by
  unfold Machine.checkReadOnly
  have hyoung := meanErases_young _ h.bytes
  have hgood := h.good
  exact if_neg (by omega)

theorem Writable.wipeStripe {s : State} (h : Writable s) (k : Nat) : Writable (wipeStripe k s) := by
  have hv : Writable (modMedium s (fun m => { dropData (fun x => x / stripeSlots == k) m with
    badUnits := m.badUnits.filter (fun u => u / 2048 / stripeSlots != k)
    lost := m.lost.filter (fun x => x / stripeSlots != k)
    programmed := m.programmed.filter (fun x => x / stripeSlots != k)
    erases := smSet 0 k (smGet 0 k m.erases + 1) m.erases })) := h.of_eq rfl rfl rfl
  unfold Machine.wipeStripe
  rw [hv.checkReadOnly]
  exact hv

theorem writable_foldl {α : Type} (f : State → α → State) (hf : ∀ x a, Writable x → Writable (f x a)) (l : List α) {s : State}
    (h : Writable s) : Writable (l.foldl f s) := foldl_keeps_prop Writable f l hf s h

theorem Writable.pickSlot {s : State} (h : Writable s) (avoid : Nat) : Writable (pickSlot avoid s).2 := by
  have hreclaim : ∀ start, Writable (reclaim avoid start (freeBits 32 s).2) := fun start => by
    have hfree : Writable (freeBits 32 s).2 := h.of_eq rfl rfl rfl
    unfold reclaim
    split
    · exact hfree
    · split
      · exact hfree.wipeStripe _
      · exact hfree
  exact (hreclaim _).of_eq rfl rfl rfl

theorem Writable.putMap {s : State} (h : Writable s) (e : Nat) (st : ExtState) (slot : Nat) (isSealed : Bool) :
    Writable (putMap e st slot isSealed s) := by
  unfold Machine.putMap
  dsimp only
  split
  · exact h.of_eq rfl rfl rfl
  · exact h.of_eq rfl rfl rfl

theorem Writable.relocateExtent {s : State} (h : Writable s) (e : Nat) : Writable (relocateExtent e s) := by
  have hmoved : ∀ a old n, Writable (moveSlot old n (Machine.pickSlot a s).2) := fun a old n => (h.pickSlot a).of_eq rfl rfl rfl
  exact (hmoved _ _ _).putMap ..

theorem Writable.moveOut {s : State} (h : Writable s) (slot : Nat) (follow : Nat → Nat → State → State)
    (hf : ∀ o n x, Writable x → Writable (follow o n x)) : Writable (moveOut slot follow s) :=
  hf _ _ _ ((h.pickSlot _).of_eq rfl rfl rfl)

theorem Writable.eraseStripe {s : State} (h : Writable s) (k : Nat) : Writable (eraseStripe k s) := by
  rw [eraseStripe_eq]
  refine Writable.wipeStripe ?_ k
  unfold liveMoved
  dsimp only
  refine writable_foldl _ (fun x w hx => hx.moveOut w followWrite (fun o n y hy => hy.of_eq rfl rfl rfl)) _ ?_
  refine writable_foldl _ (fun x w hx => hx.moveOut w followCandidate (fun o n y hy => hy.of_eq rfl rfl rfl)) _ ?_
  exact writable_foldl _ (fun x e hx => hx.relocateExtent e) _ h

theorem Writable.wearOn {s : State} (h : Writable s) : Writable (wearOn s) :=
  writable_foldl _ (fun x k hx => hx.wipeStripe k) _ (h.of_eq (t := (freeBits 40960 s).2) rfl rfl rfl)

theorem Writable.commitExtent {s : State} (h : Writable s) (e : Nat) (st : ExtState) (slot : Nat) (isSealed : Bool) :
    Writable (commitExtent e st slot isSealed s) := by
  have htaken : Writable (entryTaken e st slot isSealed s) := (h.putMap e st slot isSealed).of_eq rfl rfl rfl
  have herased : Writable (eraseSealed (staleSlots s e) (Machine.wearOn (entryTaken e st slot isSealed s))) :=
    writable_foldl _ (fun x p hx => hx.eraseStripe _) _ htaken.wearOn
  rw [commitExtent_eq, herased.checkReadOnly]
  exact herased

theorem vaultOpenNow_of_besideSlots {s t : State} (h : besideSlots t = besideSlots s) : vaultOpenNow t = vaultOpenNow s := by
  have e : vaultOpenNow (besideSlots t) = vaultOpenNow (besideSlots s) := by rw [h]
  exact e

theorem bytes_of_besideSlots {s t : State} (h : besideSlots t = besideSlots s) :
    t.vault.medium.bytesWritten = s.vault.medium.bytesWritten := (congrArg (fun x => x.vault.medium.bytesWritten) h :)

/-- The slot for an extent's bytes, written and counted, before its commit. -/
def slotWritten (bs : List Byte) (s : State) : State :=
  modMedium (pickSlot slotCount s).2 (fun m => { m with
    data := smPut 0 ((pickSlot slotCount s).1 * extBytes) (bs.take extBytes) m.data, bytesWritten := m.bytesWritten + extBytes })

theorem storeExtents_succ (n e : Nat) (isSealed : Bool) (bs : List Byte) (s : State) (hbs : bs.isEmpty = false) (htakes : vaultTakes s = true) :
    storeExtents (n + 1) e isSealed bs s =
      storeExtents n (e + 1) isSealed (bs.drop extBytes) (commitExtent e .written (pickSlot slotCount s).1 isSealed (slotWritten bs s)) := by
  rw [storeExtents, hbs, htakes, if_neg (by decide), if_neg (by decide)]
  rfl

theorem slotWritten_parts (bs : List Byte) (s : State) : vaultOpenNow (slotWritten bs s) = vaultOpenNow s ∧
    (slotWritten bs s).vault.medium.bytesWritten = s.vault.medium.bytesWritten + extBytes := by
  have hpick : besideSlots (pickSlot slotCount s).2 = besideSlots s := besideSlots_of_besideStripes (besideStripes_pickSlot slotCount s)
  exact ⟨(vaultOpenNow_of_besideSlots hpick :), congrArg (· + extBytes) (bytes_of_besideSlots hpick)⟩

/-- A Vault that takes writes, with endurance left for them, takes `n` extents. -/
theorem storeExtents_takes (n e : Nat) (isSealed : Bool) (bs : List Byte) (s : State) (hopen : vaultOpenNow s = true) (hw : Writable s)
    (hbytes : s.vault.medium.bytesWritten + extBytes * n < enduranceBytes) :
    ∃ u, storeExtents n e isSealed bs s = some u ∧ vaultOpenNow u = true ∧ Writable u ∧
      u.vault.medium.bytesWritten ≤ s.vault.medium.bytesWritten + extBytes * n := by
  induction n generalizing e bs s with
  | zero => exact ⟨s, rfl, hopen, hw, Nat.le_add_right ..⟩
  | succ n ih =>
    by_cases hbs : bs.isEmpty = true
    · exact ⟨s, by rw [storeExtents, if_pos hbs], hopen, hw, Nat.le_add_right ..⟩
    · have htakes : vaultTakes s = true := by rw [vaultTakes, hopen, hw.notReadOnly]; rfl
      rw [storeExtents_succ n e isSealed bs s (eq_false_of_ne_true hbs) htakes]
      obtain ⟨hopen', hcount⟩ := slotWritten_parts bs s
      have hpicked := hw.pickSlot slotCount
      have hwritten : Writable (slotWritten bs s) := ⟨hpicked.notReadOnly, hpicked.good, by
        rw [hcount]
        rw [Nat.mul_succ] at hbytes
        omega⟩
      have hcommit := besideSlots_commitExtent e .written (pickSlot slotCount s).1 isSealed (slotWritten bs s)
      have hcount' := (bytes_of_besideSlots hcommit).trans hcount
      rw [Nat.mul_succ] at hbytes ⊢
      obtain ⟨u, hu, hou, hwu, hbu⟩ := ih (e + 1) (bs.drop extBytes) _ ((vaultOpenNow_of_besideSlots hcommit).trans (hopen'.trans hopen))
        (hwritten.commitExtent e .written (pickSlot slotCount s).1 isSealed) (by rw [hcount']; omega)
      exact ⟨u, hu, hou, hwu, by rw [hcount'] at hbu; omega⟩

/-! ### What staging and draining leave -/

/-- The state without memories and their records, and without the Vault. -/
def besideVault (s : State) : State := { besideMem s with vault := State.reset.vault }

/-- The state without what a drain changes as well: frames sent, the DMA engine's serial numbers. -/
def besideDrain (s : State) : State := { besideVault s with fab := State.reset.fab, dma := State.reset.dma }

theorem besideVault_of_besideMem {s t : State} (h : besideMem t = besideMem s) : besideVault t = besideVault s := by
  rw [besideVault, besideVault, h]

theorem besideVault_of_besideSlots {s t : State} (h : besideSlots t = besideSlots s) : besideVault t = besideVault s := by
  have e : besideVault (besideSlots t) = besideVault (besideSlots s) := by rw [h]
  exact e

theorem besideDrain_of_besideVault {s t : State} (h : besideVault t = besideVault s) : besideDrain t = besideDrain s := by
  rw [besideDrain, besideDrain, h]

theorem besideVault_storeExtents (n e : Nat) (isSealed : Bool) (bs : List Byte) (s u : State) (h : storeExtents n e isSealed bs s = some u) :
    besideVault u = besideVault s := by
  induction n generalizing e bs s with
  | zero => obtain rfl := Option.some.inj h; rfl
  | succ n ih =>
    by_cases hbs : bs.isEmpty = true
    · rw [storeExtents, if_pos hbs] at h
      obtain rfl := Option.some.inj h
      rfl
    · by_cases htakes : vaultTakes s = true
      · rw [storeExtents_succ n e isSealed bs s (eq_false_of_ne_true hbs) htakes] at h
        refine (ih _ _ _ h).trans ?_
        rw [besideVault_of_besideSlots (besideSlots_commitExtent ..)]
        exact (besideVault_of_besideSlots (besideSlots_of_besideStripes (besideStripes_pickSlot slotCount s)) :)
      · rw [storeExtents, if_neg hbs, if_pos (by rw [eq_false_of_ne_true htakes]; rfl)] at h
        exact absurd h (by simp)

theorem besideDrain_sendPacket (p : Packet) (s : State) : besideDrain (sendPacket p s).2 = besideDrain s := by
  unfold sendPacket
  split
  · rfl
  · split
    · rfl
    · rfl

theorem besideDrain_sendImage (dst : BitVec 14) (window : BitVec 6) (serial total n off : Nat) (bs : List Byte) (s : State) :
    besideDrain (sendImage dst window serial total n off bs s).2 = besideDrain s := by
  induction n generalizing off bs s with
  | zero => rfl
  | succ n ih =>
    rw [sendImage]
    split
    · rfl
    · dsimp only
      have hp := besideDrain_sendPacket
        { dst := dst, src := s.fab.module, epoch := s.health.epoch, hops := 0, window := window, offset := off,
          kind := .write (bs.take 4096) serial total false } s
      split
      · exact (ih _ _ _).trans hp
      · exact hp

theorem besideDrain_countSent (r : Bool × State) : besideDrain (countSent r).2 = besideDrain r.2 := rfl

theorem besideDrain_sendThen (f : State → Bool × State) (hf : ∀ s, besideDrain (f s).2 = besideDrain s) (r : Bool × State) :
    besideDrain (sendThen f r).2 = besideDrain r.2 := by
  unfold sendThen
  split
  · exact hf r.2
  · rfl

theorem besideDrain_sendParts (dst : BitVec 14) (window : BitVec 6) (n : Nat) (data head : List Byte) (s : State) :
    besideDrain (sendParts dst window n data head s).2 = besideDrain s := by
  have hhead : ∀ x, besideDrain (countSent (sendImage dst window x.dma.started n (head.length / 4096) 0 head x)).2 = besideDrain x :=
    fun x => (besideDrain_countSent _).trans (besideDrain_sendImage ..)
  have hdata := besideDrain_sendImage dst window s.dma.started n (n / 4096) extBytes data s
  unfold sendParts
  generalize sendImage dst window s.dma.started n (n / 4096) extBytes data s = r at hdata ⊢
  exact (besideDrain_sendThen _ hhead r).trans hdata

theorem besideDrain_sendCopy (j : CkptJob) (m : ImageMeta) (head : List Byte) (s : State) :
    besideDrain (sendCopy j m head s).2 = besideDrain s := by
  unfold sendCopy
  split
  · rfl
  · exact besideDrain_sendParts ..

/-! ### The end of a checkpoint -/

theorem besideEntries_ckptDone (j : CkptJob) (a : Answer) (s : State) : besideEntries (ckptDone j a s) = besideEntries s := by
  unfold ckptDone
  split
  · split
    · exact besideEntries_raiseEvent s
    · rfl
  · split
    · dsimp only
      split
      · rw [besideEntries_writeDone]; rfl
      · rfl
    · rfl

/-- A checkpoint has ended, with its counters at `c` completed and `f` failed. -/
structure Ended (s u : State) (c f : BitVec 8) : Prop where
  stage : u.health.stage = .idle
  job : u.health.job = .none
  completed : u.health.completed = c
  failed : u.health.failed = f
  gals : u.gals = s.gals
  tours : u.tours = s.tours

theorem ended_of_beside {s t u : State} {c f : BitVec 8} (h : besideEntries u = besideEntries t) (hstage : t.health.stage = .idle)
    (hjob : t.health.job = .none) (hc : t.health.completed = c) (hf : t.health.failed = f) (hgals : t.gals = s.gals)
    (htours : t.tours = s.tours) : Ended s u c f :=
  ⟨(congrArg (fun x => x.health.stage) h :).trans hstage, (congrArg (fun x => x.health.job) h :).trans hjob,
    (congrArg (fun x => x.health.completed) h :).trans hc, (congrArg (fun x => x.health.failed) h :).trans hf,
    (gals_of_beside h).trans hgals, (tours_of_beside h).trans htours⟩

section
variable {s t : State} (h : besideDrain t = besideDrain s)
include h

theorem failed_of_drain : t.health.failed = s.health.failed := (congrArg (fun x => x.health.failed) h :)
theorem completed_of_drain : t.health.completed = s.health.completed := (congrArg (fun x => x.health.completed) h :)
theorem gals_of_drain : t.gals = s.gals := (congrArg State.gals h :)
theorem tours_of_drain : t.tours = s.tours := (congrArg State.tours h :)

theorem ended_failCkpt (j : CkptJob) (st : BitVec 16) : Ended s (failCkpt j st t) s.health.completed (bump8 s.health.failed) :=
  ended_of_beside (besideEntries_ckptDone j _ _) rfl rfl (completed_of_drain h :) (congrArg bump8 (failed_of_drain h :)) (gals_of_drain h :)
    (tours_of_drain h :)

theorem ended_finishDrain (j : CkptJob) (m : ImageMeta) (rest : List Byte) :
    Ended s (finishDrain j m rest t) (bump8 s.health.completed) s.health.failed :=
  ended_of_beside (besideEntries_ckptDone j _ _) rfl rfl (congrArg bump8 (completed_of_drain h :)) (failed_of_drain h :) (gals_of_drain h :)
    (tours_of_drain h :)

end

/-- The rest of a drain once the header's bytes are made: it is sent to the partner, stored, and the checkpoint completed. -/
def headerStored (j : CkptJob) (m : ImageMeta) (head rest : List Byte) (s : State) : State :=
  if !(sendCopy j m head s).1 then failCkpt j stUnreachable (sendCopy j m head s).2
  else match storeExtents 1 j.first false head (sendCopy j m head s).2 with
    | .none => failCkpt j stVaultFull (sendCopy j m head s).2
    | some u => finishDrain j m rest u

/-- The `n` free bytes of a header, after its number of sections. -/
def headerRest (n : Nat) (s : State) : List Byte × State := freeBytes n (freeBits 16 s).2

/-- The header of an image. -/
def headerBytes (n : Nat) (j : CkptJob) (m : ImageMeta) (s : State) : List Byte :=
  imageHeader (headerRest n s).2 j (imageExtents m.sections) (freeBits 16 s).1.toNat
    (crc32c (imageData (headerRest n s).2 j.first (imageExtents m.sections))) ++ (headerRest n s).1

theorem headerStored_stored {j : CkptJob} {m : ImageMeta} {head rest : List Byte} {s u : State} (hsend : sendCopy j m head s = (true, s))
    (hu : storeExtents 1 j.first false head s = some u) : headerStored j m head rest s = finishDrain j m rest u := by
  unfold headerStored
  rw [if_neg (by rw [hsend]; exact Bool.false_ne_true), hsend, hu] <;> rfl

theorem drainHeader_eq (j : CkptJob) (m : ImageMeta) (s : State) :
    ∃ n head, drainHeader j m s = headerStored j m head (headerRest n s).1 (headerRest n s).2 := by
  refine ⟨extBytes - 64, headerBytes (extBytes - 64) j m s, ?_⟩
  delta drainHeader
  generalize extBytes - 64 = n
  exact rfl

theorem besideDrain_headerRest (n : Nat) (s : State) : besideDrain (headerRest n s).2 = besideDrain s := rfl

section
variable {s t : State} (h : besideDrain t = besideDrain s)
include h

/-- A drain whose header is to be stored completes or fails. -/
theorem ended_headerStored (j : CkptJob) (m : ImageMeta) (head rest : List Byte) :
    Ended s (headerStored j m head rest t) (bump8 s.health.completed) s.health.failed ∨
      Ended s (headerStored j m head rest t) s.health.completed (bump8 s.health.failed) := by
  have hsent := (besideDrain_sendCopy j m head t).trans h
  unfold headerStored
  split
  · exact .inr (ended_failCkpt hsent ..)
  · split
    · exact .inr (ended_failCkpt hsent ..)
    · next u hu => exact .inl (ended_finishDrain ((besideDrain_of_besideVault (besideVault_storeExtents 1 j.first false head _ u hu)).trans hsent) ..)

theorem ended_drainHeader (j : CkptJob) (m : ImageMeta) :
    Ended s (drainHeader j m t) (bump8 s.health.completed) s.health.failed ∨
      Ended s (drainHeader j m t) s.health.completed (bump8 s.health.failed) := by
  obtain ⟨n, head, he⟩ := drainHeader_eq j m t
  rw [he]
  exact ended_headerStored ((besideDrain_headerRest n t).trans h) ..

/-- Without a partner, a header for which the Vault has room completes the checkpoint. -/
theorem ended_drainHeader_alone (j : CkptJob) (m : ImageMeta) (hj : j.target ≠ 1) (hopen : vaultOpenNow t = true) (hw : Writable t)
    (hbytes : t.vault.medium.bytesWritten + extBytes < enduranceBytes) :
    Ended s (drainHeader j m t) (bump8 s.health.completed) s.health.failed := by
  obtain ⟨n, head, he⟩ := drainHeader_eq j m t
  have hrest : Writable (headerRest n t).2 := hw.of_eq rfl rfl rfl
  obtain ⟨u, hu, -, -, -⟩ := storeExtents_takes 1 j.first false head (headerRest n t).2 hopen hrest (by rw [Nat.mul_one]; exact hbytes)
  have hsend : sendCopy j m head (headerRest n t).2 = (true, (headerRest n t).2) := if_pos hj
  rw [he, headerStored_stored hsend hu]
  exact ended_finishDrain ((besideDrain_of_besideVault (besideVault_storeExtents 1 j.first false head _ u hu)).trans
    ((besideDrain_headerRest n t).trans h)) ..

end

/-! ### The extents of an image -/

theorem foldl_max_mono (xs : List CkptSection) (p : CkptSection → Bool) (a b : Nat) (h : a ≤ b) :
    (xs.filter p).foldl (fun m x => max m (x.offset + x.length)) a ≤ xs.foldl (fun m x => max m (x.offset + x.length)) b := by
  induction xs generalizing a b with
  | nil => exact h
  | cons x xs ih =>
    rw [List.filter_cons]
    split
    · exact ih _ _ (max_le_max_right _ h)
    · exact ih _ _ (h.trans (Nat.le_max_left ..))

/-- The end of the plain sections of an image. -/
def plainEnd (m : ImageMeta) : Nat := sectionsEnd (m.sections.filter (fun x => !x.rgn.isSealed))

theorem ceilDiv_mono {a b : Nat} (h : a ≤ b) (size : Nat) : ceilDiv a size ≤ ceilDiv b size := Nat.div_le_div_right (by omega)

/-- The plain sections take no more extents than an image without its header. -/
theorem plainExtents_le (m : ImageMeta) : ceilDiv (plainEnd m) extBytes + 1 ≤ imageExtents m.sections := by
  have hend : plainEnd m ≤ sectionsEnd m.sections := foldl_max_mono m.sections _ 0 0 (Nat.le_refl 0)
  exact (Nat.add_le_add_right (ceilDiv_mono hend extBytes) 1).trans_eq (Nat.add_comm _ 1)

/-- Room for `e` extents of `size` bytes is room for `p` of them, and then for one more. -/
theorem room_of_extents {size b p e limit : Nat} (hp : p + 1 ≤ e) (hb : b + size * e < limit) :
    b + size * p < limit ∧ ∀ b' ≤ b + size * p, b' + size < limit := by
  have hmul := Nat.mul_le_mul_left size hp
  rw [Nat.mul_succ] at hmul
  exact ⟨by omega, fun b' hb' => by omega⟩

/-! ### The drain -/

/-- A drain fails on a full Vault, or goes on with the plain sections stored. -/
theorem drain_cases (P : State → Prop) (lost : Bool) {s : State} {j : CkptJob} {m : ImageMeta} (hd : docentUp s = true)
    (hjob : s.health.job = some j) (himg : j.image = some m) (hstage : s.health.stage = .draining)
    (hfull : ∀ r : List Byte × State, besideMem r.2 = besideMem s →
      storeExtents (ceilDiv (plainEnd m) extBytes) (j.first + 1) false r.1 r.2 = none → P (failCkpt j stVaultFull r.2))
    (hstored : ∀ (r : List Byte × State) (u : State), besideMem r.2 = besideMem s →
      storeExtents (ceilDiv (plainEnd m) extBytes) (j.first + 1) false r.1 r.2 = some u →
        P (if j.target == 1 && lost then failCkpt j stUnreachable u else drainHeader j m u)) : P (doDrainDone lost s) := by
  have hgo : (!docentUp s || s.health.stage != .draining) ≠ true := by rw [hd, hstage]; decide
  delta doDrainDone
  split
  · next hnone => exact nomatch hjob.symm.trans hnone
  · next j' hsome =>
    obtain rfl := Option.some.inj (hjob.symm.trans hsome)
    split
    · next hnone => exact nomatch himg.symm.trans hnone
    · next m' himg' =>
      obtain rfl := Option.some.inj (himg.symm.trans himg')
      rw [if_neg hgo]
      have hread : besideMem (copyHbm (stageBase s) (plainEnd m) s).2 = besideMem s := besideMem_docentRead ..
      lift_lets
      intro plain r
      split
      · next hnone => exact hfull r hread hnone
      · next u hsome => exact hstored r u hread hsome

section
variable {s : State} {j : CkptJob} {m : ImageMeta} (hd : docentUp s = true) (hjob : s.health.job = some j) (himg : j.image = some m)
  (hstage : s.health.stage = .draining)
include hd hjob himg hstage

/-- With a lost partner the drain fails. -/
theorem ended_drain_lost (hj : j.target = 1) : Ended s (doDrainDone true s) s.health.completed (bump8 s.health.failed) := by
  refine drain_cases (fun u => Ended s u s.health.completed (bump8 s.health.failed)) true hd hjob himg hstage
    (fun r hread _ => ended_failCkpt (besideDrain_of_besideVault (besideVault_of_besideMem hread)) ..) (fun r u hread hu => ?_)
  rw [if_pos (by rw [hj]; rfl)]
  exact ended_failCkpt (besideDrain_of_besideVault ((besideVault_storeExtents _ _ _ _ _ u hu).trans (besideVault_of_besideMem hread))) ..

/-- A drain completes or fails. -/
theorem ended_drain : Ended s (doDrainDone false s) (bump8 s.health.completed) s.health.failed ∨
    Ended s (doDrainDone false s) s.health.completed (bump8 s.health.failed) := by
  refine drain_cases (fun u => Ended s u (bump8 s.health.completed) s.health.failed ∨ Ended s u s.health.completed (bump8 s.health.failed))
    false hd hjob himg hstage
    (fun r hread _ => .inr (ended_failCkpt (besideDrain_of_besideVault (besideVault_of_besideMem hread)) ..)) (fun r u hread hu => ?_)
  rw [if_neg (by simp)]
  exact ended_drainHeader (besideDrain_of_besideVault ((besideVault_storeExtents _ _ _ _ _ u hu).trans (besideVault_of_besideMem hread))) ..

/-- A drain without a partner completes when the Vault has room. -/
theorem ended_drain_alone (hj : j.target ≠ 1) (hopen : vaultOpenNow s = true) (hw : Writable s)
    (hbytes : s.vault.medium.bytesWritten + extBytes * imageExtents m.sections < enduranceBytes) :
    Ended s (doDrainDone false s) (bump8 s.health.completed) s.health.failed := by
  obtain ⟨hplain, hheader⟩ := room_of_extents (plainExtents_le m) hbytes
  have hstores : ∀ r : List Byte × State, besideMem r.2 = besideMem s →
      ∃ u, storeExtents (ceilDiv (plainEnd m) extBytes) (j.first + 1) false r.1 r.2 = some u ∧ vaultOpenNow u = true ∧ Writable u ∧
        u.vault.medium.bytesWritten ≤ s.vault.medium.bytesWritten + extBytes * ceilDiv (plainEnd m) extBytes := fun r hread => by
    have hvault : r.2.vault = s.vault := (congrArg State.vault hread :)
    have hopen' : vaultOpenNow r.2 = true := by
      have e : vaultOpenNow (besideMem r.2) = vaultOpenNow (besideMem s) := by rw [hread]
      exact e.trans hopen
    rw [← hvault]
    exact storeExtents_takes _ _ _ _ _ hopen' (hw.of_eq (by rw [hvault]) (by rw [hvault]) (by rw [hvault])) (hvault.symm ▸ hplain)
  refine drain_cases (fun u => Ended s u (bump8 s.health.completed) s.health.failed) false hd hjob himg hstage (fun r hread hnone => ?_)
    (fun r u hread hu => ?_)
  · obtain ⟨u, hu, -⟩ := hstores r hread
    exact nomatch hnone.symm.trans hu
  · obtain ⟨u', hu', hopenU, hwU, hbytesU⟩ := hstores r hread
    obtain rfl := Option.some.inj (hu.symm.trans hu')
    rw [if_neg (by simp)]
    exact ended_drainHeader_alone (besideDrain_of_besideVault ((besideVault_storeExtents _ _ _ _ _ u hu).trans
      (besideVault_of_besideMem hread))) j m hj hopenU hwU (hheader _ hbytesU)

end

/-! ### The cut and the staging -/

theorem layoutNow_modHealth (s : State) (f : Health → Health) (scope : BitVec 8) : layoutNow (modHealth s f) scope = layoutNow s scope := rfl

theorem next_checkpointTake (h : Hdr) (kind scope target window : BitVec 8) (first : Word) (peer : Peer) (s : State) (hd : docentUp s = true)
    (hcheck : ckptCheck kind scope target window.toNat first.toNat peer.answers s = stOk) :
    exec (.checkpointTake h kind scope target window first peer) s = .next (writeReply
      (startCkpt (some h) kind scope target window first.toNat s) h 0x0600 (ansLong .checkpointTake)) :=
  next_command h 0x0600 _ s hd _ _ (by rw [doCkptTake, hcheck] <;> rfl)

/-- The clock of the cut and the cut itself, with the sections laid out. -/
theorem takeCut_eq (j : CkptJob) (s : State) : ∃ m, m.sections = (layoutNow s j.scope).1 ∧ takeCut j s =
    { s with health := { s.health with
      cut := if j.kind.getLsbD 0 && !j.before.isEmpty then max s.health.cut s.time.now else s.health.cut, stage := .staging,
      job := some { j with base := s.cat.base, todo := (layoutNow s j.scope).1, image := some m } } } := by
  unfold takeCut
  by_cases hp : (j.kind.getLsbD 0 && !j.before.isEmpty) = true
  · rw [if_pos hp, if_pos hp]
    exact ⟨captureImage (modHealth s (fun x => { x with cut := max x.cut s.time.now })) (layoutNow s j.scope).1 j.kind j.scope, rfl, rfl⟩
  · rw [if_neg hp, if_neg hp]
    exact ⟨captureImage s (layoutNow s j.scope).1 j.kind j.scope, rfl, rfl⟩

theorem doCkptStage_waiting {s : State} {j : CkptJob} (hd : docentUp s = true) (hjob : s.health.job = some j)
    (hstage : s.health.stage = .waitingCut) : doCkptStage s = cutWhenDue j s := by
  rw [doCkptStage, hjob] <;> dsimp only
  rw [hd, hstage] <;> rfl

theorem cutWhenDue_due {s : State} (j : CkptJob) (hdue : s.health.cut ≤ s.time.now) (hquiet : j.kind.getLsbD 0 = false ∨ anyAccepted s = false) :
    cutWhenDue j s = takeCut j s := by
  unfold cutWhenDue
  rw [if_neg (by omega), if_neg]
  rw [Bool.not_eq_true, Bool.and_eq_false_iff]
  exact hquiet

theorem doCkptStage_drained {s : State} {j : CkptJob} (hd : docentUp s = true) (hjob : s.health.job = some j)
    (hstage : s.health.stage = .staging) (htodo : j.todo = []) :
    doCkptStage s = modHealth s (fun x => { x with stage := .draining }) := by
  rw [doCkptStage, hjob] <;> dsimp only
  rw [hd, hstage, htodo] <;> rfl

theorem doCkptStage_staging {s : State} {j : CkptJob} {x : CkptSection} {rest : List CkptSection} (hd : docentUp s = true)
    (hjob : s.health.job = some j) (hstage : s.health.stage = .staging) (htodo : j.todo = x :: rest) (hitem : ∀ g r, x.item ≠ .region g r)
    (hpending : writerPending s x.item = false) : doCkptStage s = stagedOne j x rest s := by
  obtain ⟨item, offset, length, addr, rgn⟩ := x
  rw [doCkptStage, hjob] <;> dsimp only
  rw [hd, hstage, htodo] <;> dsimp only
  rw [hpending]
  cases item with
  | region g r => exact absurd rfl (hitem g r)
  | _ => rfl

theorem stageSection_memory {s : State} (j : CkptJob) {x : CkptSection} (hitem : ∀ g r, x.item ≠ .region g r) :
    stageSection j x s = some (hubWrite (copyHbm x.addr x.length s).2 (stageBase s + x.offset) (copyHbm x.addr x.length s).1).2 := by
  obtain ⟨item, offset, length, addr, rgn⟩ := x
  cases item with
  | region g r => exact absurd rfl (hitem g r)
  | _ => rfl

theorem rangePoisoned_of_clean {s : State} (h : CleanHbm s) (a n : Nat) : rangePoisoned s a n = false := by
  obtain ⟨hdead, -, hnone⟩ := h
  have hranges : ∀ k, ∀ r ∈ (stkOf s k).ranges.toList, r = .none := fun k r hr =>
    Option.isNone_iff_eq_none.1 (List.all_eq_true.1 (noRange_of_noRanges hnone k) r hr)
  unfold rangePoisoned
  rw [hdead, Bool.or_eq_false_iff]
  refine ⟨rfl, List.any_eq_false.2 fun k _ => ?_⟩
  rw [Bool.not_eq_true]
  refine List.any_eq_false.2 fun r hr => ?_
  rw [hranges k r hr]
  exact Bool.false_ne_true

/-- Where no line has an error and no range is open, the Docent reads what stands in the memory. -/
theorem docentRead_of_clean {s : State} (h : CleanHbm s) (a n : Nat) : docentRead a n s = (smRead 0 a n s.hbm.mem, snoopRange a n s) := by
  unfold docentRead
  rw [rangePoisoned_of_clean h, if_neg Bool.false_ne_true, hbmGet_of_noRanges h.2.2, noteRange_of_clean 2 a n s h.1 h.2.1]

/-- A section of the memories is staged byte for byte. -/
theorem stagedOne_memory {s : State} (h : CleanHbm s) (j : CkptJob) {x : CkptSection} (rest : List CkptSection)
    (hitem : ∀ g r, x.item ≠ .region g r) : ∃ t, WroteBytes (stageBase s + x.offset) (smRead 0 x.addr x.length s.hbm.mem)
      (snoopRange x.addr x.length s) t ∧ stagedOne j x rest s = modHealth t (fun y => { y with job := some { j with todo := rest } }) := by
  have hsnoop : CleanHbm (snoopRange x.addr x.length s) := h
  obtain ⟨t, ht, hwrote⟩ := hubWrite_clean hsnoop (stageBase s + x.offset) (smRead 0 x.addr x.length s.hbm.mem)
  refine ⟨t, hwrote, ?_⟩
  rw [stagedOne, stageSection_memory j hitem, copyHbm, docentRead_of_clean h, ht] <;> rfl

theorem WroteBytes.staged {a n : Nat} {bs : List Byte} {s t : State} (h : WroteBytes a bs s t) (hn : bs.length = n) :
    smRead 0 a n t.hbm.mem = bs ∧ ∀ b, b < a ∨ a + n ≤ b → smGet 0 b t.hbm.mem = smGet 0 b s.hbm.mem := by
  subst hn
  refine ⟨?_, fun b hb => (h.2 b).trans (smGet_smPut_out 0 a b bs _ hb)⟩
  have hread := smRead_smPut_part a 0 bs.length bs s.hbm.mem (by omega)
  rw [smRead_congr a bs.length _ _ (fun b _ _ => h.2 b)]
  simpa using hread

/-! ### The whole of it -/

theorem exec_checkpointStage (s : State) : exec .checkpointStage s = .next (doCkptStage s) := rfl
theorem exec_checkpointDrainDone (lost : Bool) (s : State) : exec (.checkpointDrainDone lost) s = .next (doDrainDone lost s) := rfl

/-- Settles O49: the cut, the staging and the drain by the stage the checkpoint is in; a drain ends the checkpoint with one of its counters
stepped on, and the header's extent is the one that a partner's frames and the Vault decide about. -/
theorem checkpointsRun : Obligations.CheckpointsRun := by
  unfold Obligations.CheckpointsRun
  intro h s hd
  refine ⟨fun kind scope target window first peer hcheck => next_checkpointTake h kind scope target window first peer s hd hcheck,
    fun j hjob hstage hdue hquiet => ?_, fun j hjob hstage htodo => ?_,
    fun j x rest hjob hstage htodo hitem hpending hdead hweak hnone => ?_, fun j m hjob himg hstage => ⟨fun hj => ?_, fun hj => ?_,
      fun hj hopen hro hgood hbytes => ?_⟩⟩
  · obtain ⟨m, hm, hcut⟩ := takeCut_eq j s
    refine ⟨m, hm, ?_⟩
    rw [exec_checkpointStage, doCkptStage_waiting hd hjob hstage, cutWhenDue_due j hdue hquiet, hcut]
  · rw [exec_checkpointStage, doCkptStage_drained hd hjob hstage htodo] <;> rfl
  · obtain ⟨t, hwrote, ht⟩ := stagedOne_memory (j := j) ⟨hdead, hweak, hnone⟩ rest hitem
    obtain ⟨hbytes, hother⟩ := hwrote.staged (smRead_length ..)
    have hexec := (exec_checkpointStage s).trans
      (congrArg Host.Outcome.next ((doCkptStage_staging hd hjob hstage htodo hitem hpending).trans ht))
    refine ⟨_, hexec, rfl, hbytes, hother, ?_, ?_, ?_⟩
    · exact (congrArg State.gals hwrote.1 :)
    · exact (congrArg State.vault hwrote.1 :)
    · exact (congrArg State.tours hwrote.1 :)
  · have hend := ended_drain_lost hd hjob himg hstage hj
    exact ⟨_, exec_checkpointDrainDone .., hend.failed, hend.stage, hend.job, hend.gals, hend.tours⟩
  · rcases ended_drain hd hjob himg hstage with hend | hend
    · exact ⟨_, exec_checkpointDrainDone .., hend.stage, hend.job, .inl ⟨hend.completed, hend.failed⟩⟩
    · exact ⟨_, exec_checkpointDrainDone .., hend.stage, hend.job, .inr ⟨hend.failed, hend.completed⟩⟩
  · have hsize : extBytes = 8388608 := rfl
    have hlimit : enduranceBytes = 44 * 10 ^ 15 := rfl
    rw [← hsize, ← hlimit] at hbytes
    have hend := ended_drain_alone hd hjob himg hstage hj hopen ⟨hro, hgood, Nat.lt_of_le_of_lt (Nat.le_add_right ..) hbytes⟩ hbytes
    exact ⟨_, exec_checkpointDrainDone .., hend.completed, hend.stage, hend.job, hend.gals, hend.tours⟩

end Sys2Proof.Machine
end

section
/-!
PROOF. Loading a tour (10 R211 to R213): a sound manifest is accepted, its banks taken and its entries locked.
-/

namespace Sys2Proof.Machine

/-- The state without memories and their records, and without its galleries. -/
def besideBanks (s : State) : State := besideGals (besideMem s)

theorem besideBanks_of_besideMem {s t : State} (h : besideMem t = besideMem s) : besideBanks t = besideBanks s := by
  rw [besideBanks, besideBanks, h]

theorem besideMem_lockEntries (cats : List Nat) (s : State) : besideMem (lockEntries cats s) = besideMem s :=
  besideMem_foldl _ (fun x i => besideMem_modEnt i _ x) cats s

theorem besideBanks_setInactive (st : BankState) (gals : List Nat) (s : State) :
    besideBanks (gals.foldl (fun x g => setInactive st g x) s) = besideBanks s :=
  foldl_keeps besideBanks (fun x g => setInactive st g x) (fun _ _ => rfl) gals s

theorem besideBanks_landImages (t : Tour) (tags : SMem Quad) (gals : List Nat) (s : State) :
    besideBanks (gals.foldl (fun x g => landImage t tags g x) s) = besideBanks s :=
  foldl_keeps besideBanks (fun x g => landImage t tags g x) (fun _ _ => rfl) gals s

/-- The tours once the completed ones whose banks are loaded again are forgotten. -/
def stillKnown (mask : BitVec 32) (ts : List Tour) : List Tour :=
  ts.filter (fun o => o.state != .completed || (o.mask &&& mask) == 0)

/-- The state once the images of a tour have landed. -/
def landed (t : Tour) (s : State) : State :=
  (maskList t.mask).foldl (fun x g => landImage t (smCells 0 0 (t.bindings.map (fun b => (catEnt s b.cat).tag))) g x) s

theorem landTour_eq (t : Tour) (s : State) : landTour t s = { landed t s with tours := stillKnown t.mask (landed t s).tours } := rfl

theorem besideBanks_landTour (t : Tour) (s : State) : besideBanks (landTour t s) = besideBanks { s with tours := stillKnown t.mask s.tours } := by
  have h : besideBanks (landed t s) = besideBanks s := besideBanks_landImages ..
  rw [landTour_eq]
  exact congrArg (fun x => { x with tours := stillKnown t.mask x.tours }) h

/-- The state with a new tour at hand, before its images land. -/
def tourTaken (p : Pkg) (s : State) : State :=
  let bound := ((newTour p).bindings.map (·.cat)).eraseDups
  let cats := bound.filter (entSound s)
  let r := readEnts bound s
  let l := lockEntries cats { r with
    tours := { newTour p with locked := cats } :: r.tours.filter (fun o => o.tourId != BitVec.ofNat 64 (pkTourId p.rd)) }
  p.gals.foldl (fun x g => setInactive .loaded g x) l

/-- The entries of a package that are locked with it. -/
def soundBound (p : Pkg) (s : State) : List Nat := (((newTour p).bindings.map (·.cat)).eraseDups).filter (entSound s)

theorem besideBanks_tourTaken (p : Pkg) (s : State) : besideBanks (tourTaken p s) = besideBanks { s with
    tours := { newTour p with locked := soundBound p s } :: s.tours.filter (fun o => o.tourId != BitVec.ofNat 64 (pkTourId p.rd)) } := by
  have hread : besideMem (readEnts ((newTour p).bindings.map (·.cat)).eraseDups s) = besideMem s := besideMem_readEnts ..
  unfold tourTaken
  dsimp only
  refine (besideBanks_setInactive .loaded p.gals _).trans ((besideBanks_of_besideMem (besideMem_lockEntries ..)).trans ?_)
  generalize readEnts ((newTour p).bindings.map (·.cat)).eraseDups s = r at hread ⊢
  exact congrArg (fun x => besideGals { x with
    tours := { newTour p with locked := soundBound p s } :: x.tours.filter (fun o => o.tourId != BitVec.ofNat 64 (pkTourId p.rd)) }) hread

/-- What a load leaves when nothing refuses it at once. -/
theorem loadPackage_taken {bs : List Byte} {s : State} (hlen : 64 ≤ bs.length) (hman : checkManifest s (pkgOf bs) = .none)
    (hcat : pkBindings (pkgOf bs).rd = 0 ∨ catExists s = true) (hfree : ∀ g ∈ (pkgOf bs).gals, bankBusy s g = false)
    (hid : ∀ t ∈ s.tours, tourLive t = true → t.tourId ≠ BitVec.ofNat 64 (pkTourId (pkgOf bs).rd)) :
    (∀ b, checkPackage s (pkgOf bs) = some b → loadPackage bs s =
      (ansLong (.tourLoad (BitVec.ofNat 64 (pkTourId (pkgOf bs).rd)) b.st (BitVec.ofNat 32 b.detail)), tourTaken (pkgOf bs) s)) ∧
    (checkPackage s (pkgOf bs) = .none → loadPackage bs s =
      (ansLong (.tourLoad (BitVec.ofNat 64 (pkTourId (pkgOf bs).rd)) stOk 0), landTour (newTour (pkgOf bs)) (tourTaken (pkgOf bs) s))) := by
  have hshort : ¬ bs.length < 64 := by omega
  have hbusy : (pkgOf bs).gals.filter (bankBusy s) = [] := List.filter_eq_nil_iff.2 fun g hg => by rw [hfree g hg]; exact Bool.false_ne_true
  have hcat' : (!catExists s && decide (0 < pkBindings (pkgOf bs).rd)) ≠ true := by
    rcases hcat with h | h <;> simp [h]
  have hnew : (s.tours.any (fun t => tourLive t && t.tourId == BitVec.ofNat 64 (pkTourId (pkgOf bs).rd))) ≠ true := by
    simp only [ne_eq, List.any_eq_true, Bool.and_eq_true, beq_iff_eq, not_exists, not_and]
    exact fun t ht hlive => hid t ht hlive
  unfold loadPackage
  rw [if_neg hshort]
  lift_lets
  intro p id busy bad new bound cats s₁ s₂ s₃
  have hbusy' : ¬ (!busy.isEmpty) = true := by rw [show busy = [] from hbusy]; decide
  split
  · next c hc => exact nomatch hman.symm.trans hc
  · rw [if_neg hcat', if_neg hbusy', if_neg hnew]
    exact ⟨fun b hb => by rw [show bad = some b from hb] <;> rfl, fun hb => by rw [show bad = .none from hb] <;> rfl⟩

/-- The new tour, with the entries it locks. -/
def loadedTour (p : Pkg) (s : State) : Tour := { newTour p with locked := soundBound p s }

theorem tourOf_of_head {s : State} {x : Tour} {l : List Tour} (h : s.tours = x :: l) : tourOf s x.tourId = some x := by
  rw [tourOf, h]
  exact List.find?_cons_of_pos (beq_self_eq_true x.tourId)

/-- A load leaves the new tour loaded, and host memory, the Vault and time as they were. -/
structure Loaded (p : Pkg) (s t : State) : Prop where
  tour : tourOf t (BitVec.ofNat 64 (pkTourId p.rd)) = some (loadedTour p s)
  hostMem : t.hostMem = s.hostMem
  vault : t.vault = s.vault
  time : t.time = s.time

theorem loaded_of_besideBanks {p : Pkg} {s t : State} {l : List Tour} (h : besideBanks t = besideBanks { s with tours := loadedTour p s :: l }) :
    Loaded p s t :=
  ⟨tourOf_of_head (x := loadedTour p s) (congrArg State.tours h :), (congrArg State.hostMem h :), (congrArg State.vault h :),
    (congrArg State.time h :)⟩

theorem loaded_tourTaken (p : Pkg) (s : State) : Loaded p s (tourTaken p s) := loaded_of_besideBanks (besideBanks_tourTaken p s)

theorem loaded_landTour (p : Pkg) (s : State) : Loaded p s (landTour (newTour p) (tourTaken p s)) := by
  refine loaded_of_besideBanks (l := stillKnown (newTour p).mask (s.tours.filter (fun o => o.tourId != BitVec.ofNat 64 (pkTourId p.rd))))
    ((besideBanks_landTour _ _).trans ?_)
  exact congrArg (fun x => { x with tours := stillKnown (newTour p).mask x.tours }) (besideBanks_tourTaken p s)

theorem doTourLoad_host {s : State} (hbus : s.host.busMaster = true) (addr n : Nat) :
    doTourLoad 0 addr n s = loadPackage (hostGet s addr n) s := by
  have hread : readPackage 0 addr n s = ((stOk, hostGet s addr n), s) := by
    rw [readPackage, if_neg (by decide), if_pos rfl, if_pos (show hostReady s = true from hbus)]
  rw [doTourLoad, hread] <;> rfl

/-- Settles O26: the manifest refuses nothing, so the tour is taken; what the other checks found goes into the work alone. -/
theorem tourLoadIsAccepted : Obligations.TourLoadIsAccepted := by
  unfold Obligations.TourLoadIsAccepted
  intro h addr n s hd hbus hn bs p id hman hcat hfree hid
  have hlen : 64 ≤ bs.length := by rw [show bs.length = n.toNat from smRead_length ..]; exact hn
  obtain ⟨hbad, hgood⟩ := loadPackage_taken hlen hman hcat hfree hid
  have hexec : ∀ a t, loadPackage bs s = (a, t) → exec (.tourLoad h 0 addr n) s = .next (writeReply t h 0x0300 a) := fun a t hload =>
    next_command h 0x0300 _ s hd a t ((doTourLoad_host hbus _ _).trans hload)
  cases hc : checkPackage s p with
  | none =>
    have hl := loaded_landTour p s
    exact ⟨_, _, hexec _ _ (hgood hc), fun _ => rfl, fun c h => (nomatch h), ⟨_, hl.tour, rfl, rfl⟩, hl.hostMem, hl.vault, hl.time⟩
  | some c =>
    have hl := loaded_tourTaken p s
    exact ⟨_, _, hexec _ _ (hbad c hc), fun h => (nomatch h), fun c' h => by rw [Option.some.inj h], ⟨_, hl.tour, rfl, rfl⟩, hl.hostMem,
      hl.vault, hl.time⟩

end Sys2Proof.Machine
end

section
/-!
PROOF. Submissions (02 R36 to R39; 07 R148 to R152): what the Registrar's reads, a search for a start tick and an acceptance leave.
-/

namespace Sys2Proof.Machine

/-! ### Reads -/

section
variable {α : Type} (f : State → α → State)

theorem hbmMem_foldl (hf : ∀ x a, (f x a).hbm.mem = x.hbm.mem) (l : List α) (s : State) : (l.foldl f s).hbm.mem = s.hbm.mem :=
  foldl_keeps (fun x => x.hbm.mem) f hf l s

end

/-- A read by the hub leaves every byte of the memory: errors are counted and noted. -/
theorem hbmMem_noteRange (source a n : Nat) (s : State) : (noteRange source a n s).hbm.mem = s.hbm.mem :=
  (hbmMem_foldl (fun x l => countCe l x) (fun _ _ => rfl) _ _).trans (hbmMem_foldl (fun x l => countUe source l x) (fun _ _ => rfl) _ _)

theorem hbmMem_docentRead (a n : Nat) (s : State) : (docentRead a n s).2.hbm.mem = s.hbm.mem := by
  unfold docentRead
  split
  · exact hbmMem_noteRange 2 a n s
  · exact hbmMem_noteRange 2 a n s

/-- The Registrar's read of one bound key. -/
def readKey (x : State) (i : Nat) : State :=
  if (catEnt x i).kind = kindKey ∧ (catEnt x i).space = 0 then noteRange 2 (catEnt x i).addr 2048 x else x

theorem readBound_eq (cats : List Nat) (s : State) : readBound cats s = cats.foldl readKey (readEnts cats s) := rfl

theorem hbmMem_readBound (cats : List Nat) (s : State) : (readBound cats s).hbm.mem = s.hbm.mem := by
  have hkey : ∀ x i, (readKey x i).hbm.mem = x.hbm.mem := fun x i => by
    unfold readKey
    split
    · exact hbmMem_noteRange ..
    · rfl
  have hents : (readEnts cats s).hbm.mem = s.hbm.mem := hbmMem_foldl _ (fun x i => hbmMem_noteRange 2 (entAddr x i) 64 x) cats s
  exact (hbmMem_foldl readKey hkey cats _).trans hents

theorem besideMem_readBound (cats : List Nat) (s : State) : besideMem (readBound cats s) = besideMem s := by
  have hkey : ∀ x i, besideMem (readKey x i) = besideMem x := fun x i => by
    unfold readKey
    split
    · exact besideMem_noteRange ..
    · rfl
  exact (besideMem_foldl readKey hkey cats _).trans (besideMem_readEnts cats s)

/-! ### The search for a start tick -/

/-- Only free values are spent. -/
def SpentFrom (s t : State) : Prop := ∃ n, t = { s with freeCount := n }

theorem SpentFrom.refl (s : State) : SpentFrom s s := ⟨s.freeCount, rfl⟩

theorem spent_ckptFloor (t : Tour) (s : State) : SpentFrom s (ckptFloor t s).2 := by
  unfold ckptFloor
  dsimp only
  split
  · split
    · exact .refl s
    · split
      · exact ⟨_, rfl⟩
      · exact .refl s
  · split
    · exact ⟨_, rfl⟩
    · exact .refl s
  · exact .refl s

theorem spent_findStart (t : Tour) (nb limit : Nat) (s : State) : SpentFrom s (findStart t nb limit s).2 := by
  have hfloor := spent_ckptFloor t s
  unfold findStart
  generalize ckptFloor t s = r at hfloor
  obtain ⟨c, v⟩ := r
  cases c with
  | none => exact hfloor
  | some c =>
    dsimp only
    split
    · exact hfloor
    · split
      · split
        · exact hfloor
        · exact hfloor
      · exact hfloor

/-! ### Acceptance -/

/-- The tour as it stands once accepted. -/
def acceptedTour (h : Hdr) (op : BitVec 16) (start : Nat) (t : Tour) : Tour :=
  { t with state := .accepted, hdr := h, opcode := op, start := start, deadline := start + t.budget + t.slack, endTick := start }

/-- The tours with those of a TOUR_ID brought to the front. -/
def frontTours (id : Quad) (s : State) : State :=
  { s with tours := s.tours.filter (fun t => t.tourId == id) ++ s.tours.filter (fun t => t.tourId != id) }

theorem find?_filter_of_imp {α : Type} (p q : α → Bool) (h : ∀ x, q x = true → p x = true) (l : List α) :
    (l.filter p).find? q = l.find? q := by
  rw [List.find?_filter]
  congr 1
  funext x
  cases hq : q x
  · simp
  · simp [h x hq]

theorem find?_filter_of_disjoint {α : Type} (p q : α → Bool) (h : ∀ x, q x = true → p x = false) (l : List α) :
    (l.filter p).find? q = .none :=
  List.find?_eq_none.2 fun x hx hq => Bool.false_ne_true ((h x hq).symm.trans (List.mem_filter.1 hx).2)

theorem tourOf_frontTours (id k : Quad) (s : State) : tourOf (frontTours id s) k = tourOf s k := by
  rw [tourOf, frontTours, List.find?_append, tourOf]
  by_cases hk : k = id
  · subst hk
    rw [find?_filter_of_imp _ _ (fun _ h => h), find?_filter_of_disjoint (fun t : Tour => t.tourId != k) _ (fun _ h => by simpa using h),
      Option.or_none]
  · rw [find?_filter_of_disjoint (fun t : Tour => t.tourId == id) _ (fun x h => beq_false_of_ne ((beq_iff_eq.1 h).trans_ne hk)),
      Option.none_or, find?_filter_of_imp (fun t : Tour => t.tourId != id) _ (fun x h => bne_iff_ne.2 ((beq_iff_eq.1 h).trans_ne hk))]

theorem acceptTour_qp (id : Quad) {h : Hdr} {q : BitVec 6} (hq : h.src = .qp q) (op : BitVec 16) (start : Nat) (s : State) :
    acceptTour id h op start s =
      modQp (modTour (frontTours id s) id (acceptedTour h op start)) q.toNat (fun x => { x with tours := x.tours + 1 }) := by
  rw [acceptTour, hq] <;> rfl

/-- Only the tours and one queue pair's count of tours change with an acceptance. -/
theorem tourOf_acceptTour_same (id : Quad) {h : Hdr} {q : BitVec 6} (hq : h.src = .qp q) (op : BitVec 16) (start : Nat) (s : State) :
    tourOf (acceptTour id h op start s) id = (tourOf s id).map (acceptedTour h op start) := by
  rw [acceptTour_qp id hq]
  exact (tourOf_modTour_same (f := acceptedTour h op start) (fun _ => rfl) (frontTours id s) id).trans (by rw [tourOf_frontTours])

theorem tourOf_acceptTour_other (id k : Quad) {h : Hdr} {q : BitVec 6} (hq : h.src = .qp q) (op : BitVec 16) (start : Nat) (s : State)
    (hk : k ≠ id) : tourOf (acceptTour id h op start s) k = tourOf s k := by
  rw [acceptTour_qp id hq]
  exact (tourOf_modTour_other (f := acceptedTour h op start) (fun _ => rfl) (frontTours id s) id k hk).trans (tourOf_frontTours ..)

theorem qpTours_acceptTour (id : Quad) {h : Hdr} {q : BitVec 6} (hq : h.src = .qp q) (op : BitVec 16) (start : Nat) (s : State) :
    (qpOf (acceptTour id h op start s) q.toNat).tours = (qpOf s q.toNat).tours + 1 := by
  rw [acceptTour_qp id hq, qpOf_modQp_same _ _ _ (by omega)]
  rfl

/-- The state without its tours and queue pairs. -/
def besideQueue (s : State) : State := { s with tours := [], host := { s.host with qps := State.reset.host.qps } }

theorem besideQueue_acceptTour (id : Quad) (h : Hdr) (op : BitVec 16) (start : Nat) (s : State) :
    besideQueue (acceptTour id h op start s) = besideQueue s := by
  unfold acceptTour
  dsimp only
  split
  · rfl
  · rfl

/-! ### Banks -/

/-- A change of each gallery of a list, once each. -/
theorem galOf_modGals (f : Gallery → Gallery) (l : List Nat) (hnd : l.Nodup) (s : State) (g : Nat) (hg : g < 32) :
    galOf (l.foldl (fun x k => modGal x k f) s) g = if g ∈ l then f (galOf s g) else galOf s g := by
  induction l generalizing s with
  | nil => rfl
  | cons k l ih =>
    obtain ⟨hk, hnd'⟩ := List.nodup_cons.1 hnd
    rw [List.foldl_cons, ih hnd']
    by_cases hgk : g = k
    · subst hgk
      rw [if_neg hk, if_pos (List.mem_cons_self ..), galOf_modGal_same s g f hg]
    · rw [galOf_modGal_other s k g f hgk]
      simp [hgk]

/-- The inactive banks of a tour's galleries take a status. -/
def banksSet (st : BankState) (mask : BitVec 32) (s : State) : State := (maskList mask).foldl (fun x g => setInactive st g x) s

theorem besideGals_banksSet (st : BankState) (mask : BitVec 32) (s : State) : besideGals (banksSet st mask s) = besideGals s :=
  foldl_keeps besideGals (fun x g => setInactive st g x) (fun _ _ => rfl) (maskList mask) s

theorem galOf_banksSet (st : BankState) (mask : BitVec 32) (s : State) (g : Nat) (hg : g < 32) :
    galOf (banksSet st mask s) g = if mask.getLsbD g then modInactive (fun b => { b with status := st }) (galOf s g) else galOf s g := by
  rw [banksSet]
  refine (galOf_modGals _ _ (maskList_nodup mask) s g hg).trans ?_
  simp only [mem_maskList, hg, true_and]

/-! ### A submission that nothing refuses -/

/-- A tour with the outputs of its walk. -/
def walkedTour (ws : List WalkOut) (t : Tour) : Tour := { t with walk := ws, waitFor := [] }

/-- What an accepted submission leaves. -/
def submitted (h : Hdr) (id : Quad) (t : Tour) (k : Nat) (v : State) : State :=
  logTour (sha512 t.package) k (banksSet .accepted t.mask (acceptTour id h 0x0302 k (modTour v id (fun _ => t))))

theorem inBindingOrder_nil (n : Nat) : inBindingOrder n [] = [] := by
  rw [inBindingOrder]
  exact List.filterMap_eq_nil_iff.2 fun _ _ => rfl

/-- The answer to an accepted submission of which no Restoration is part. -/
def submitAnswer (t : Tour) (nb k now : Nat) : Answer :=
  { status := if k = max nb (now + 256) then stOk else stDeferred, detail := 0, result := startResult t k, work := .none }

theorem doTourSubmit_accepted {h : Hdr} {q : BitVec 6} {id : Quad} {nb limit k : Nat} {t : Tour} {ws : List WalkOut} {v s : State}
    (hq : h.src = .qp q) (ht : tourOf s id = some t) (hem : s.power.emergency = false) (hst : t.state = .loaded)
    (hload : t.loading = true → loadFails s id = false)
    (hwalk : walkWithRestores (readBound ((t.bindings.map (·.cat)).eraseDups) s) t (t.bindings.length + 1) [] = .inr (ws, []))
    (hpoison : poisonedUnused (readBound ((t.bindings.map (·.cat)).eraseDups) s) t = false)
    (hstart : findStart (walkedTour ws t) nb limit (readBound ((t.bindings.map (·.cat)).eraseDups) s) = (some k, v)) :
    doTourSubmit h id nb limit s = (submitAnswer t nb k s.time.now, submitted h id (walkedTour ws t) k v) := by
  have htime : (readBound ((t.bindings.map (·.cat)).eraseDups) s).time = s.time := (congrArg State.time (besideMem_readBound _ s) :)
  have hload' : ¬ (t.state ≠ .loaded ∨ (t.loading && loadFails s id) = true) := by
    rw [hst]
    simp only [ne_eq, not_true_eq_false, false_or, Bool.and_eq_true, not_and, Bool.not_eq_true]
    exact hload
  delta doTourSubmit
  split
  · next hm => exact nomatch hq.symm.trans hm
  · next q' hq' hnone => exact nomatch ht.symm.trans hnone
  · next q' t' hq' ht' =>
    obtain rfl := Option.some.inj (ht.symm.trans ht')
    rw [hem, if_neg Bool.false_ne_true, if_neg hload']
    generalize readBound ((t.bindings.map (·.cat)).eraseDups) s = r at *
    simp only [hwalk, hpoison, inBindingOrder_nil, admitInserted, List.filterMap_nil, List.map_nil, List.foldl_nil, Nat.max_zero,
      Bool.false_eq_true, if_false, ne_eq, not_true_eq_false]
    have hplain : (decide (k = plainStart r nb) && ([] : List Quad).isEmpty) = decide (k = max nb (s.time.now + 256)) := by
      rw [plainStart, htime, List.isEmpty_nil, Bool.and_true]
    rw [walkedTour] at hstart
    simp only [hstart, hplain, decide_eq_true_eq]
    rfl

/-- What an accepted submission leaves of the state before its acceptance. -/
theorem submitted_parts {h : Hdr} {q : BitVec 6} {id : Quad} {t₀ t : Tour} {k : Nat} {v : State} (hq : h.src = .qp q)
    (ht₀ : tourOf v id = some t₀) (hid : t.tourId = id) :
    tourOf (submitted h id t k v) id = some (acceptedTour h 0x0302 k t) ∧
    (∀ j, j ≠ id → tourOf (submitted h id t k v) j = tourOf v j) ∧
    (qpOf (submitted h id t k v) q.toNat).tours = (qpOf v q.toNat).tours + 1 ∧
    (∀ g < 32, galOf (submitted h id t k v) g =
      if t.mask.getLsbD g then modInactive (fun b => { b with status := .accepted }) (galOf v g) else galOf v g) := by
  have hset : modTour v id (fun _ => t) = modTour v id (fun x => if x.tourId == id then t else x) := by
    rw [modTour, modTour]
    congr 2
    funext x
    split <;> rfl
  have hkeeps : KeepsId (fun x => if x.tourId == id then t else x) := fun x => by
    dsimp only
    split
    · next hx => exact hid.trans (beq_iff_eq.1 hx).symm
    · rfl
  have hbanks := besideGals_banksSet .accepted t.mask (acceptTour id h 0x0302 k (modTour v id (fun _ => t)))
  have htours : (submitted h id t k v).tours = (acceptTour id h 0x0302 k (modTour v id (fun _ => t))).tours := (congrArg State.tours hbanks :)
  refine ⟨?_, fun j hj => ?_, ?_, fun g hg => ?_⟩
  · rw [tourOf_congr htours, tourOf_acceptTour_same id hq, hset, tourOf_modTour_same hkeeps, ht₀]
    exact congrArg (fun x => some (acceptedTour h 0x0302 k x)) (if_pos (beq_iff_eq.2 (tourId_of_tourOf ht₀)))
  · rw [tourOf_congr htours, tourOf_acceptTour_other id j hq _ _ _ hj, hset, tourOf_modTour_other hkeeps _ _ _ hj]
  · have hhost : (submitted h id t k v).host = (acceptTour id h 0x0302 k (modTour v id (fun _ => t))).host := (congrArg State.host hbanks :)
    rw [qpOf, hhost]
    exact qpTours_acceptTour id hq 0x0302 k _
  · have hgals : (acceptTour id h 0x0302 k (modTour v id (fun _ => t))).gals = v.gals :=
      (congrArg State.gals (besideQueue_acceptTour id h 0x0302 k (modTour v id (fun _ => t))) :)
    have hgal : galOf (acceptTour id h 0x0302 k (modTour v id (fun _ => t))) g = galOf v g := by rw [galOf, hgals, galOf]
    rw [← hgal]
    exact galOf_banksSet .accepted t.mask _ g hg

/-- Nothing but tours, banks, queue pairs and the log of tours changes with an accepted submission. -/
theorem submitted_frame (h : Hdr) (id : Quad) (t : Tour) (k : Nat) (v : State) :
    besideGals (besideQueue { submitted h id t k v with sec := v.sec }) = besideGals (besideQueue v) := by
  have hbanks := besideGals_banksSet .accepted t.mask (acceptTour id h 0x0302 k (modTour v id (fun _ => t)))
  have hqueue := besideQueue_acceptTour id h 0x0302 k (modTour v id (fun _ => t))
  exact (congrArg (fun x => besideQueue { x with sec := v.sec }) hbanks :).trans
    (congrArg (fun x => besideGals { x with sec := v.sec }) hqueue :)

theorem submitted_log (h : Hdr) (id : Quad) (t : Tour) (k : Nat) (v : State) :
    (submitted h id t k v).sec.tourLog = BitVec.ofNat 512 (leNat (sha512 (leBytes 64 v.sec.tourLog.toNat ++ sha512 t.package ++ leBytes 8 k))) ∧
    (submitted h id t k v).sec.tourCount = v.sec.tourCount + 1 := by
  have hsec : (banksSet .accepted t.mask (acceptTour id h 0x0302 k (modTour v id (fun _ => t)))).sec = v.sec :=
    (congrArg State.sec (besideGals_banksSet .accepted t.mask (acceptTour id h 0x0302 k (modTour v id (fun _ => t)))) :).trans
      (congrArg State.sec (besideQueue_acceptTour id h 0x0302 k (modTour v id (fun _ => t))) :)
  unfold submitted
  generalize sha512 t.package = d
  generalize banksSet .accepted t.mask (acceptTour id h 0x0302 k (modTour v id (fun _ => t))) = u at hsec
  unfold logTour
  rw [hsec]
  exact ⟨rfl, rfl⟩

/-- Settles O27: with nothing to insert the submission is the search for a start and the acceptance of the walked tour. -/
theorem tourSubmitAccepts : Obligations.TourSubmitAccepts := by
  unfold Obligations.TourSubmitAccepts
  intro h q id nb limit t ws k v s hd hq ht hem hst hload r hwalk hpoison hstart
  have hread : besideMem r = besideMem s := besideMem_readBound ((t.bindings.map (·.cat)).eraseDups) s
  have hmem : r.hbm.mem = s.hbm.mem := hbmMem_readBound ((t.bindings.map (·.cat)).eraseDups) s
  have hdo := doTourSubmit_accepted (nb := nb.toNat) (limit := limit.toNat) hq ht hem hst hload hwalk hpoison hstart
  obtain ⟨n, hn⟩ := spent_findStart { t with walk := ws, waitFor := [] } nb.toNat limit.toNat r
  obtain rfl : v = { r with freeCount := n } := by rw [← hn, hstart]
  have hexec := next_command h 0x0302 _ s hd _ _ hdo
  have hid : t.tourId = id := tourId_of_tourOf ht
  have htours : ∀ j, tourOf r j = tourOf s j := tourOf_congr (congrArg State.tours hread :)
  have hsec : r.sec = s.sec := (congrArg State.sec hread :)
  have hgals : ∀ g, galOf r g = galOf s g := fun g => by rw [galOf, show r.gals = s.gals from (congrArg State.gals hread :), galOf]
  have hqps : (qpOf r q.toNat) = qpOf s q.toNat := by
    rw [qpOf, show r.host.qps = s.host.qps from (congrArg (fun x => x.host.qps) hread :), qpOf]
  obtain ⟨htour, hother, hcount, hbanks⟩ := submitted_parts (t := walkedTour ws t) (k := k) (v := { r with freeCount := n }) hq
    ((htours id).trans ht) hid
  obtain ⟨hlog, hlogged⟩ := submitted_log h id (walkedTour ws t) k { r with freeCount := n }
  have hframe := submitted_frame h id (walkedTour ws t) k { r with freeCount := n }
  have hhbm := (congrArg State.hbm hframe :)
  refine ⟨submitted h id (walkedTour ws t) k { r with freeCount := n }, hexec, htour, fun j hj => (hother j hj).trans (htours j), ?_, ?_,
    hcount.trans (by rw [← hqps]; rfl), fun g hg => (hbanks g hg).trans (by rw [← hgals]; rfl), ?_, hhbm, ?_, ?_, ?_⟩
  · rw [← hsec]
    exact hlog
  · rw [← hsec]
    exact hlogged
  · exact (congrArg State.hostMem hframe :).trans (congrArg State.hostMem hread :)
  · exact (congrArg (fun x => x.mem) hhbm :).trans hmem
  · exact (congrArg State.vault hframe :).trans (congrArg State.vault hread :)
  · exact (congrArg State.time hframe :).trans (congrArg State.time hread :)

end Sys2Proof.Machine
end

section
/-!
PROOF. Submitted Restorations (07 R148 to R152): the build, the search for a start and the acceptance.
-/

namespace Sys2Proof.Machine

/-! ### The tour that is built -/

theorem spent_buildRestore (q : RestoreReq) (s : State) : SpentFrom s (buildRestore q s).2 := ⟨_, rfl⟩

theorem pkSlack_empty : pkSlack (pkgOf []).rd = 0 := by decide

/-- The fields of the tour of a Restoration that its admission speaks of. -/
theorem buildRestore_parts (q : RestoreReq) (s : State) :
    (buildRestore q s).1.tourId = builtId s ∧ (buildRestore q s).1.budget = restoreBudget s q ∧ (buildRestore q s).1.slack = 0 ∧
      (buildRestore q s).1.mask = BitVec.ofNat 32 (2 ^ numGal s - 1) := ⟨rfl, rfl, pkSlack_empty, rfl⟩

/-! ### What an admission leaves -/

/-- The state without galleries, cabinets and the refill's note. -/
def besideRefill (s : State) : State := { besideGals (besideMem s) with rst := State.reset.rst }

theorem besideRefill_landFill (g j : Nat) (v : Word) (s : State) : besideRefill (landFill g j v s) = besideRefill s := rfl

theorem besideRefill_refillReserve (s : State) : besideRefill (refillReserve s) = besideRefill s := by
  unfold refillReserve
  split
  · have hfill := foldRange_keeps besideRefill (numGal s) (fun g x => foldRange 4 (fun i y => landFill g (60 + i) 0 y) x)
      (fun g x => foldRange_keeps besideRefill 4 (fun i y => landFill g (60 + i) 0 y) (fun i y => besideRefill_landFill g (60 + i) 0 y) x) s
    exact hfill
  · rfl

theorem besideRefill_of_besideMem {s t : State} (h : besideMem t = besideMem s) : besideRefill t = besideRefill s := by
  rw [besideRefill, besideRefill, h]

theorem besideRefill_of_besideGals {s t : State} (h : besideGals t = besideGals s) : besideRefill t = besideRefill s := by
  have e : besideRefill (besideGals t) = besideRefill (besideGals s) := by rw [h]
  exact e

/-- A built tour, taken with its locks and the banks of every gallery. -/
def restoreTaken (t : Tour) (s : State) : State :=
  banksSet .accepted t.mask (lockEntries t.locked { refillReserve s with tours := t :: (refillReserve s).tours })

theorem besideRefill_restoreTaken (t : Tour) (s : State) :
    besideRefill (restoreTaken t s) = besideRefill { s with tours := t :: s.tours } := by
  refine (besideRefill_of_besideGals (besideGals_banksSet ..)).trans ((besideRefill_of_besideMem (besideMem_lockEntries ..)).trans ?_)
  exact congrArg (fun x => { x with tours := t :: x.tours }) (besideRefill_refillReserve s)

/-- A submitted Restoration, admitted with a start tick. -/
def restoreAdmitted (h : Hdr) (t : Tour) (k : Nat) (s : State) : State :=
  let u := acceptTour t.tourId h 0x0303 k (restoreTaken t s)
  logTour (leBytes 64 (freeBits 512 u).1.toNat) k (freeBits 512 u).2

theorem admitRestore_built (h : Hdr) (q : RestoreReq) (nb limit : Nat) (s : State) (hcheck : restoreCheck s q = stOk)
    (hbound : restoreBound s q = true) (hauto : q.autoIns = .none) :
    admitRestore h q nb limit s = match findStart (buildRestore q s).1 nb limit (buildRestore q s).2 with
      | (.none, v) => ((stNotReady, 0, 0), v)
      | (some k, v) => ((stOk, (buildRestore q s).1.tourId, k), restoreAdmitted h (buildRestore q s).1 k v) := by
  unfold admitRestore
  simp only [hcheck, hbound, hauto, ne_eq, not_true_eq_false, if_false, Bool.not_true, Bool.false_eq_true]
  generalize buildRestore q s = b
  obtain ⟨t, s₁⟩ := b
  dsimp only
  generalize findStart t nb limit s₁ = r
  obtain ⟨k, v⟩ := r
  cases k with
  | none => rfl
  | some k => rfl


/-! ### A submission -/

/-- The lookup table as the Docent reads it. -/
def lutRead (lut : Nat) (s : State) : List Byte × State := if (catEnt s lut).space = 0 then docentRead (catEnt s lut).addr 128 s else ([], s)

theorem besideMem_lutRead (lut : Nat) (s : State) : besideMem (lutRead lut s).2 = besideMem s := by
  unfold lutRead
  split
  · exact besideMem_docentRead ..
  · rfl

theorem hbmMem_lutRead (lut : Nat) (s : State) : (lutRead lut s).2.hbm.mem = s.hbm.mem := by
  unfold lutRead
  split
  · exact hbmMem_docentRead ..
  · rfl

/-- A submission's request, from its operands and the bytes of the lookup table. -/
def submitRequest (input output lut keyR keyX keyP slotsLog outLimbs policy : Nat) (bs : List Byte) : RestoreReq :=
  { input := input, output := output, keyR := keyR, keyX := keyX, keyP := keyP, slotsLog := slotsLog, outLimbs := outLimbs,
    policy := policy, inBits := ((readLut bs).getD (0, 0, [])).1, outBits := ((readLut bs).getD (0, 0, [])).2.1,
    lut := ((readLut bs).getD (0, 0, [])).2.2, lutIndex := some lut, autoIns := .none }

/-- The answer to an admission. -/
def admissionAnswer (nb : Nat) (s : State) (r : (BitVec 16 × Quad × Nat) × State) : Answer × State :=
  if r.1.1 ≠ stOk then refuseSubmit r.1.1 0 r.2 s
  else
    ({ status := if r.1.2.2 = plainStart s nb then stOk else stDeferred, detail := 0,
       result := match tourOf r.2 r.1.2.1 with | some t => startResult t r.1.2.2 | .none => [], work := .none }, r.2)

theorem admissionAnswer_accepted (nb k now : Nat) (s u : State) (id : Quad) (x : Tour) (hx : tourOf u id = some x)
    (hnow : s.time.now = now) : admissionAnswer nb s ((stOk, id, k), u) =
      ({ status := if k = max nb (now + 256) then stOk else stDeferred, detail := 0, result := startResult x k, work := .none }, u) := by
  subst hnow
  unfold admissionAnswer
  dsimp only
  rw [if_neg (fun h => h rfl), hx] <;> rfl

theorem doRestoreSubmit_admits {h : Hdr} {p : BitVec 6} (hp : h.src = .qp p) (input output lut keyR keyX keyP nb limit slotsLog outLimbs policy : Nat)
    {s : State} (hem : s.power.emergency = false) (hcat : catExists s = true) (hpol : policy ≤ 2)
    (hin : ∀ i ∈ [input, output, lut, keyR, keyX, keyP], i < 2 ^ 18) :
    let v := lutRead lut (readBound ([input, output, lut, keyR, keyX, keyP].eraseDups) s)
    doRestoreSubmit h input output lut keyR keyX keyP nb limit slotsLog outLimbs policy s =
      admissionAnswer nb v.2 (admitRestore h (submitRequest input output lut keyR keyX keyP slotsLog outLimbs policy v.1) nb limit v.2) := by
  intro v
  have hq : ¬ h.src = .mbox := by rw [hp]; exact fun h => nomatch h
  have hup : ¬ (s.power.emergency || !catExists s) = true := by rw [hem, hcat]; decide
  have hany : ([input, output, lut, keyR, keyX, keyP].any (fun i => decide (catCount ≤ i))) = false :=
    List.any_eq_false.2 fun i hi => by
      have := hin i hi
      have hcount : catCount = 2 ^ 18 := rfl
      rw [decide_eq_true_eq, hcount]
      omega
  have hrange : ¬ (decide (2 < policy) || [input, output, lut, keyR, keyX, keyP].any (fun i => decide (catCount ≤ i))) = true := by
    rw [hany, Bool.or_false, decide_eq_true_eq]
    omega
  delta doRestoreSubmit
  rw [if_neg hq, if_neg hup, if_neg hrange]
  rfl

/-- An admission adds its accepted tour, counts it and leaves every other tour. -/
theorem restoreAdmitted_parts {h : Hdr} {p : BitVec 6} (hp : h.src = .qp p) (t : Tour) (k : Nat) (s : State) :
    tourOf (restoreAdmitted h t k s) t.tourId = some (acceptedTour h 0x0303 k t) ∧
    (∀ id, id ≠ t.tourId → tourOf (restoreAdmitted h t k s) id = tourOf s id) ∧
    (restoreAdmitted h t k s).sec.tourCount = s.sec.tourCount + 1 ∧
    (qpOf (restoreAdmitted h t k s) p.toNat).tours = (qpOf s p.toNat).tours + 1 := by
  have htaken := besideRefill_restoreTaken t s
  have htours : ∀ id, tourOf (restoreTaken t s) id = tourOf { s with tours := t :: s.tours } id := tourOf_congr (congrArg State.tours htaken :)
  have hqp : qpOf (restoreTaken t s) p.toNat = qpOf s p.toNat := by
    rw [qpOf, show (restoreTaken t s).host.qps = s.host.qps from (congrArg (fun x => x.host.qps) htaken :), qpOf]
  have hsec : (acceptTour t.tourId h 0x0303 k (restoreTaken t s)).sec = s.sec :=
    (congrArg State.sec (besideQueue_acceptTour t.tourId h 0x0303 k (restoreTaken t s)) :).trans (congrArg State.sec htaken :)
  have hown : ∀ id, tourOf (restoreAdmitted h t k s) id = tourOf (acceptTour t.tourId h 0x0303 k (restoreTaken t s)) id := fun id =>
    tourOf_congr rfl id
  refine ⟨?_, fun id hid => ?_, congrArg (fun x => x.tourCount + 1) hsec, ?_⟩
  · rw [hown, tourOf_acceptTour_same _ hp, htours, tourOf_of_head (x := t) rfl]
    rfl
  · rw [hown, tourOf_acceptTour_other _ _ hp _ _ _ hid, htours]
    exact List.find?_cons_of_neg (by simpa using Ne.symm hid)
  · rw [← hqp]
    exact qpTours_acceptTour t.tourId hp 0x0303 k _

theorem refuseSubmit_notReady (spent s : State) : refuseSubmit stNotReady 0 spent s = (ansFail stNotReady, { s with freeCount := spent.freeCount }) :=
  rfl

/-- Settles O28: a submission is the reads, the build, the search for a start, and the acceptance or a refusal that spends free values. -/
theorem restoreSubmitAnswers : Obligations.RestoreSubmitAnswers := by
  unfold Obligations.RestoreSubmitAnswers
  intro h p input output lut kr kx kp nb limit slotsLog outLimbs policy s hd hp hem hcat hpol hin a r v l q hcheck hbound b
  have hin' : ∀ i ∈ [input.toNat, output.toNat, lut.toNat, kr.toNat, kx.toNat, kp.toNat], i < 2 ^ 18 := by
    simp only [List.mem_cons, List.not_mem_nil, or_false, forall_eq_or_imp, forall_eq] at hin ⊢
    exact hin
  have hread : besideMem v = besideMem s := (besideMem_lutRead lut.toNat a).trans (besideMem_readBound _ s)
  have hmem : v.hbm.mem = s.hbm.mem := (hbmMem_lutRead lut.toNat a).trans (hbmMem_readBound _ s)
  have hdo := doRestoreSubmit_admits hp input.toNat output.toNat lut.toNat kr.toNat kx.toNat kp.toNat nb.toNat limit.toNat slotsLog.toNat
    outLimbs.toNat policy.toNat hem hcat hpol hin'
  have hadmit : admitRestore h q nb.toNat limit.toNat v = match findStart b.1 nb.toNat limit.toNat b.2 with
      | (.none, w) => ((stNotReady, 0, 0), w)
      | (some k, w) => ((stOk, b.1.tourId, k), restoreAdmitted h b.1 k w) :=
    admitRestore_built h q nb.toNat limit.toNat v hcheck hbound rfl
  have htours : ∀ j, tourOf v j = tourOf s j := tourOf_congr (congrArg State.tours hread :)
  obtain ⟨n, hn⟩ : SpentFrom v (findStart b.1 nb.toNat limit.toNat b.2).2 := by
    obtain ⟨n₁, hn₁⟩ := spent_buildRestore q v
    obtain ⟨n, hn⟩ := spent_findStart b.1 nb.toNat limit.toNat b.2
    exact ⟨n, hn.trans (by rw [show b.2 = { v with freeCount := n₁ } from hn₁])⟩
  obtain ⟨hid, hbudget, hslack, hmask⟩ : b.1.tourId = builtId v ∧ b.1.budget = restoreBudget v q ∧ b.1.slack = 0 ∧
    b.1.mask = BitVec.ofNat 32 (2 ^ numGal v - 1) := buildRestore_parts q v
  clear_value b
  have hbuilt : builtId v = builtId s := by
    have e : builtId (besideMem v) = builtId (besideMem s) := by rw [hread]
    exact e
  have hexec : ∀ y, admitRestore h q nb.toNat limit.toNat v = y →
      exec (.restoreSubmit h input output lut kr kx kp nb limit slotsLog outLimbs policy) s =
        .next (writeReply (admissionAnswer nb.toNat v y).2 h 0x0303 (admissionAnswer nb.toNat v y).1) := fun y hy =>
    next_command h 0x0303 _ s hd _ _ (hdo.trans (congrArg (admissionAnswer nb.toNat v) hy))
  generalize hfound : findStart b.1 nb.toNat limit.toNat b.2 = found at hn
  obtain ⟨start, w⟩ := found
  obtain rfl : w = { v with freeCount := n } := hn
  rw [hfound] at hadmit
  cases start with
  | none =>
    refine ⟨n, (hexec _ hadmit).trans ?_, (congrArg State.tours hread :), (congrArg State.gals hread :), hmem, (congrArg State.hostMem hread :),
      (congrArg State.sec hread :)⟩
    rfl
  | some k =>
    obtain ⟨htour, hother, hcount, hqp⟩ := restoreAdmitted_parts hp b.1 k { v with freeCount := n }
    rw [show b.1.tourId = builtId s from hid.trans hbuilt] at htour hother
    have hdead : k + b.1.budget + b.1.slack = k + restoreBudget v q := by rw [hslack, hbudget, Nat.add_zero]
    have hsec : v.sec = s.sec := (congrArg State.sec hread :)
    have hqps : qpOf { v with freeCount := n } p.toNat = qpOf s p.toNat := by
      rw [qpOf, show ({ v with freeCount := n } : State).host.qps = s.host.qps from (congrArg (fun x => x.host.qps) hread :), qpOf]
    have hgals : numGal v = numGal s := by
      have e : numGal (besideMem v) = numGal (besideMem s) := by rw [hread]
      exact e
    have htime : v.time = s.time := (congrArg State.time hread :)
    refine ⟨restoreAdmitted h b.1 k { v with freeCount := n }, acceptedTour h 0x0303 k b.1, (hexec _ hadmit).trans ?_, htour, rfl, rfl, hdead,
      hmask.trans (by rw [hgals]), fun id hid => (hother id hid).trans (htours id), hcount.trans (by rw [← hsec]), hqp.trans (by rw [hqps])⟩
    rw [show b.1.tourId = builtId s from hid.trans hbuilt, admissionAnswer_accepted _ _ s.time.now _ _ _ _ htour (congrArg TimeSt.now htime)]
    exact congrArg (fun m => Host.Outcome.next (writeReply (restoreAdmitted h b.1 k { v with freeCount := n }) h 0x0303
      { status := if k = max nb.toNat (s.time.now + 256) then stOk else stDeferred, detail := 0, result := leBytes 8 k ++ leBytes 8 m,
        work := .none })) hdead

end Sys2Proof.Machine
end

section
/-!
PROOF. The modular engine (05 R103, R108, R109): the Barrett sequence is exact, and a transform pass keeps residues below Q.
-/

namespace Sys2Proof.Machine

/-! ### The Barrett sequence (R103) -/

/-- A modulus entry as the tables carry it: Q of 30 or 31 bits, its length, and its Barrett constant. -/
structure SoundEntry (e : ModEnt) : Prop where
  above : 2 ^ 29 < e.q
  below : e.q < 2 ^ 31
  low : 2 ^ (e.k - 1) ≤ e.q
  high : e.q < 2 ^ e.k
  mu : e.mu = 2 ^ (2 * e.k) / e.q

theorem SoundEntry.k_pos {e : ModEnt} (h : SoundEntry e) : 30 ≤ e.k ∧ e.k ≤ 31 := by
  have hlow : e.k - 1 < 31 := (Nat.pow_lt_pow_iff_right (by omega)).1 (h.low.trans_lt h.below)
  have hhigh : 29 < e.k := (Nat.pow_lt_pow_iff_right (by omega)).1 (h.above.trans h.high)
  omega

/-- The estimate of a quotient by reciprocals, in numbers: `a` and `m` are the truncated factors of R103. -/
theorem estimate_bounds {B D q p a m est : Nat} (hD : 0 < D) (hB : 0 < B) (hq : 0 < q) (hBq : B ≤ q) (haD : a ≤ D) (ha : a * B ≤ p)
    (ha' : p < (a + 1) * B) (hm : m * q ≤ B * D) (hm' : B * D < (m + 1) * q) (he : est * D ≤ a * m) (he' : a * m < (est + 1) * D) :
    est * q ≤ p ∧ p < (est + 3) * q := by
  constructor
  · have h : est * q * (B * D) ≤ p * (B * D) :=
      calc est * q * (B * D) = est * D * (q * B) := by ring
        _ ≤ a * m * (q * B) := Nat.mul_le_mul_right _ he
        _ = a * B * (m * q) := by ring
        _ ≤ p * (B * D) := Nat.mul_le_mul ha hm
    exact Nat.le_of_mul_le_mul_right h (Nat.mul_pos hB hD)
  · have h : p * D < (est + 3) * q * D :=
      calc p * D < (a + 1) * B * D := Nat.mul_lt_mul_of_pos_right ha' hD
        _ = a * (B * D) + B * D := by ring
        _ ≤ a * ((m + 1) * q) + q * D := Nat.add_le_add (Nat.mul_le_mul_left a hm'.le) (Nat.mul_le_mul_right D hBq)
        _ = a * m * q + a * q + q * D := by ring
        _ ≤ (est + 1) * D * q + D * q + q * D :=
          Nat.add_le_add_right (Nat.add_le_add (Nat.mul_le_mul_right q he'.le) (Nat.mul_le_mul_right q haD)) _
        _ = (est + 3) * q * D := by ring
    exact Nat.lt_of_mul_lt_mul_right h

/-- The quotient estimate of R103 before any truncation of its words. -/
def quotEst (e : ModEnt) (p : Nat) : Nat := p / 2 ^ (e.k - 1) * e.mu / 2 ^ (e.k + 1)

theorem SoundEntry.factor_le {e : ModEnt} (h : SoundEntry e) {p : Nat} (hp : p < e.q * e.q) : p / 2 ^ (e.k - 1) < 2 ^ (e.k + 1) := by
  have hk := h.k_pos
  rw [Nat.div_lt_iff_lt_mul (Nat.two_pow_pos _)]
  calc p < e.q * e.q := hp
    _ ≤ 2 ^ e.k * 2 ^ e.k := Nat.mul_le_mul h.high.le h.high.le
    _ = 2 ^ (e.k + 1) * 2 ^ (e.k - 1) := by rw [← pow_add, ← pow_add]; congr 1; omega

/-- The quotient estimate is at most the quotient and at least two below it. -/
theorem SoundEntry.estimate {e : ModEnt} (h : SoundEntry e) {p : Nat} (hp : p < e.q * e.q) :
    quotEst e p * e.q ≤ p ∧ p < (quotEst e p + 3) * e.q := by
  have hk := h.k_pos
  have hq : 0 < e.q := Nat.lt_of_le_of_lt (Nat.zero_le _) h.above
  have hN : (2 : Nat) ^ (2 * e.k) = 2 ^ (e.k - 1) * 2 ^ (e.k + 1) := by rw [← pow_add]; congr 1; omega
  refine estimate_bounds (a := p / 2 ^ (e.k - 1)) (m := e.mu) (Nat.two_pow_pos (e.k + 1)) (Nat.two_pow_pos (e.k - 1)) hq h.low
    (h.factor_le hp).le (Nat.div_mul_le_self ..) ?_ ?_ ?_ (Nat.div_mul_le_self ..) ?_
  · exact Nat.lt_mul_of_div_lt (Nat.lt_succ_self _) (Nat.two_pow_pos _)
  · rw [h.mu, ← hN]
    exact Nat.div_mul_le_self ..
  · rw [h.mu, ← hN]
    exact Nat.lt_mul_of_div_lt (Nat.lt_succ_self _) hq
  · exact Nat.lt_mul_of_div_lt (Nat.lt_succ_self _) (Nat.two_pow_pos _)

/-- Two conditional subtractions bring a number below 3 Q to its residue. -/
theorem twice_subtracted {q r : Nat} (h : r < 3 * q) :
    (if q ≤ (if q ≤ r then r - q else r) then (if q ≤ r then r - q else r) - q else (if q ≤ r then r - q else r)) = r % q := by
  have hq : 0 < q := by omega
  by_cases h1 : q ≤ r
  · rw [if_pos h1]
    by_cases h2 : q ≤ r - q
    · rw [if_pos h2, Nat.mod_eq_sub_mod h1, Nat.mod_eq_sub_mod h2, Nat.mod_eq_of_lt (by omega)]
    · rw [if_neg h2, Nat.mod_eq_sub_mod h1, Nat.mod_eq_of_lt (by omega)]
  · rw [if_neg h1, if_neg h1, Nat.mod_eq_of_lt (by omega)]

/-- The Barrett sequence of a sound entry gives the product modulo Q, and its range check passes (R103). -/
theorem barrett_exact {e : ModEnt} (h : SoundEntry e) {a b : Nat} (ha : a < e.q) (hb : b < e.q) :
    barrett e a b = { val := a * b % e.q, cause := .none } := by
  have hp : a * b < e.q * e.q := Nat.mul_lt_mul'' ha hb
  obtain ⟨hlow, hhigh⟩ := h.estimate hp
  have hk := h.k_pos
  have hq := h.below
  have hfactor : (a * b) >>> (e.k - 1) % 2 ^ 32 = a * b / 2 ^ (e.k - 1) := by
    rw [Nat.shiftRight_eq_div_pow]
    exact Nat.mod_eq_of_lt ((h.factor_le hp).trans_le (Nat.pow_le_pow_right (by decide) (by omega)))
  have hest : quotEst e (a * b) < 2 ^ 32 := by
    have hlt : quotEst e (a * b) < e.q := Nat.lt_of_mul_lt_mul_right (hlow.trans_lt hp)
    exact hlt.trans (hq.trans (by decide))
  have hquot : ((a * b) >>> (e.k - 1) % 2 ^ 32 * e.mu) >>> (e.k + 1) % 2 ^ 32 = quotEst e (a * b) := by
    rw [hfactor, Nat.shiftRight_eq_div_pow]
    exact Nat.mod_eq_of_lt hest
  unfold barrett
  dsimp only
  rw [hquot]
  generalize quotEst e (a * b) = est at *
  generalize a * b = p at *
  have hrest : p - est * e.q < 3 * e.q := by rw [Nat.add_mul] at hhigh; omega
  have hrem : (p + 2 ^ 64 - est * e.q) % 2 ^ 33 = p - est * e.q := by omega
  have hmod : (p - est * e.q) % e.q = p % e.q := by
    conv_rhs => rw [← Nat.sub_add_cancel hlow, Nat.add_mul_mod_self_right]
  rw [hrem, twice_subtracted hrest, hmod, if_neg (Nat.not_le.2 hrest),
    Nat.mod_eq_of_lt ((Nat.mod_lt p (by omega)).trans (hq.trans (by decide)))]

/-! ### Residues below Q through a transform pass (R108, R109) -/

/-- A group under way with every word below Q and no failed check. -/
def CleanGrp (q : Nat) (g : Grp) : Prop := (∀ w ∈ g.ws, w < q) ∧ g.fault = .none

theorem getD_below {q : Nat} {ws : List Nat} (h : ∀ w ∈ ws, w < q) (hq : 0 < q) (d : Nat) : ws.getD d 0 < q := by
  rw [List.getD_eq_getElem?_getD]
  cases hd : ws[d]? with
  | none => exact hq
  | some w => exact h w (List.mem_of_getElem? hd)

theorem below_set {q v : Nat} {ws : List Nat} (h : ∀ w ∈ ws, w < q) (hv : v < q) (d : Nat) : ∀ w ∈ ws.set d v, w < q := fun w hw => by
  rcases List.mem_or_eq_of_mem_set hw with hw | rfl
  · exact h w hw
  · exact hv

theorem subQ_below {q x : Nat} (hx : x < 2 * q) : subQ q x < q := by
  refine (Nat.mod_le _ _).trans_lt ?_
  split
  · omega
  · omega

theorem diffQ_below {q x y : Nat} (hx : x < q) (hy : y < q) (hq : q < 2 ^ 31) : diffQ q x y < q := by
  refine subQ_below ?_
  omega

section
variable {tw : TwRd} {e : ModEnt} (he : SoundEntry e) (htw : ∀ j, tw j < e.q)
include he htw

theorem twiddle_clean (inv : Bool) (n ex : Nat) : (twiddle tw e inv n ex).val < e.q ∧ (twiddle tw e inv n ex).cause = .none := by
  unfold twiddle
  dsimp only
  rw [barrett_exact he (htw _) (htw _)]
  exact ⟨Nat.mod_lt _ (Nat.lt_of_le_of_lt (Nat.zero_le _) he.above), rfl⟩

theorem bflyFwd_clean (n r b gidx sp d : Nat) {g : Grp} (hg : CleanGrp e.q g) : CleanGrp e.q (bflyFwd tw e n r b gidx sp d g) := by
  have hq : 0 < e.q := Nat.lt_of_le_of_lt (Nat.zero_le _) he.above
  obtain ⟨hws, hfault⟩ := hg
  unfold bflyFwd
  dsimp only
  split
  · exact ⟨hws, hfault⟩
  · obtain ⟨hw, hcause⟩ := twiddle_clean he htw false n (bflyExp n r b gidx sp d % 2 ^ n)
    generalize twiddle tw e false n (bflyExp n r b gidx sp d % 2 ^ n) = w at hw hcause
    have hlo := getD_below hws hq d
    rw [barrett_exact he (getD_below hws hq _) hw, hcause, hfault]
    have ht := Nat.mod_lt (g.ws.getD (d + 2 ^ r / 2 ^ (sp + 1)) 0 * w.val) hq
    exact ⟨below_set (below_set hws (subQ_below ((Nat.add_lt_add hlo ht).trans_eq (Nat.two_mul _).symm)) _) (diffQ_below hlo ht he.below) _, rfl⟩

theorem bflyInv_clean (n r b gidx sp d : Nat) {g : Grp} (hg : CleanGrp e.q g) : CleanGrp e.q (bflyInv tw e n r b gidx sp d g) := by
  have hq : 0 < e.q := Nat.lt_of_le_of_lt (Nat.zero_le _) he.above
  obtain ⟨hws, hfault⟩ := hg
  unfold bflyInv
  dsimp only
  split
  · exact ⟨hws, hfault⟩
  · obtain ⟨hw, hcause⟩ := twiddle_clean he htw true n (bflyExp n r b gidx sp d % 2 ^ n)
    generalize twiddle tw e true n (bflyExp n r b gidx sp d % 2 ^ n) = w at hw hcause
    have hx := getD_below hws hq d
    have hy := getD_below hws hq (d + 2 ^ r / 2 ^ (sp + 1))
    rw [barrett_exact he (diffQ_below hx hy he.below) hw, hcause, hfault]
    exact ⟨below_set (below_set hws (subQ_below (by omega)) _) (Nat.mod_lt _ hq) _, rfl⟩

end

theorem foldRange_prop {α : Type} (P : α → Prop) (n : Nat) (f : Nat → α → α) (hf : ∀ i x, P x → P (f i x)) {s : α} (h : P s) :
    P (foldRange n f s) := by
  rw [foldRange]
  induction List.range n generalizing s with
  | nil => exact h
  | cons i l ih => exact ih (hf i s h)

theorem below_reordered {q : Nat} {ws : List Nat} (h : ∀ w ∈ ws, w < q) (hq : 0 < q) (n : Nat) (f : Nat → Nat) :
    ∀ w ∈ (List.range n).map (fun d => ws.getD (f d) 0), w < q := fun w hw => by
  obtain ⟨d, -, rfl⟩ := List.mem_map.1 hw
  exact getD_below h hq _

section
variable {tw : TwRd} {e : ModEnt} (he : SoundEntry e) (htw : ∀ j, tw j < e.q)
include he htw

theorem groupFwd_clean (n r b gidx : Nat) {ws : List Nat} (hws : ∀ w ∈ ws, w < e.q) : CleanGrp e.q (groupFwd tw e n r b gidx ws) := by
  have hq : 0 < e.q := Nat.lt_of_le_of_lt (Nat.zero_le _) he.above
  have hstages : CleanGrp e.q (foldRange r (fun sp g => foldRange (2 ^ r) (fun d g => bflyFwd tw e n r b gidx sp d g) g)
      { ws := ws, fault := .none }) :=
    foldRange_prop _ r _ (fun sp _ hg => foldRange_prop _ _ _ (fun d _ hg => bflyFwd_clean he htw n r b gidx sp d hg) hg) ⟨hws, rfl⟩
  exact ⟨below_reordered hstages.1 hq _ _, hstages.2⟩

theorem groupInv_clean (n r b gidx : Nat) {ws : List Nat} (hws : ∀ w ∈ ws, w < e.q) : CleanGrp e.q (groupInv tw e n r b gidx ws) := by
  have hq : 0 < e.q := Nat.lt_of_le_of_lt (Nat.zero_le _) he.above
  exact foldRange_prop _ r _ (fun i _ hg => foldRange_prop _ _ _ (fun d _ hg => bflyInv_clean he htw n r b gidx (r - 1 - i) d hg) hg)
    ⟨below_reordered hws hq _ _, rfl⟩

theorem transformGroups_clean (b : Nat) (gk : Int) {ws : List Nat} (hws : ∀ w ∈ ws, w < e.q) :
    ∀ g ∈ transformGroups tw e b gk ws, CleanGrp e.q g := fun g hg => by
  have hq : 0 < e.q := Nat.lt_of_le_of_lt (Nat.zero_le _) he.above
  obtain ⟨gl, -, rfl⟩ := List.mem_map.1 hg
  lift_lets
  intro G inp
  split
  · exact groupInv_clean he htw _ _ _ _ (below_reordered hws hq _ _)
  · exact groupFwd_clean he htw _ _ _ _ (below_reordered hws hq _ _)

/-- A transform pass over residues keeps them below Q, and none of its checks fails. -/
theorem transformPass_clean (b : Nat) (gk : Int) {ws : List Nat} (hws : ∀ w ∈ ws, w < e.q) :
    (∀ w ∈ (transformPass tw e b gk ws).ws, w < e.q) ∧ (transformPass tw e b gk ws).fault = .none := by
  have hq : 0 < e.q := Nat.lt_of_le_of_lt (Nat.zero_le _) he.above
  have hempty : CleanGrp e.q { ws := [], fault := .none } := ⟨fun w hw => absurd hw List.not_mem_nil, rfl⟩
  have hinp : ∀ w ∈ (if xfSwap b && xfInverse b then (List.range 256).map (fun l => ws.getD (nibSwap l) 0) else ws), w < e.q := by
    split
    · exact below_reordered hws hq _ _
    · exact hws
  have hgs := transformGroups_clean he htw b gk hinp
  unfold transformPass
  dsimp only
  generalize transformGroups tw e b gk _ = gs at hgs ⊢
  have hget : ∀ i, CleanGrp e.q (gs.getD i { ws := [], fault := .none }) := fun i => by
    rw [List.getD_eq_getElem?_getD]
    cases hi : gs[i]? with
    | none => exact hempty
    | some g => exact hgs g (List.mem_of_getElem? hi)
  have hout : ∀ w ∈ (List.range 256).map (fun l =>
      ((gs.getD (laneGroup (xfDpos b) (xfRadix b) l) { ws := [], fault := .none }).ws).getD (lanePos (xfDpos b) (xfRadix b) l) 0), w < e.q :=
    fun w hw => by
      obtain ⟨l, -, rfl⟩ := List.mem_map.1 hw
      exact getD_below (hget _).1 hq _
  constructor
  · split
    · exact below_reordered hout hq _ _
    · exact hout
  · exact foldRange_prop (fun f => f = Option.none) _ _ (fun i f hf => by rw [hf, (hget i).2]; rfl) rfl

end

end Sys2Proof.Machine
end

section
/-!
PROOF. The stations (03 R59, R60; 05 R103 to R106; 08 R166 to R169; 09 R188): what each does to a word set, to the accumulator and the
tile registers, and what it leaves alone.
-/

namespace Sys2Proof.Machine

/-! ### What signing, counting and watching leave -/

/-- A word set of a step is signed: only the partner's summaries change. -/
def SignedFrom (m m' : Sim) : Prop := ∃ f, m' = { m with s := { m.s with fab := f } }

theorem SignedFrom.refl (m : Sim) : SignedFrom m m := ⟨m.s.fab, rfl⟩

theorem SignedFrom.trans {m m' m'' : Sim} (h : SignedFrom m m') (h' : SignedFrom m' m'') : SignedFrom m m'' := by
  obtain ⟨f, rfl⟩ := h
  obtain ⟨f', rfl⟩ := h'
  exact ⟨f', rfl⟩

theorem signed_signBytes (e : Exe) (st cyc : Nat) (bs : List Byte) (m : Sim) : SignedFrom m (signBytes e st cyc bs m) := by
  unfold signBytes
  split
  · exact .refl m
  · exact ⟨_, rfl⟩

theorem signed_signWords (e : Exe) (st cyc : Nat) (wide : Bool) (ws : List Nat) (m : Sim) : SignedFrom m (signWords e st cyc wide ws m) := by
  unfold signWords
  split
  · exact signed_signBytes ..
  · exact .refl m

theorem signed_signBoth (e : Exe) (st cyc : Nat) (wide : Bool) (f : Flight) (m : Sim) : SignedFrom m (signBoth e st cyc wide f m) :=
  (signed_signWords ..).trans (signed_signWords ..)

theorem signed_signAcc (e : Exe) (cyc : Nat) (f : Flight) (m : Sim) : SignedFrom m (signAcc e cyc f m) := by
  unfold signAcc
  split
  · exact signed_signBoth ..
  · exact signed_signWords ..

section
variable {m m' : Sim} (h : SignedFrom m m')
include h

theorem SignedFrom.gals : m'.s.gals = m.s.gals := by obtain ⟨f, rfl⟩ := h; rfl
theorem SignedFrom.faults : m'.faults = m.faults := by obtain ⟨f, rfl⟩ := h; rfl
theorem SignedFrom.lands : m'.lands = m.lands := by obtain ⟨f, rfl⟩ := h; rfl
theorem SignedFrom.wbacks : m'.wbacks = m.wbacks := by obtain ⟨f, rfl⟩ := h; rfl
theorem SignedFrom.galX (e : Exe) : galX e m' = galX e m := by obtain ⟨f, rfl⟩ := h; rfl

end

/-- What the stations read back of a gallery: the accumulator file, its views and the tile registers. -/
def stationFile (x : Gallery) : SMem Quad × SMem Word × List (Nat × View) × SMem Word := (x.work.accM, x.work.accN, x.work.accView, x.work.tiles)

/-- The same of the gallery of a step. -/
def fileOf (e : Exe) (m : Sim) : SMem Quad × SMem Word × List (Nat × View) × SMem Word := stationFile (galX e m)

theorem gals_hubWrite (a : Nat) (bs : List Byte) (s : State) : (hubWrite s a bs).2.gals = s.gals :=
  (congrArg State.gals (besideMem_hubWrite s a bs) :)

section
variable {α : Type} (proj : Gallery → α) (hinv : ∀ x i, proj { x with inv := i } = proj x)
include hinv

theorem proj_modInv (s : State) (g : Nat) (f : InvGal → InvGal) (k : Nat) : proj (galOf (modInv s g f) k) = proj (galOf s k) :=
  galOf_modGal_keeps proj (fun x => hinv x _) s g k

/-- A hazard that is noted changes the Invigilator's part of a gallery alone. -/
theorem proj_noteHz (h : Hz) (s : State) (k : Nat) : proj (galOf (noteHz h s) k) = proj (galOf s k) := by
  have hlog : ∀ x, proj (galOf (logHazard h x) k) = proj (galOf x k) := fun x => by
    unfold logHazard
    split
    · rfl
    · split
      · exact congrArg (fun v => proj (vget v k Gallery.reset)) (gals_hubWrite _ _ x)
      · exact proj_modInv proj hinv x _ _ k
  unfold noteHz
  dsimp only
  split
  · split
    · exact proj_modInv proj hinv s _ _ k
    · exact (hlog _).trans ((proj_modInv proj hinv _ _ _ k).trans (proj_modInv proj hinv s _ _ k))
  · rfl

end

theorem fileOf_simHz (e : Exe) (h : Hz) (m : Sim) : fileOf e (simHz e h m) = fileOf e m := by
  unfold simHz
  split
  · exact proj_noteHz stationFile (fun _ _ => rfl) h m.s e.c.g
  · rfl

theorem fileOf_simRegs (e : Exe) (m : Sim) (f : GalRegs → GalRegs) : fileOf e (simRegs e m f) = fileOf e m :=
  galOf_modGal_keeps stationFile (f := fun x => { x with regs := f x.regs }) (fun _ => rfl) m.s e.c.g e.c.g

theorem stationFile_modCounters (s : State) (g : Nat) (f : CounterSet → CounterSet) (k : Nat) :
    stationFile (galOf (modCounters g f s) k) = stationFile (galOf s k) := by
  refine galOf_modGal_keeps stationFile (fun x => ?_) s g k
  split
  · rfl
  · rfl

theorem fileOf_countEvents (e : Exe) (j sats nans : Nat) (m : Sim) : fileOf e (countEvents e j sats nans m) = fileOf e m := by
  unfold countEvents
  split
  · rfl
  · exact stationFile_modCounters m.s e.c.g _ e.c.g

theorem stationFile_markWritten (owner space w v : Nat) (s : State) (k : Nat) :
    stationFile (galOf (markWritten owner space w v s) k) = stationFile (galOf s k) :=
  galOf_modGal_keeps stationFile (f := fun x => { x with work := { x.work with written := smSet 0 (writtenKey space w) v x.work.written } })
    (fun _ => rfl) s owner k

/-! ### Transform and Multiply -/

/-- No injection is armed for a target of the step. -/
def NoInjection (e : Exe) (m : Sim) : Prop := ∀ t < 4, injectHit e m t = .none

theorem doTransform_clean {e : Exe} {cyc b : Nat} {f : Flight} {m : Sim} (hb : cxBlk e.c f.k slX = some b)
    (hent : SoundEntry (cxEntry e.c f.k)) (hinj : injectHit e m 3 = .none) (htw : ∀ j, e.tw j < (cxEntry e.c f.k).q)
    (hws : ∀ w ∈ f.ws, w < (cxEntry e.c f.k).q) :
    (∀ w ∈ (doTransform e cyc f m).1.ws, w < (cxEntry e.c f.k).q) ∧ (doTransform e cyc f m).1.b = f.b ∧
      SignedFrom m (doTransform e cyc f m).2 := by
  obtain ⟨hbelow, hfault⟩ := transformPass_clean hent htw b (cxVal e.c f.k slX true (xfGgen b)) hws
  unfold doTransform
  rw [hb]
  dsimp only
  rw [hinj, hfault]
  exact ⟨hbelow, rfl, signed_signBoth ..⟩

theorem modularMul_exact {ent : ModEnt} (hent : SoundEntry ent) {a b : List Nat} (hla : a.length = 256) (hlb : b.length = 256)
    (ha : ∀ w ∈ a, w < ent.q) (hb : ∀ w ∈ b, w < ent.q) :
    modularMul false ent a b = (List.zipWith (fun x y => x * y % ent.q) a b, .none) := by
  have hrs : List.zipWith (fun x y => if false = true then wideMul x y else barrett ent x y) a b =
      List.zipWith (fun x y => ({ val := x * y % ent.q, cause := .none } : MulRes)) a b := by
    refine List.ext_getElem (by simp) (fun i h1 h2 => ?_)
    rw [List.getElem_zipWith, List.getElem_zipWith, if_neg Bool.false_ne_true]
    exact barrett_exact hent (ha _ (List.getElem_mem _)) (hb _ (List.getElem_mem _))
  have hgood : ∀ l, ((List.zipWith (fun x y => ({ val := x * y % ent.q, cause := .none } : MulRes)) a b).getD l { val := 0, cause := .none }).cause
      = .none := fun l => by
    rw [List.getD_eq_getElem?_getD, List.getElem?_zipWith]
    cases a[l]? with
    | none => rfl
    | some x =>
      cases b[l]? with
      | none => rfl
      | some y => rfl
  have hbad : (List.range 256).filter (fun l =>
      (((List.zipWith (fun x y => ({ val := x * y % ent.q, cause := .none } : MulRes)) a b).getD l { val := 0, cause := .none }).cause).isSome) = [] :=
    List.filter_eq_nil_iff.2 fun l _ => by rw [hgood l]; exact Bool.false_ne_true
  unfold modularMul
  dsimp only
  rw [hrs, hbad, List.map_zipWith]

theorem doMultiply_modular {e : Exe} {cyc b : Nat} {f : Flight} {m : Sim} (hb : cxBlk e.c f.k slM = some b) (hmod : cxModular e.c = true)
    (hwide : mulWide b = false) (hent : SoundEntry (cxEntry e.c f.k)) (hinj : ∀ t < 3, injectHit e m t = .none)
    (hla : f.ws.length = 256) (hlb : f.b.length = 256) (hws : ∀ w ∈ f.ws, w < (cxEntry e.c f.k).q) (hwb : ∀ w ∈ f.b, w < (cxEntry e.c f.k).q) :
    (doMultiply e cyc f m).1.ws = List.zipWith (fun x y => x * y % (cxEntry e.c f.k).q) f.ws f.b ∧ SignedFrom m (doMultiply e cyc f m).2 := by
  unfold doMultiply
  rw [hb]
  dsimp only
  rw [if_pos hmod, hwide, modularMul_exact hent hla hlb hws hwb]
  have hnone : (([0, 1, 2].filter (fun t => !(false && decide (0 < t)))).findSome? (fun t =>
      (injectHit e m t).map (fun l => (t + 1, l)))) = .none := by
    refine List.findSome?_eq_none_iff.2 fun t ht => ?_
    have hlt : t < 3 := by
      have hmem := (List.mem_filter.1 ht).1
      simp only [List.mem_cons, List.not_mem_nil, or_false] at hmem
      omega
    rw [hinj t hlt]
    rfl
  rw [hnone]
  exact ⟨rfl, signed_signWords ..⟩

theorem getD_zipWith_full {f : Nat → Nat → Nat} {a b : List Nat} (hla : a.length = 256) (hlb : b.length = 256) {l : Nat} (hl : l < 256) :
    (List.zipWith f a b).getD l 0 = f (a.getD l 0) (b.getD l 0) := by
  have hz : l < (List.zipWith f a b).length := by rw [List.length_zipWith]; omega
  rw [List.getD_eq_getElem _ _ hz, List.getD_eq_getElem _ _ (by omega), List.getD_eq_getElem _ _ (by omega), List.getElem_zipWith]

/-- The exact sum of a column is that of its products. -/
theorem dotRange_eq_sum (fa fb : Nat) (a w : List Nat) (n : Nat) : dotRange fa fb a w 0 n =
    ((List.range n).map (fun i => depthElem fa a i * depthElem fb w i)).foldl (· + ·) 0 := by
  rw [dotRange, List.foldl_map]
  congr 1
  funext acc i
  rw [Nat.zero_add]

theorem getD_lanes_map (f : Nat → Nat) {l : Nat} (hl : l < 256) : (lanes.map f).getD l 0 = f l := by
  rw [List.getD_eq_getElem _ _ (by simpa [lanes] using hl), List.getElem_map]
  simp [lanes]

theorem doMultiply_narrow {e : Exe} {cyc b : Nat} {f : Flight} {m : Sim} (hb : cxBlk e.c f.k slM = some b) (hmod : cxModular e.c = false)
    (hpair : pairScaled (mulFmtA b) (mulFmtB b) = false) :
    (doMultiply e cyc f m).1.fp = false ∧ ∀ l < 256, BitVec.ofNat 32 ((doMultiply e cyc f m).1.ws.getD l 0) =
      BitVec.ofInt 32 (dotRange (mulFmtA b) (mulFmtB b) f.ws (planeColumn (planeArray
        (if cxVal e.c f.k slM false (mulCpGen b) % 2 = 0 then (galX e m).work.plane0 else (galX e m).work.plane1)) l) 0
        (narrowDepth (mulFmtA b))) := by
  have hws : (doMultiply e cyc f m).1.ws = (narrowMul (mulFmtA b) (mulFmtB b) (mulAscale b) f.ws
      (if cxVal e.c f.k slM false (mulCpGen b) % 2 = 0 then (galX e m).work.plane0 else (galX e m).work.plane1)).map (fun r => r.w.toNat) ∧
      (doMultiply e cyc f m).1.fp = pairScaled (mulFmtA b) (mulFmtB b) := by
    unfold doMultiply
    rw [hb]
    dsimp only
    rw [if_neg (by rw [hmod]; exact Bool.false_ne_true)]
    exact ⟨rfl, rfl⟩
  refine ⟨hws.2.trans hpair, fun l hl => ?_⟩
  rw [hws.1, narrowMul]
  dsimp only
  rw [hpair, List.map_map, getD_lanes_map _ hl]
  exact (BitVec.ofNat_toNat 32 _).trans (BitVec.setWidth_eq _)

/-! ### Accumulate -/

theorem accRow_of_file {e : Exe} {m m' : Sim} (h : fileOf e m' = fileOf e m) (modular : Bool) (row : Nat) :
    accRow (galX e m').work modular row = accRow (galX e m).work modular row := by
  unfold accRow
  rw [show (galX e m').work.accM = (galX e m).work.accM from (congrArg (·.1) h :),
    show (galX e m').work.accN = (galX e m).work.accN from (congrArg (·.2.1) h :)]

theorem otherView_of_file {e : Exe} {m m' : Sim} (h : fileOf e m' = fileOf e m) (modular : Bool) (row : Nat) :
    otherView (galX e m').work modular row = otherView (galX e m).work modular row := by
  unfold otherView
  rw [show (galX e m').work.accView = (galX e m).work.accView from (congrArg (·.2.2.1) h :)]

theorem rowHeld_own {e : Exe} {row : Nat} {m : Sim} (h : otherView (galX e m).work (cxModular e.c) row = false) :
    rowHeld e row m = (accRow (galX e m).work (cxModular e.c) row, m) := by
  unfold rowHeld
  dsimp only
  rw [h, if_neg Bool.false_ne_true]

theorem readAcc_own {e : Exe} {row : Nat} (cyc unit : Nat) {m : Sim} (h : otherView (galX e m).work (cxModular e.c) row = false) :
    (readAcc e row cyc unit m).1 = accRow (galX e m).work (cxModular e.c) row ∧ fileOf e (readAcc e row cyc unit m).2 = fileOf e m := by
  unfold readAcc
  dsimp only
  split
  · have hfile := fileOf_simHz e (aloneHz e 4 cyc unit row 1 e.c.g) m
    rw [rowHeld_own ((otherView_of_file hfile _ _).trans h)]
    exact ⟨accRow_of_file hfile _ _, hfile⟩
  · rw [rowHeld_own h]
    exact ⟨rfl, rfl⟩

theorem foldOf_parts (e : Exe) (k : Nat) (m : Sim) : fileOf e (foldOf e k m).2 = fileOf e m ∧
    ((imgModEnt e.c.rd (cxModTab e.c) (cxLimb e.c k)).isSome = true → (foldOf e k m).1 = (cxEntry e.c k).fold) := by
  unfold foldOf cxEntry
  split
  · next x hx => exact ⟨rfl, fun _ => by rw [hx]; rfl⟩
  · next hx =>
    refine ⟨?_, fun h => by rw [hx] at h; exact nomatch h⟩
    split
    · rfl
    · rfl

/-- The row of a view once words of its width are written to it. -/
theorem accRow_writeAcc (modular : Bool) (row : Nat) (ws : List Nat) (w : Work) (hlen : ws.length = 256)
    (hws : ∀ v ∈ ws, v < if modular then 2 ^ 64 else 2 ^ 32) : accRow (writeAcc modular row ws w) modular row = ws := by
  have hback : ∀ n, (∀ v ∈ ws, v < 2 ^ n) → ∀ mem : SMem (BitVec n),
      (smRead 0 (256 * row) 256 (smPut 0 (256 * row) (ws.map (BitVec.ofNat n)) mem)).map (·.toNat) = ws := fun n hn mem => by
    have hread := smRead_smPut 0 (256 * row) (ws.map (BitVec.ofNat n)) mem
    rw [List.length_map, hlen] at hread
    rw [hread, List.map_map]
    refine (List.map_congr_left fun v hv => ?_).trans (List.map_id ws)
    exact (BitVec.toNat_ofNat v n).trans (Nat.mod_eq_of_lt (hn v hv))
  unfold accRow writeAcc
  cases modular with
  | true => exact hback 64 hws _
  | false => exact hback 32 hws _

/-- What leaves Accumulate before it is cut to the row's width: the word set, or the updated row. -/
def accFormed (e : Exe) (b : Nat) (f : Flight) (fold : Nat) (old : List Nat) : List Nat :=
  if accFlag b then (List.zipWith (accLane (cxModular e.c) f.fp (accWrap b) fold) old f.ws).map (·.1) else f.ws

/-- A word set cut to the width of a row. -/
def rowCut (modular : Bool) (ws : List Nat) : List Nat := if modular then ws.map (· % 2 ^ 64) else ws.map (· % 2 ^ 32)

theorem fileOf_simWork (e : Exe) (f : Work → Work) (hg : e.c.g < 32) (m : Sim) : (galX e (simWork e m f)).work = f (galX e m).work := by
  have h := galOf_modGal_same m.s e.c.g (fun x => { x with work := f x.work }) hg
  exact (congrArg Gallery.work h :)

theorem fileOf_written (e : Exe) (p : Bool) (l : List Nat) (m : Sim) :
    fileOf e (if p then simS m (fun s => l.foldl (fun x h => markWritten e.c.g 1 h 1 x) s) else m) = fileOf e m := by
  split
  · exact foldl_keeps (fun s => stationFile (galOf s e.c.g)) _ (fun x h => stationFile_markWritten e.c.g 1 h 1 x e.c.g) l m.s
  · rfl

/-- What the update of Accumulate reads and forms, with the file as it was. -/
def accUpdate (e : Exe) (cyc b row : Nat) (f : Flight) (m : Sim) : List Nat × List Nat × Sim :=
  let r := if accFlag b then readAcc e row cyc (unitOfSet f.k 2) m else rowHeld e row m
  if accFlag b then
    let q := foldOf e f.k r.2
    let rs := List.zipWith (accLane (cxModular e.c) f.fp (accWrap b) q.1) r.1 f.ws
    (r.1, rs.map (·.1), countEvents e (accSatc b) (rs.filter (fun x => x.2.1)).length (rs.filter (fun x => x.2.2)).length q.2)
  else (r.1, f.ws, r.2)

theorem accUpdate_parts {e : Exe} {cyc b row : Nat} {f : Flight} {m : Sim} (h : otherView (galX e m).work (cxModular e.c) row = false) :
    fileOf e (accUpdate e cyc b row f m).2.2 = fileOf e m ∧
      ∃ fold, ((imgModEnt e.c.rd (cxModTab e.c) (cxLimb e.c f.k)).isSome = true → fold = (cxEntry e.c f.k).fold) ∧
        (accUpdate e cyc b row f m).2.1 = accFormed e b f fold (accRow (galX e m).work (cxModular e.c) row) := by
  unfold accUpdate accFormed
  by_cases hflag : accFlag b = true
  · obtain ⟨hold, hfile⟩ := readAcc_own cyc (unitOfSet f.k 2) h
    obtain ⟨hfoldFile, hfold⟩ := foldOf_parts e f.k (readAcc e row cyc (unitOfSet f.k 2) m).2
    dsimp only
    rw [if_pos hflag, if_pos hflag]
    refine ⟨(fileOf_countEvents ..).trans (hfoldFile.trans hfile), _, hfold, ?_⟩
    rw [if_pos hflag, hold]
  · dsimp only
    rw [if_neg hflag, if_neg hflag, rowHeld_own h]
    exact ⟨rfl, (cxEntry e.c f.k).fold, fun _ => rfl, (if_neg hflag).symm⟩

theorem doAccumulate_eq {e : Exe} {cyc b : Nat} {f : Flight} {m : Sim} (hb : cxBlk e.c f.k slC = some b) :
    let row := (cxVal e.c f.k slC true (accRowGen b)).toNat
    let u := accUpdate e cyc b row f m
    let ws := rowCut (cxModular e.c) u.2.1
    ∃ was, doAccumulate e cyc f m = ({ f with ws := ws },
      signAcc e (cyc + 2) { f with ws := ws }
        { (if e.watch then simS (simWork e u.2.2 (writeAcc (cxModular e.c) row ws))
              (fun s => (accHalves (cxModular e.c) row).foldl (fun x h => markWritten e.c.g 1 h 1 x) s)
            else simWork e u.2.2 (writeAcc (cxModular e.c) row ws)) with accOld := was }) := by
  intro row u ws
  unfold doAccumulate
  rw [hb]
  cases hflag : accFlag b with
  | true =>
    simp only [ws, u, row, accUpdate, hflag, if_true]
    exact ⟨_, rfl⟩
  | false =>
    simp only [ws, u, row, accUpdate, hflag, if_false, Bool.false_eq_true]
    exact ⟨_, rfl⟩

theorem accRow_length (w : Work) (modular : Bool) (row : Nat) : (accRow w modular row).length = 256 := by
  unfold accRow
  split
  · rw [List.length_map, smRead_length]
  · rw [List.length_map, smRead_length]

theorem accFormed_length (e : Exe) (b : Nat) (f : Flight) (fold : Nat) (old : List Nat) (hlen : f.ws.length = 256) (hold : old.length = 256) :
    (accFormed e b f fold old).length = 256 := by
  unfold accFormed
  split
  · rw [List.length_map, List.length_zipWith, hlen, hold]
    rfl
  · exact hlen

theorem rowCut_length (modular : Bool) (ws : List Nat) : (rowCut modular ws).length = ws.length := by
  unfold rowCut
  split
  · exact List.length_map ..
  · exact List.length_map ..

theorem rowCut_below (modular : Bool) (ws : List Nat) : ∀ v ∈ rowCut modular ws, v < if modular then 2 ^ 64 else 2 ^ 32 := fun v hv => by
  cases modular with
  | true =>
    obtain ⟨x, -, rfl⟩ := List.mem_map.1 hv
    exact Nat.mod_lt _ (Nat.two_pow_pos 64)
  | false =>
    obtain ⟨x, -, rfl⟩ := List.mem_map.1 hv
    exact Nat.mod_lt _ (Nat.two_pow_pos 32)

theorem rowCut_getD (modular : Bool) (ws : List Nat) (l : Nat) :
    (rowCut modular ws).getD l 0 = ws.getD l 0 % if modular then 2 ^ 64 else 2 ^ 32 := by
  have hmap : ∀ n : Nat, (ws.map (· % n)).getD l 0 = ws.getD l 0 % n := fun n => by
    rw [List.getD_eq_getElem?_getD, List.getElem?_map, List.getD_eq_getElem?_getD]
    cases ws[l]? with
    | none => exact (Nat.zero_mod n).symm
    | some v => rfl
  unfold rowCut
  split
  · exact hmap _
  · exact hmap _

/-- What leaves Accumulate stands in the row. -/
theorem doAccumulate_row {e : Exe} {cyc b : Nat} {f : Flight} {m : Sim} (hg : e.c.g < 32) (hb : cxBlk e.c f.k slC = some b)
    (hlen : f.ws.length = 256)
    (hview : otherView (galX e m).work (cxModular e.c) (cxVal e.c f.k slC true (accRowGen b)).toNat = false) :
    (doAccumulate e cyc f m).1.ws =
      accRow (galX e (doAccumulate e cyc f m).2).work (cxModular e.c) (cxVal e.c f.k slC true (accRowGen b)).toNat ∧
    ∃ fold, ((imgModEnt e.c.rd (cxModTab e.c) (cxLimb e.c f.k)).isSome = true → fold = (cxEntry e.c f.k).fold) ∧
      (doAccumulate e cyc f m).1.ws = rowCut (cxModular e.c)
        (accFormed e b f fold (accRow (galX e m).work (cxModular e.c) (cxVal e.c f.k slC true (accRowGen b)).toNat)) := by
  obtain ⟨was, hdo⟩ := doAccumulate_eq (cyc := cyc) (m := m) hb
  obtain ⟨hfile, fold, hfold, hformed⟩ := accUpdate_parts (cyc := cyc) (b := b) (f := f) hview
  generalize (cxVal e.c f.k slC true (accRowGen b)).toNat = row at *
  rw [hdo, hformed]
  refine ⟨?_, fold, hfold, rfl⟩
  generalize haf : accFormed e b f fold (accRow (galX e m).work (cxModular e.c) row) = formed at *
  have hformedLen : formed.length = 256 := haf ▸ accFormed_length e b f fold _ hlen (accRow_length ..)
  have hwritten := fileOf_written e e.watch (accHalves (cxModular e.c) row)
    (simWork e (accUpdate e cyc b row f m).2.2 (writeAcc (cxModular e.c) row (rowCut (cxModular e.c) formed)))
  rw [(signed_signAcc ..).galX]
  refine ((accRow_of_file hwritten (cxModular e.c) row).trans ?_).symm
  rw [fileOf_simWork e _ hg]
  exact accRow_writeAcc _ _ _ _ ((rowCut_length ..).trans hformedLen) (rowCut_below _ _)

/-- A lane that an update forms. -/
theorem accFormed_lane {e : Exe} {b : Nat} {f : Flight} {fold : Nat} {old : List Nat} (hflag : accFlag b = true) (hlen : f.ws.length = 256)
    (hold : old.length = 256) {l : Nat} (hl : l < 256) :
    (accFormed e b f fold old).getD l 0 = (accLane (cxModular e.c) f.fp (accWrap b) fold (old.getD l 0) (f.ws.getD l 0)).1 := by
  unfold accFormed
  rw [if_pos hflag, List.map_zipWith, List.getD_eq_getElem _ _ (by rw [List.length_zipWith]; omega), List.getElem_zipWith,
    List.getD_eq_getElem _ _ (by omega), List.getD_eq_getElem _ _ (by omega)]

/-- A lazy addition stays below 2^63 and is congruent to the sum (05 R105). -/
theorem lazyAdd_residue {q s v : Nat} (hq : q < 2 ^ 31) (hqpos : 0 < q) (hs : s < 2 ^ 63) (hv : v < 2 ^ 62) :
    lazyAdd (2 ^ 63 % q) s v < 2 ^ 63 ∧ lazyAdd (2 ^ 63 % q) s v % q = (s + v) % q := by
  have hfold : 2 ^ 63 % q < q := Nat.mod_lt _ hqpos
  have hsum : (s + v) % 2 ^ 64 = s + v := Nat.mod_eq_of_lt (by omega)
  unfold lazyAdd
  dsimp only
  rw [hsum]
  split
  · next hbig =>
    rw [Nat.mod_eq_of_lt (by omega)]
    refine ⟨by omega, ?_⟩
    have hsplit : s + v = (s + v - 2 ^ 63) + 2 ^ 63 := by omega
    conv_rhs => rw [hsplit]
    rw [Nat.add_mod, Nat.mod_mod, ← Nat.add_mod]
  · exact ⟨by omega, rfl⟩

/-- A narrow lane's update: wrapped to 32 bits, or clamped (08 R169). -/
theorem accLane_narrow (wrap : Bool) (fold old v : Nat) :
    BitVec.ofNat 32 ((accLane false false wrap fold old v).1 % 2 ^ 32) = BitVec.ofInt 32
      (if wrap then (BitVec.ofNat 32 old).toInt + (BitVec.ofNat 32 v).toInt
       else max (-2 ^ 31) (min (2 ^ 31 - 1) ((BitVec.ofNat 32 old).toInt + (BitVec.ofNat 32 v).toInt))) := by
  have hback : ∀ x : Int, BitVec.ofNat 32 (m32 x % 2 ^ 32) = BitVec.ofInt 32 x := fun x => by
    rw [m32, Nat.mod_eq_of_lt (BitVec.isLt _), BitVec.ofNat_toNat, BitVec.setWidth_eq]
  unfold accLane
  cases wrap with
  | true => exact hback _
  | false => exact hback _

/-! ### Vector -/

/-- The second and third operands of a block whose first is the word set. -/
def vecSecond (e : Exe) (b cyc : Nat) (f : Flight) (m : Sim) : List Nat × Nat × Sim := vecOperand e b f cyc (vecY b) 0 m
def vecThird (e : Exe) (b cyc : Nat) (f : Flight) (m : Sim) : List Nat × Nat × Sim :=
  vecOperand e b f cyc (vecZ b) (vecSecond e b cyc f m).2.1 (vecSecond e b cyc f m).2.2

/-- A lane of a simple operation. -/
def vecLaneOf (e : Exe) (b cyc : Nat) (f : Flight) (m : Sim) (l : Nat) : VRes :=
  if laneValid e.c f.k b l then
    vecLane (vecOp b) (cxEntry e.c f.k) (vecNegexp b) (vecM1 b) (vecImm b) (imgSeed e.c.rd (vecSeed b)) (lowWords (vecThird e b cyc f m).1)
      ((lowWords (vecSecond e b cyc f m).1).getD 0 0) (laneLidx e.c f.k b l) (f.ws.getD l 0) ((lowWords (vecSecond e b cyc f m).1).getD l 0)
      ((lowWords (vecThird e b cyc f m).1).getD l 0)
  else vres 0

theorem getD_toArray {α : Type} (xs : List α) (i : Nat) (d : α) : xs.toArray.getD i d = xs.getD i d := by
  rw [Array.getD_eq_getD_getElem?, List.getElem?_toArray, List.getD_eq_getElem?_getD]

theorem doVector_simple {e : Exe} {cyc b : Nat} {f : Flight} (m : Sim) (hb : cxBlk e.c f.k slV = some b) (htr : vecTranspose b = false)
    (hx : vecX b = 0) (htap : isTap (vecOp b) = false) :
    (doVector e cyc f m).1.fp = vecIsFp b ∧ (doVector e cyc f m).1.valid = lanes.map (laneValid e.c f.k b) ∧
      (doVector e cyc f m).1.ws = lanes.map (fun l => (vecLaneOf e b cyc f m l).v) := by
  unfold doVector
  rw [hb]
  dsimp only
  rw [if_neg (by rw [htap]; exact Bool.false_ne_true), hx, htr]
  refine ⟨rfl, rfl, (List.map_map ..).trans (List.map_congr_left fun l hl => ?_)⟩
  have hl' : l < 256 := List.mem_range.1 hl
  have hvalid : (lanes.map (laneValid e.c f.k b)).toArray.getD l false = laneValid e.c f.k b l := by
    rw [getD_toArray, List.getD_eq_getElem _ _ (by simpa [lanes] using hl'), List.getElem_map]
    simp [lanes]
  rw [Function.comp_apply, hvalid, getD_toArray, getD_toArray, getD_toArray, getD_toArray]
  rfl

/-! ### Outlet -/

/-- A landing is sent on. -/
def sendLand (x : Sim) (l : Land) : Sim := { x with lands := x.lands ++ [l] }

theorem lands_sendAll (n : Nat) (D : Nat → Land) (m : Sim) :
    (foldRange n (fun q x => sendLand x (D q)) m).lands = m.lands ++ (List.range n).map D := by
  rw [foldRange]
  induction List.range n generalizing m with
  | nil => exact (List.append_nil _).symm
  | cons i l ih =>
    rw [List.foldl_cons, ih]
    exact (List.append_assoc ..).trans rfl

/-- The valid words of a plain store, by lane. -/
def plainWords (b : Nat) (f : Flight) : List (Nat × Nat × Bool) :=
  ((List.range (storeWords b)).filter (fun l => f.valid.getD l false)).map (fun l => (l, f.ws.getD l 0 % 2 ^ 32, false))

theorem outWords_plain {e : Exe} {b : Nat} {f : Flight} {m : Sim} (h : outNarrows b = false) : outWords e b f m = (plainWords b f, m) := by
  unfold outWords plainWords
  rw [h]
  simp only [getD_toArray]
  rfl

/-- The words of a store with their addresses. -/
def storeAt (e : Exe) (k b : Nat) (ws : List (Nat × Nat × Bool)) : List (Nat × Nat × Nat × Bool) :=
  ws.filterMap (fun x => (cxStoreAddr e.c k b x.1).bind (fun pa => if x.2.2 && !inExtent e.c b pa then .none else some (x.1, pa, x.2.1, x.2.2)))

/-- The number of landings of a store to cabinets. -/
def outletParts (e : Exe) (b : Nat) : Nat := blockParts e.c (outShape b) (outRate e.c b)

/-- The landing of part `q` of a store to cabinets. -/
def outletLand (e : Exe) (cyc b k : Nat) (ws : List (Nat × Nat × Bool)) (q : Nat) : Land :=
  let at_ := storeAt e k b ws
  let mine := at_.filter (fun x => x.1 / (256 / outletParts e b) == q)
  { cycle := cyc + (if outDest b = 1 then relOf e.c.per e.c.g (outDgal b) else 3) + q, dest := .cab (outDgal b) false,
    words := mine.map (fun x => (x.2.1, x.2.2.1)), pads := mine.filterMap (fun x => if x.2.2.2 then some x.2.1 else .none), k := k,
    last := false,
    sig := if q + 1 = outletParts e b then
        some (outDest b % 16 + 16 * outDrgn b + 1024 * (at_.headD (0, 0, 0, false)).2.1, lanesOf (ws.map (fun w => (w.1, w.2.1))))
      else .none }

/-- A padding word without a place in its extent is noted. -/
def outletNoted (e : Exe) (cyc b : Nat) (f : Flight) (ws : List (Nat × Nat × Bool)) (m : Sim) : Sim :=
  match ws.find? (fun x => x.2.2 && (match cxStoreAddr e.c f.k b x.1 with | some pa => !inExtent e.c b pa | .none => true)) with
  | some (i, _) => simHz e (aloneHz e 5 cyc (unitOfSet f.k 4) ((cxStoreAddr e.c f.k b i).getD 0) 0 (outDgal b)) m
  | .none => m

theorem lands_simHz (e : Exe) (h : Hz) (m : Sim) : (simHz e h m).lands = m.lands := by
  unfold simHz
  split
  · rfl
  · rfl

theorem lands_outletNoted (e : Exe) (cyc b : Nat) (f : Flight) (ws : List (Nat × Nat × Bool)) (m : Sim) :
    (outletNoted e cyc b f ws m).lands = m.lands := by
  unfold outletNoted
  split
  · exact lands_simHz ..
  · rfl

theorem doOutlet_stores {e : Exe} {cyc b : Nat} {f : Flight} (m : Sim) (hb : cxBlk e.c f.k slO = some b) (hst : storesCab b = true) :
    ∃ rest : List Land, (doOutlet e cyc f m).lands = (outWords e b f m).2.lands ++
      (List.range (outletParts e b)).map (outletLand e cyc b f.k (outWords e b f m).1) ++ rest := by
  have hnoted : (outletNoted e cyc b f (outWords e b f m).1 (signWords e 5 (cyc + 3) false
      (lanesOf ((outWords e b f m).1.map (fun w => (w.1, w.2.1)))) (outWords e b f m).2)).lands = (outWords e b f m).2.lands :=
    (lands_outletNoted ..).trans (signed_signWords ..).lands
  have hlands := lands_sendAll (outletParts e b) (outletLand e cyc b f.k (outWords e b f m).1) (outletNoted e cyc b f (outWords e b f m).1
    (signWords e 5 (cyc + 3) false (lanesOf ((outWords e b f m).1.map (fun w => (w.1, w.2.1)))) (outWords e b f m).2))
  rw [hnoted] at hlands
  unfold doOutlet
  rw [hb]
  dsimp only
  rw [if_pos hst]
  generalize hsent : foldRange _ _ _ = sent
  have hall : sent.lands = (outWords e b f m).2.lands ++ (List.range (outletParts e b)).map (outletLand e cyc b f.k (outWords e b f m).1) :=
    (congrArg (fun x : Sim => x.lands) hsent).symm.trans hlands
  rw [← hall]
  split
  · split
    · exact ⟨_, rfl⟩
    · exact ⟨[], (List.append_nil _).symm⟩
  · split
    · exact ⟨_, rfl⟩
    · split
      · exact ⟨_, rfl⟩
      · exact ⟨[], (List.append_nil _).symm⟩

/-- A valid word of a plain store is sent to its address. -/
theorem doOutlet_word {e : Exe} {cyc b : Nat} {f : Flight} (m : Sim) (hb : cxBlk e.c f.k slO = some b) (hst : storesCab b = true)
    (hplain : outNarrows b = false) {l pa : Nat} (hl : l ≤ outLanes b) (hl' : l < 256) (hvalid : f.valid.getD l false = true)
    (hpa : cxStoreAddr e.c f.k b l = some pa) :
    ∃ d ∈ (doOutlet e cyc f m).lands, d.dest = .cab (outDgal b) false ∧ (pa, f.ws.getD l 0 % 2 ^ 32) ∈ d.words ∧
      cyc + (if outDest b = 1 then relOf e.c.per e.c.g (outDgal b) else 3) ≤ d.cycle := by
  obtain ⟨rest, hlands⟩ := doOutlet_stores (cyc := cyc) m hb hst
  rw [outWords_plain hplain] at hlands
  have hword : (l, f.ws.getD l 0 % 2 ^ 32, false) ∈ plainWords b f :=
    List.mem_map.2 ⟨l, List.mem_filter.2 ⟨List.mem_range.2 (by rw [storeWords, hplain]; simp only [Bool.false_eq_true, if_false]; omega), hvalid⟩, rfl⟩
  have hat : (l, pa, f.ws.getD l 0 % 2 ^ 32, false) ∈ storeAt e f.k b (plainWords b f) :=
    List.mem_filterMap.2 ⟨_, hword, by rw [hpa]; rfl⟩
  have hpart : l / (256 / outletParts e b) < outletParts e b := by
    have hparts : outletParts e b = 1 ∨ outletParts e b = 4 ∨ outletParts e b = 16 := by
      unfold outletParts blockParts
      split
      · split
        · exact .inr (.inl rfl)
        · exact .inr (.inr rfl)
      · exact .inl rfl
    rcases hparts with h | h | h
    · rw [h]; omega
    · rw [h]; omega
    · rw [h]; omega
  refine ⟨outletLand e cyc b f.k (plainWords b f) (l / (256 / outletParts e b)), ?_, rfl, ?_, Nat.le_add_right ..⟩
  · rw [hlands]
    exact List.mem_append_left _ (List.mem_append_right _ (List.mem_map.2 ⟨_, List.mem_range.2 hpart, rfl⟩))
  · exact List.mem_map.2 ⟨_, List.mem_filter.2 ⟨hat, beq_self_eq_true _⟩, rfl⟩

/-! ### Write-backs -/

/-- What a write-back puts into its tile register. -/
def backCells (w : WBack) : List Word := List.zipWith (fun v ok => BitVec.ofNat 32 (if ok then v else 0)) w.ws w.valid

theorem doWriteBack_tile {e : Exe} {w : WBack} {m : Sim} (hg : e.c.g < 32) (hacc : vecRacc w.b = false) (hwb : vecWb w.b = 1) :
    (galX e (doWriteBack e w m)).work.tiles =
      smPut 0 (256 * (cxVal e.c w.k slV false (vecWbGen w.b)).toNat) (backCells w) (galX e m).work.tiles ∧
    (galX e (doWriteBack e w m)).work.accM = (galX e m).work.accM ∧ (galX e (doWriteBack e w m)).work.accN = (galX e m).work.accN := by
  have hregs := fileOf_simRegs e m (fun r => { r with stateClear := false })
  generalize hm₁ : simRegs e m (fun r => { r with stateClear := false }) = m₁ at hregs
  generalize hi : (cxVal e.c w.k slV false (vecWbGen w.b)).toNat = i
  have hmark : fileOf e (if e.watch then simS m₁ (fun s => markWritten e.c.g 2 i 1 s) else m₁) = fileOf e m₁ := by
    split
    · exact stationFile_markWritten e.c.g 2 i 1 m₁.s e.c.g
    · rfl
  have hfile := hmark.trans hregs
  have hdo : doWriteBack e w m = simWork e (if e.watch then simS m₁ (fun s => markWritten e.c.g 2 i 1 s) else m₁)
      (fun x => { x with tiles := smPut 0 (256 * i) (backCells w) x.tiles }) := by
    unfold doWriteBack
    rw [hacc, hwb, hm₁, hi]
    rfl
  rw [hdo, fileOf_simWork e _ hg]
  exact ⟨congrArg (smPut 0 (256 * i) (backCells w)) (congrArg (·.2.2.2) hfile :), (congrArg (·.1) hfile :), (congrArg (·.2.1) hfile :)⟩

theorem tileReg_put_same (w : Work) (i : Nat) (cells : List Word) (h : cells.length = 256) :
    tileReg { w with tiles := smPut 0 (256 * i) cells w.tiles } i = cells.map (·.toNat) := by
  have hread := smRead_smPut 0 (256 * i) cells w.tiles
  rw [h] at hread
  exact congrArg (List.map BitVec.toNat) hread

theorem tileReg_put_other (w : Work) (i j : Nat) (cells : List Word) (h : cells.length = 256) (hj : j ≠ i) :
    tileReg { w with tiles := smPut 0 (256 * i) cells w.tiles } j = tileReg w j := by
  have hread : smRead 0 (256 * j) 256 (smPut 0 (256 * i) cells w.tiles) = smRead 0 (256 * j) 256 w.tiles := by
    refine List.ext_getElem (by rw [smRead_length, smRead_length]) (fun l h1 h2 => ?_)
    rw [smRead_length] at h2
    rw [smRead_get _ _ _ _ _ h2, smRead_get _ _ _ _ _ h2]
    exact smGet_smPut_out 0 _ _ _ _ (by omega)
  exact congrArg (List.map BitVec.toNat) hread

theorem backCells_getD {w : WBack} (hws : w.ws.length = 256) (hvalid : w.valid.length = 256) {l : Nat} (hl : l < 256) :
    ((backCells w).map (·.toNat)).getD l 0 = if w.valid.getD l false then w.ws.getD l 0 % 2 ^ 32 else 0 := by
  have hlen : (backCells w).length = 256 := by rw [backCells, List.length_zipWith, hws, hvalid]; rfl
  rw [List.getD_eq_getElem _ _ (by rw [List.length_map]; omega), List.getElem_map]
  simp only [backCells, List.getElem_zipWith]
  rw [List.getD_eq_getElem _ _ (by omega), List.getD_eq_getElem _ _ (by omega), BitVec.toNat_ofNat]
  split
  · rfl
  · rfl

/-! ### Landings -/

theorem isRun_getElem (a : Nat) (l : List Nat) (h : isRun (a :: l) = true) : ∀ i (hi : i < (a :: l).length), (a :: l)[i] = a + i := by
  induction l generalizing a with
  | nil =>
    intro i hi
    have h0 : i = 0 := by simpa using hi
    subst h0
    rfl
  | cons b l ih =>
    rw [isRun, Bool.and_eq_true, beq_iff_eq] at h
    intro i hi
    cases i with
    | zero => rfl
    | succ i =>
      rw [List.getElem_cons_succ, ih b h.2 i (by simpa using hi), h.1]
      omega

/-- The words of a cabinet once some are put. -/
def cabAfter (ws : List (Nat × Nat)) (c : SMem Word) : SMem Word :=
  match ws with
  | [] => c
  | (a, _) :: _ =>
    if isRun (ws.map (·.1)) then smPut 0 a (ws.map (fun w => BitVec.ofNat 32 w.2)) c
    else ws.foldl (fun c w => smSet 0 w.1 (BitVec.ofNat 32 w.2) c) c

theorem smGet_setAll (ws : List (Nat × Nat)) (c : SMem Word) (hc : SmWf 0 c) (hnd : (ws.map (·.1)).Nodup) :
    (∀ p ∈ ws, smGet 0 p.1 (ws.foldl (fun c w => smSet 0 w.1 (BitVec.ofNat 32 w.2) c) c) = BitVec.ofNat 32 p.2) ∧
      ∀ a, a ∉ ws.map (·.1) → smGet 0 a (ws.foldl (fun c w => smSet 0 w.1 (BitVec.ofNat 32 w.2) c) c) = smGet 0 a c := by
  induction ws generalizing c with
  | nil => exact ⟨fun p hp => absurd hp List.not_mem_nil, fun _ _ => rfl⟩
  | cons w ws ih =>
    rw [List.map_cons, List.nodup_cons] at hnd
    obtain ⟨hin, hout⟩ := ih (smSet 0 w.1 (BitVec.ofNat 32 w.2) c) (smSet_wf _ _ _ _ hc) hnd.2
    refine ⟨fun p hp => ?_, fun a ha => ?_⟩
    · rcases List.mem_cons.1 hp with rfl | hp
      · exact (hout p.1 hnd.1).trans (smGet_smSet_same 0 p.1 _ c hc)
      · exact hin p hp
    · rw [List.map_cons, List.mem_cons, not_or] at ha
      exact (hout a ha.2).trans (smGet_smSet_other 0 w.1 a _ c ha.1)

/-- Words that are put to distinct addresses stand there, and every other word stays. -/
theorem smGet_cabAfter (ws : List (Nat × Nat)) (c : SMem Word) (hc : SmWf 0 c) (hnd : (ws.map (·.1)).Nodup) :
    (∀ p ∈ ws, smGet 0 p.1 (cabAfter ws c) = BitVec.ofNat 32 p.2) ∧ ∀ a, a ∉ ws.map (·.1) → smGet 0 a (cabAfter ws c) = smGet 0 a c := by
  cases ws with
  | nil => exact ⟨fun p hp => absurd hp List.not_mem_nil, fun _ _ => rfl⟩
  | cons w ws =>
    by_cases hrun : isRun ((w :: ws).map (·.1)) = true
    · have hafter : cabAfter (w :: ws) c = smPut 0 w.1 ((w :: ws).map (fun x => BitVec.ofNat 32 x.2)) c := if_pos hrun
      have hat : ∀ i (hi : i < (w :: ws).length), ((w :: ws)[i]).1 = w.1 + i := fun i hi => by
        have h := isRun_getElem w.1 (ws.map (fun x : Nat × Nat => x.1)) hrun i (by simpa using hi)
        rw [← h]
        exact (List.getElem_map (f := fun x : Nat × Nat => x.1) (l := w :: ws) (h := by simpa using hi)).symm
      rw [hafter]
      refine ⟨fun p hp => ?_, fun a ha => ?_⟩
      · obtain ⟨i, hi, rfl⟩ := List.getElem_of_mem hp
        rw [hat i hi, smGet_smPut_in 0 w.1 i _ c (by rw [List.length_map]; exact hi), List.getElem_map]
      · refine smGet_smPut_out 0 w.1 a _ c ?_
        rw [List.length_map]
        by_contra hcon
        have hlt : a - w.1 < (w :: ws).length := by omega
        refine ha (List.mem_map.2 ⟨_, List.getElem_mem hlt, ?_⟩)
        rw [hat _ hlt]
        omega
    · have hafter : cabAfter (w :: ws) c = (w :: ws).foldl (fun c w => smSet 0 w.1 (BitVec.ofNat 32 w.2) c) c := if_neg hrun
      rw [hafter]
      exact smGet_setAll (w :: ws) c hc hnd

theorem cab_cabPut (owner : Nat) (ws : List (Nat × Nat)) (s : State) (g : Nat) (ho : owner < 32) :
    (galOf (cabPut owner ws s) g).cab = if g = owner then cabAfter ws (galOf s g).cab else (galOf s g).cab := by
  cases ws with
  | nil => split <;> rfl
  | cons w ws =>
    split
    · next h =>
      subst h
      exact congrArg Gallery.cab (galOf_modGal_same s g _ ho)
    · next h => exact congrArg Gallery.cab (galOf_modGal_other s owner g _ h)

/-- Noting and marking the words of a landing leave the words of every cabinet. -/
theorem cab_watchWrite (e : Exe) (owner cyc req unit : Nat) (pads pas good : List Nat) (s : State) (g : Nat) :
    (galOf (watchWrite e owner cyc req unit pads pas good s) g).cab = (galOf s g).cab := by
  have hnote : ∀ h x, (galOf (noteHz h x) g).cab = (galOf x g).cab := fun h x => proj_noteHz Gallery.cab (fun _ _ => rfl) h x g
  have hmark : ∀ w v x, (galOf (markWritten owner 0 w v x) g).cab = (galOf x g).cab := fun w v x =>
    galOf_modGal_keeps Gallery.cab (f := fun y => { y with work := { y.work with written := smSet 0 (writtenKey 0 w) v y.work.written } })
      (fun _ => rfl) x owner g
  have hown : (galOf (watchOwn e owner cyc req unit true pas s) g).cab = (galOf s g).cab := by
    refine foldl_keeps (fun x => (galOf x g).cab) _ (fun x u => ?_) _ s
    dsimp only
    split
    · split
      · exact (hnote _ _).trans (hnote _ _)
      · exact hnote _ _
    · split
      · exact hnote _ _
      · rfl
  unfold watchWrite
  refine (foldl_keeps (fun x => (galOf x g).cab) _ (fun x pa => ?_) good _).trans ?_
  · split
    · split
      · exact hmark _ _ _
      · rfl
    · exact hmark _ _ _
  · split
    · exact (hnote _ _).trans hown
    · exact hown

theorem nearUses_none {s : State} (h : s.useLog = []) (g owner X : Nat) : nearUses s g owner X = [] := by
  rw [nearUses, h]
  rfl

theorem ownUses_none {s : State} (h : s.useLog = []) (g owner X req : Nat) (w : Bool) : ownUses s g owner X req w = [] := by
  rw [ownUses, h]
  rfl

/-- A landing that meets no other use puts its words. -/
theorem cab_landWords (e : Exe) (owner req cyc unit : Nat) (pads : List Nat) (ws : List (Nat × Nat)) {m : Sim} (h : m.s.useLog = [])
    (ho : owner < 32) (g : Nat) : (galOf (landWords e owner req cyc unit pads ws m).s g).cab =
      if g = owner then cabAfter ws (galOf m.s g).cab else (galOf m.s g).cab := by
  unfold landWords
  dsimp only
  rw [nearUses_none h, ownUses_none h]
  refine (cab_cabPut owner ws _ g ho).trans ?_
  have hwatch : ∀ (p : Bool) pas good x, (galOf (if p then watchWrite e owner cyc req unit pads pas good x else x) g).cab = (galOf x g).cab :=
    fun p pas good x => by
      split
      · exact cab_watchWrite ..
      · rfl
  have hnoted : ∀ uses dropped x, (galOf (noteUse e owner (modCycle e cyc) req unit true uses dropped x) g).cab = (galOf x g).cab :=
    fun _ _ _ => rfl
  rw [hnoted, hwatch]
  rfl

/-- The regions that a fill covers change their states alone. -/
theorem cab_fillCovers (e : Exe) (s : State) (g : Nat) : (galOf (fillCovers e s) g).cab = (galOf s g).cab := by
  unfold fillCovers
  split
  · rfl
  · refine foldRange_keeps (fun x => (galOf x g).cab) 64 _ (fun j x => ?_) s
    dsimp only
    split
    · exact cab_modRgn_any ..
    · rfl

/-- A landing, signed. -/
def landSigned (e : Exe) (d : Land) (m : Sim) : Sim :=
  match d.sig with
  | some (head, set) => if e.sign then signBytes e 6 d.cycle (leBytes 8 head ++ set.flatMap (fun w => leBytes 4 w)) m else m
  | .none => m

theorem signed_landSigned (e : Exe) (d : Land) (m : Sim) : SignedFrom m (landSigned e d m) := by
  unfold landSigned
  split
  · split
    · exact signed_signBytes ..
    · exact .refl m
  · exact .refl m

/-- The words of a landing in a cabinet, put. -/
def landPut (e : Exe) (d : Land) (owner : Nat) (engine : Bool) (m : Sim) : Sim :=
  landWords e owner (if engine then 32 else requesterOf e.c.per e.c.g owner true) d.cycle (unitOfSet d.k (if engine then 5 else 4)) d.pads
    d.words (landSigned e d m)

theorem doLand_cab {e : Exe} {d : Land} {owner : Nat} {engine : Bool} (m : Sim) (hd : d.dest = .cab owner engine) :
    doLand e d m = if d.last then simS (landPut e d owner engine m) (fillCovers e) else landPut e d owner engine m := by
  unfold doLand
  rw [hd] <;> rfl

/-- The words of a landing that meets no other use stand in its cabinet. -/
theorem cab_doLand {e : Exe} {d : Land} {owner : Nat} {engine : Bool} {m : Sim} (hd : d.dest = .cab owner engine) (ho : owner < 32)
    (hlog : m.s.useLog = []) (g : Nat) : (galOf (doLand e d m).s g).cab =
      if g = owner then cabAfter d.words (galOf m.s g).cab else (galOf m.s g).cab := by
  have hland : (galOf (landPut e d owner engine m).s g).cab = if g = owner then cabAfter d.words (galOf m.s g).cab else (galOf m.s g).cab := by
    obtain ⟨f, hf⟩ := signed_landSigned e d m
    rw [landPut, hf]
    exact cab_landWords e owner _ d.cycle _ d.pads d.words (m := { m with s := { m.s with fab := f } }) hlog ho g
  rw [doLand_cab m hd]
  split
  · exact (cab_fillCovers e _ g).trans hland
  · exact hland

end Sys2Proof.Machine
end

section
/-!
PROOF. A tick with running steps (02 R25, R47; 03 R50 to R60): a word set under way goes on by itself, and the statement about the
stations of a running step.
-/

namespace Sys2Proof.Machine

/-! ### Write-backs wait for their cycle -/

@[simp] theorem wbacks_simHz (e : Exe) (h : Hz) (m : Sim) : (simHz e h m).wbacks = m.wbacks := by
  unfold simHz
  split
  · rfl
  · rfl

@[simp] theorem wbacks_countEvents (e : Exe) (j sats nans : Nat) (m : Sim) : (countEvents e j sats nans m).wbacks = m.wbacks := by
  unfold countEvents
  split
  · rfl
  · rfl

@[simp] theorem wbacks_signWords (e : Exe) (st cyc : Nat) (wide : Bool) (ws : List Nat) (m : Sim) :
    (signWords e st cyc wide ws m).wbacks = m.wbacks := (signed_signWords ..).wbacks

@[simp] theorem wbacks_signBoth (e : Exe) (st cyc : Nat) (wide : Bool) (f : Flight) (m : Sim) :
    (signBoth e st cyc wide f m).wbacks = m.wbacks := (signed_signBoth ..).wbacks

@[simp] theorem wbacks_signAcc (e : Exe) (cyc : Nat) (f : Flight) (m : Sim) : (signAcc e cyc f m).wbacks = m.wbacks :=
  (signed_signAcc ..).wbacks

@[simp] theorem wbacks_simRegs (e : Exe) (m : Sim) (f : GalRegs → GalRegs) : (simRegs e m f).wbacks = m.wbacks := rfl
@[simp] theorem wbacks_simWork (e : Exe) (m : Sim) (f : Work → Work) : (simWork e m f).wbacks = m.wbacks := rfl
@[simp] theorem wbacks_simS (m : Sim) (f : State → State) : (simS m f).wbacks = m.wbacks := rfl
@[simp] theorem wbacks_disarm (e : Exe) (m : Sim) : (disarm e m).wbacks = m.wbacks := rfl
@[simp] theorem wbacks_arithFault (m : Sim) (cyc station cause lane limb : Nat) : (arithFault m cyc station cause lane limb).wbacks = m.wbacks :=
  rfl

theorem wbacks_ite (p : Prop) [Decidable p] {x y : Sim} {l : List WBack} (hx : x.wbacks = l) (hy : y.wbacks = l) :
    (if p then x else y).wbacks = l := by
  split
  · exact hx
  · exact hy

theorem wbacks_doTransform (e : Exe) (cyc : Nat) (f : Flight) (m : Sim) : (doTransform e cyc f m).2.wbacks = m.wbacks := by
  unfold doTransform
  split
  · simp
  · dsimp only
    rw [wbacks_signBoth]
    split
    · exact wbacks_ite _ (wbacks_disarm e m) rfl
    · exact wbacks_ite _ (wbacks_disarm e m) rfl

theorem wbacks_doMultiply (e : Exe) (cyc : Nat) (f : Flight) (m : Sim) : (doMultiply e cyc f m).2.wbacks = m.wbacks := by
  unfold doMultiply
  split
  · simp
  · dsimp only
    split
    · dsimp only
      rw [wbacks_signWords]
      split
      · exact wbacks_ite _ (wbacks_disarm e m) rfl
      · exact wbacks_ite _ (wbacks_disarm e m) rfl
    · dsimp only
      rw [wbacks_signWords]
      refine wbacks_ite _ (wbacks_ite _ ?_ ?_) ?_
      · exact wbacks_ite _ (wbacks_countEvents ..) rfl
      · exact wbacks_ite _ (wbacks_countEvents ..) rfl
      · exact wbacks_ite _ (wbacks_countEvents ..) rfl

theorem wbacks_rowHeld (e : Exe) (row : Nat) (m : Sim) : (rowHeld e row m).2.wbacks = m.wbacks := by
  unfold rowHeld
  dsimp only
  split
  · rfl
  · rfl

theorem wbacks_readAcc (e : Exe) (row cyc unit : Nat) (m : Sim) : (readAcc e row cyc unit m).2.wbacks = m.wbacks := by
  unfold readAcc
  dsimp only
  rw [wbacks_rowHeld]
  exact wbacks_ite _ (wbacks_simHz ..) rfl

theorem wbacks_foldOf (e : Exe) (k : Nat) (m : Sim) : (foldOf e k m).2.wbacks = m.wbacks := by
  unfold foldOf
  split
  · rfl
  · split
    · rfl
    · rfl

theorem wbacks_accUpdate (e : Exe) (cyc b row : Nat) (f : Flight) (m : Sim) : (accUpdate e cyc b row f m).2.2.wbacks = m.wbacks := by
  unfold accUpdate
  dsimp only
  split
  · rw [wbacks_countEvents, wbacks_foldOf, wbacks_readAcc]
  · exact wbacks_rowHeld ..

theorem wbacks_watched (p : Bool) (m : Sim) (f : State → State) : (if p then simS m f else m).wbacks = m.wbacks := wbacks_ite _ rfl rfl

theorem wbacks_doAccumulate (e : Exe) (cyc : Nat) (f : Flight) (m : Sim) : (doAccumulate e cyc f m).2.wbacks = m.wbacks := by
  cases hb : cxBlk e.c f.k slC with
  | none =>
    unfold doAccumulate
    rw [hb]
    exact wbacks_signAcc ..
  | some b =>
    obtain ⟨was, hdo⟩ := doAccumulate_eq (cyc := cyc) (m := m) hb
    rw [hdo, wbacks_signAcc]
    exact (wbacks_watched e.watch _ _).trans (wbacks_accUpdate ..)

theorem wbacks_watchFresh (e : Exe) (space w cyc unit : Nat) (m : Sim) : (watchFresh e space w cyc unit m).wbacks = m.wbacks := by
  unfold watchFresh
  exact wbacks_ite _ (wbacks_simHz ..) rfl

theorem wbacks_peekAcc (e : Exe) (row cyc unit : Nat) (m : Sim) : (peekAcc e row cyc unit m).2.wbacks = m.wbacks := by
  unfold peekAcc
  split
  · exact wbacks_ite _ (wbacks_simHz ..) rfl
  · exact wbacks_readAcc ..

theorem wbacks_vecOperand (e : Exe) (b : Nat) (f : Flight) (cyc src tiles : Nat) (m : Sim) :
    (vecOperand e b f cyc src tiles m).2.2.wbacks = m.wbacks := by
  have hrows : ∀ (l : List Nat) (x : Sim), (l.foldl (fun x t => watchFresh e 3 t cyc (unitOfSet f.k 3) x) x).wbacks = x.wbacks := fun l => by
    induction l with
    | nil => exact fun x => rfl
    | cons t l ih => exact fun x => (ih _).trans (wbacks_watchFresh ..)
  unfold vecOperand
  dsimp only
  split
  · rfl
  · rfl
  · exact wbacks_peekAcc ..
  · exact wbacks_watchFresh ..
  · exact wbacks_watchFresh ..
  · exact (hrows _ _).trans (wbacks_ite _ (wbacks_simHz ..) rfl)
  · rfl
  · rfl

/-- Write-backs of a later cycle than `cyc`. -/
def LaterBacks (cyc : Nat) (m : Sim) : Prop := ∀ w ∈ m.wbacks, cyc < w.cycle

theorem laterBacks_append {cyc : Nat} {m m' : Sim} {w : WBack} (hm : LaterBacks cyc m) (hw : cyc < w.cycle) (h : m'.wbacks = m.wbacks ++ [w]) :
    LaterBacks cyc m' := fun x hx => by
  rw [h] at hx
  rcases List.mem_append.1 hx with hx | hx
  · exact hm x hx
  · rw [List.mem_singleton.1 hx]
    exact hw

theorem LaterBacks.of_eq {cyc : Nat} {m m' : Sim} (hm : LaterBacks cyc m) (h : m'.wbacks = m.wbacks) : LaterBacks cyc m' := by
  rw [LaterBacks, h]
  exact hm

theorem cxLV_pos (c : Ctx) : 0 < cxLV c := by
  unfold cxLV
  split
  · decide
  · split
    · unfold vecLatency
      split
      · split
        · decide
        · decide
      · decide
    · decide

theorem laterBacks_doVector (e : Exe) (cyc : Nat) (f : Flight) {m : Sim} (hm : LaterBacks cyc m) : LaterBacks cyc (doVector e cyc f m).2 := by
  have hlater : cyc < cyc + cxLV e.c := Nat.lt_add_of_pos_right (cxLV_pos e.c)
  unfold doVector
  split
  · exact hm.of_eq (wbacks_signWords ..)
  · next b hb =>
    dsimp only
    have hx := wbacks_vecOperand e b f cyc (vecX b) 0 m
    generalize vecOperand e b f cyc (vecX b) 0 m = x at hx ⊢
    have hy := wbacks_vecOperand e b f cyc (vecY b) x.2.1 x.2.2
    generalize vecOperand e b f cyc (vecY b) x.2.1 x.2.2 = y at hy ⊢
    have hz := wbacks_vecOperand e b f cyc (vecZ b) y.2.1 y.2.2
    generalize vecOperand e b f cyc (vecZ b) y.2.1 y.2.2 = z at hz ⊢
    have hread : z.2.2.wbacks = m.wbacks := hz.trans (hy.trans hx)
    generalize (vecDescEn b && (lanes.map (laneValid e.c f.k b)).any (fun x => !x)) = masked
    have hmasked : (if masked = true then simRegs e z.2.2 (fun r => { r with maskedSets := bump8 r.maskedSets }) else z.2.2).wbacks = m.wbacks :=
      wbacks_ite _ hread hread
    generalize (if masked = true then simRegs e z.2.2 (fun r => { r with maskedSets := bump8 r.maskedSets }) else z.2.2) = u at hmasked ⊢
    have hu : LaterBacks cyc u := hm.of_eq hmasked
    split
    · refine LaterBacks.of_eq ?_ (wbacks_signWords ..)
      have hcount := wbacks_ite (vecRacc b = true) (x := u) rfl (wbacks_countEvents e (vecSatc b)
        (((List.range (tapCount (vecTap b))).map (tapResult (vecOp b) (cxEntry e.c f.k).q (vecTap b) x.1
          (lanes.map (laneValid e.c f.k b)))).filter (fun t => t.sat && !t.nan)).length
        (((List.range (tapCount (vecTap b))).map (tapResult (vecOp b) (cxEntry e.c f.k).q (vecTap b) x.1
          (lanes.map (laneValid e.c f.k b)))).filter (·.nan)).length u)
      split
      · exact hu.of_eq hcount
      · exact laterBacks_append (hu.of_eq hcount) hlater rfl
    · refine LaterBacks.of_eq ?_ (wbacks_signWords ..)
      split
      · exact hu.of_eq (wbacks_countEvents ..)
      · exact laterBacks_append (hu.of_eq (wbacks_countEvents ..)) hlater rfl

theorem wbacks_outWords (e : Exe) (b : Nat) (f : Flight) (m : Sim) : (outWords e b f m).2.wbacks = m.wbacks := by
  have hdevs : ∀ {α : Type} (l : List α) (g : α → State → State) (x : Sim), (l.foldl (fun y d => simS y (g d)) x).wbacks = x.wbacks :=
    fun l g => by
      induction l with
      | nil => exact fun x => rfl
      | cons d l ih => exact fun x => ih _
  unfold outWords
  dsimp only
  split
  · exact wbacks_ite _ ((hdevs _ (fun d => modCounters e.c.g (fun c => { c with sent := vmod c.sent (sentBin d) 0 (fun y => bumpBy32 y 1) })) _).trans
      (wbacks_countEvents ..)) (wbacks_countEvents ..)
  · rfl

theorem wbacks_foldRange (n : Nat) (D : Nat → Sim → Land) (m : Sim) :
    (foldRange n (fun q x => sendLand x (D q x)) m).wbacks = m.wbacks := by
  rw [foldRange]
  induction List.range n generalizing m with
  | nil => rfl
  | cons i l ih => exact ih _

theorem wbacks_doOutlet (e : Exe) (cyc : Nat) (f : Flight) (m : Sim) : (doOutlet e cyc f m).wbacks = m.wbacks := by
  unfold doOutlet
  split
  · exact wbacks_signWords ..
  · next b hb =>
    dsimp only
    have hsigned : (signWords e 5 (cyc + 3) false (lanesOf ((outWords e b f m).1.map (fun w => (w.1, w.2.1)))) (outWords e b f m).2).wbacks =
        m.wbacks := (wbacks_signWords ..).trans (wbacks_outWords ..)
    generalize signWords e 5 (cyc + 3) false (lanesOf ((outWords e b f m).1.map (fun w => (w.1, w.2.1)))) (outWords e b f m).2 = u at hsigned ⊢
    generalize hsent : (if storesCab b = true then _ else u) = sent
    have hall : sent.wbacks = m.wbacks := by
      rw [← hsent]
      split
      · refine (wbacks_foldRange ..).trans ?_
        split
        · exact (wbacks_simHz ..).trans hsigned
        · exact hsigned
      · exact hsigned
    split
    · split
      · exact hall
      · exact hall
    · exact wbacks_ite _ hall (wbacks_ite _ hall hall)

/-- A word set that goes on leaves write-backs of later cycles. -/
theorem laterBacks_advance (e : Exe) (cyc : Nat) (f : Flight) {m : Sim} (hm : LaterBacks cyc m) : LaterBacks cyc (advance e cyc f m).2 := by
  unfold advance
  dsimp only
  split
  · exact hm.of_eq (wbacks_doTransform ..)
  · split
    · exact hm.of_eq (wbacks_doMultiply ..)
    · split
      · exact hm.of_eq (wbacks_doAccumulate ..)
      · split
        · exact laterBacks_doVector e cyc f hm
        · split
          · exact hm.of_eq (wbacks_doOutlet ..)
          · exact hm

/-! ### A word set by itself -/

theorem deliver_idle {e : Exe} {cyc : Nat} {m : Sim} (hdels : m.dels = []) (hA : cxK e.c ≤ m.nA) (hB : cxK e.c ≤ m.nB) :
    deliver e cyc m = m := by
  have hb : takeB e cyc m = (.none, m) := by
    rw [takeB, hdels]
    exact if_pos hB
  have ha : takeA e cyc m = (.none, m) := by
    rw [takeA, hdels]
    exact if_pos hA
  rw [deliver, hb]
  dsimp only
  rw [ha]

/-- A word set under way with nothing delivered and no write-back due goes on by itself. -/
theorem stationCycle_alone {e : Exe} {cyc : Nat} {f : Flight} {m : Sim} (hfly : m.fly = [f]) (hdels : m.dels = []) (hback : m.wbacks = [])
    (hA : cxK e.c ≤ m.nA) (hB : cxK e.c ≤ m.nB) :
    stationCycle e cyc m = { (advance e cyc f { m with fly := [] }).2 with fly := (advance e cyc f { m with fly := [] }).1.toList } := by
  have hlater : LaterBacks cyc (advance e cyc f { m with fly := [] }).2 :=
    laterBacks_advance e cyc f (m := { m with fly := [] }) (fun w hw => absurd (hback ▸ hw) List.not_mem_nil)
  have hall : advanceAll e cyc [f] { m with fly := [] } =
      ((advance e cyc f { m with fly := [] }).1.toList, (advance e cyc f { m with fly := [] }).2) := by
    simp only [advanceAll]
    cases (advance e cyc f { m with fly := [] }).1 with
    | none => rfl
    | some x => rfl
  unfold stationCycle
  rw [deliver_idle hdels hA hB]
  dsimp only
  rw [hfly, hall]
  dsimp only
  have hdue : (advance e cyc f { m with fly := [] }).2.wbacks.filter (fun w => decide (w.cycle ≤ cyc)) = [] :=
    List.filter_eq_nil_iff.2 fun w hw => by
      have := hlater w hw
      rw [decide_eq_true_eq]
      omega
  have hkeep : (advance e cyc f { m with fly := [] }).2.wbacks.filter (fun w => decide (cyc < w.cycle)) =
      (advance e cyc f { m with fly := [] }).2.wbacks := List.filter_eq_self.2 fun w hw => decide_eq_true (hlater w hw)
  rw [hdue, hkeep]
  rfl

/-! ### A tick -/

theorem idleTick_steps {s : State} (hheld : s.held = []) (hruns : timeRuns s = true) (hcyc : s.time.cycle < 100)
    (hlanes : lanesOfTick (countWaits s) ≠ []) :
    let v := countWaits s
    let r := moduleCycles (tickBursts v) (100 - s.time.cycle) (100 * s.time.now + s.time.cycle) (lanesOfTick v, v)
    let w := modTime (r.1.foldl (fun x l => putLane l x) r.2) (fun t => { t with cycle := 100 })
    idleTick s = timeExchange (monitorEdge (haltTours (modTime (w.tours.foldl (fun x t => restoreChecks t.tourId x) w) advanceTime))) := by
  intro v r w
  have hserve : serveHeld v = v := by
    rw [serveHeld, show v.held = [] from hheld]
    rfl
  have hbusy : ¬ ((lanesOfTick v).isEmpty && (tickBursts v).isEmpty && !relayLive v && !filling v && (v.useLog.isEmpty || !watching v)) = true := by
    rw [List.isEmpty_eq_false_iff.2 hlanes]
    exact Bool.false_ne_true
  have hrun : runTo 100 v = w := by
    unfold runTo
    rw [if_neg (show ¬ 100 ≤ v.time.cycle by exact Nat.not_le.2 hcyc)]
    dsimp only
    rw [if_neg hbusy]
    rfl
  unfold idleTick
  rw [if_pos hruns, hserve, hrun]

/-! ### The station that a word set reaches -/

theorem cxLX_pos (c : Ctx) : 0 < cxLX c := by
  unfold cxLX
  split
  · decide
  · decide

theorem cxLM_pos (c : Ctx) : 0 < cxLM c := by
  unfold cxLM
  split
  · decide
  · split
    · split
      · decide
      · decide
    · decide

theorem cxLA_pos (c : Ctx) : 0 < cxLA c := by
  unfold cxLA
  split
  · decide
  · decide

theorem advance_transform (e : Exe) (f : Flight) (m : Sim) :
    advance e f.enter f m = (some (doTransform e f.enter f m).1, (doTransform e f.enter f m).2) := if_pos rfl

theorem advance_multiply (e : Exe) (f : Flight) (m : Sim) : advance e (f.enter + cxLX e.c) f m =
    (some (doMultiply e (f.enter + cxLX e.c) f m).1, (doMultiply e (f.enter + cxLX e.c) f m).2) := by
  have hX := cxLX_pos e.c
  unfold advance
  dsimp only
  rw [if_neg (by omega), if_pos rfl]

theorem advance_accumulate (e : Exe) (f : Flight) (m : Sim) : advance e (f.enter + cxLX e.c + cxLM e.c) f m =
    (some (doAccumulate e (f.enter + cxLX e.c + cxLM e.c) f m).1, (doAccumulate e (f.enter + cxLX e.c + cxLM e.c) f m).2) := by
  have hX := cxLX_pos e.c
  have hM := cxLM_pos e.c
  unfold advance
  dsimp only
  rw [if_neg (by omega), if_neg (by omega), if_pos rfl]

theorem advance_vector (e : Exe) (f : Flight) (m : Sim) : advance e (f.enter + cxLX e.c + cxLM e.c + cxLA e.c) f m =
    (some (doVector e (f.enter + cxLX e.c + cxLM e.c + cxLA e.c) f m).1, (doVector e (f.enter + cxLX e.c + cxLM e.c + cxLA e.c) f m).2) := by
  have hX := cxLX_pos e.c
  have hM := cxLM_pos e.c
  have hA := cxLA_pos e.c
  unfold advance
  dsimp only
  rw [if_neg (by omega), if_neg (by omega), if_neg (by omega), if_pos rfl]

theorem advance_outlet (e : Exe) (f : Flight) (m : Sim) : advance e (f.enter + cxLX e.c + cxLM e.c + cxLA e.c + cxLV e.c) f m =
    (.none, doOutlet e (f.enter + cxLX e.c + cxLM e.c + cxLA e.c + cxLV e.c) f m) := by
  have hX := cxLX_pos e.c
  have hM := cxLM_pos e.c
  have hA := cxLA_pos e.c
  have hV := cxLV_pos e.c
  unfold advance
  dsimp only
  rw [if_neg (by omega), if_neg (by omega), if_neg (by omega), if_neg (by omega), if_pos rfl]

/-! ### The arithmetic of a lane -/

theorem lowWords_getD (ws : List Nat) (l : Nat) : (lowWords ws).getD l 0 = ws.getD l 0 % 2 ^ 32 := by
  rw [lowWords, List.getD_eq_getElem?_getD, List.getElem?_map, List.getD_eq_getElem?_getD]
  cases ws[l]? with
  | none => rfl
  | some v => rfl

theorem getD_lanes_valid (p : Nat → Bool) {l : Nat} (hl : l < 256) (d : Bool) : (lanes.map p).getD l d = p l := by
  rw [List.getD_eq_getElem _ _ (by simpa [lanes] using hl), List.getElem_map]
  simp [lanes]

/-- The modular addition of two residues. -/
theorem vecLane_add {ent : ModEnt} (neg m1 : Bool) (imm seed : Nat) (zt : List Nat) (y0 lidx : Nat) {x y : Nat} (z : Nat) (hq : ent.q < 2 ^ 31)
    (hx : x < ent.q) (hy : y < ent.q) : (vecLane 2 ent neg m1 imm seed zt y0 lidx x y z).v = (x + y) % ent.q := by
  have hlow : x % 2 ^ 32 = x := Nat.mod_eq_of_lt (by omega)
  have hm32 : ∀ n : Nat, n < 2 ^ 32 → m32 (n : Int) = n := fun n hn => by
    rw [m32, BitVec.ofInt_natCast, BitVec.toNat_ofNat, Nat.mod_eq_of_lt hn]
  show m32 (if ent.q ≤ x % 2 ^ 32 + y then ((x % 2 ^ 32 : Nat) + y : Int) - ent.q else ((x % 2 ^ 32 : Nat) + y : Int)) = _
  rw [hlow]
  split
  · next h =>
    rw [show ((x : Int) + y - ent.q) = ((x + y - ent.q : Nat) : Int) by omega, hm32 _ (by omega), Nat.mod_eq_sub_mod h,
      Nat.mod_eq_of_lt (by omega)]
  · next h => rw [show ((x : Int) + y) = ((x + y : Nat) : Int) by omega, hm32 _ (by omega), Nat.mod_eq_of_lt (by omega)]

/-- The lanes of a narrow accumulation: wrapped, or clamped. -/
theorem accumulated_narrow {e : Exe} {b : Nat} {f : Flight} {fold : Nat} {old : List Nat} (hmod : cxModular e.c = false) (hfp : f.fp = false)
    (hflag : accFlag b = true) (hlen : f.ws.length = 256) (hold : old.length = 256) {l : Nat} (hl : l < 256) :
    BitVec.ofNat 32 ((rowCut (cxModular e.c) (accFormed e b f fold old)).getD l 0) = BitVec.ofInt 32
      (if accWrap b then (BitVec.ofNat 32 (old.getD l 0)).toInt + (BitVec.ofNat 32 (f.ws.getD l 0)).toInt
       else max (-2 ^ 31) (min (2 ^ 31 - 1) ((BitVec.ofNat 32 (old.getD l 0)).toInt + (BitVec.ofNat 32 (f.ws.getD l 0)).toInt))) := by
  rw [rowCut_getD, accFormed_lane hflag hlen hold hl, hmod, hfp]
  exact accLane_narrow (accWrap b) fold _ _

/-- The lanes of a modular accumulation: below 2^63, and congruent to the sum. -/
theorem accumulated_modular {e : Exe} {b : Nat} {f : Flight} {old : List Nat} (hmod : cxModular e.c = true) (hflag : accFlag b = true)
    (hlen : f.ws.length = 256) (hold : old.length = 256) {q : Nat} (hq : q < 2 ^ 31) (hqpos : 0 < q) {l : Nat} (hl : l < 256)
    (hsmall : old.getD l 0 < 2 ^ 63) (hset : f.ws.getD l 0 < 2 ^ 62) :
    (rowCut (cxModular e.c) (accFormed e b f (2 ^ 63 % q) old)).getD l 0 < 2 ^ 63 ∧
      (rowCut (cxModular e.c) (accFormed e b f (2 ^ 63 % q) old)).getD l 0 % q = (old.getD l 0 + f.ws.getD l 0) % q := by
  obtain ⟨hbelow, hcong⟩ := lazyAdd_residue hq hqpos hsmall hset
  have hcut : (rowCut (cxModular e.c) (accFormed e b f (2 ^ 63 % q) old)).getD l 0 = lazyAdd (2 ^ 63 % q) (old.getD l 0) (f.ws.getD l 0) := by
    rw [rowCut_getD, accFormed_lane hflag hlen hold hl, hmod]
    exact Nat.mod_eq_of_lt (show lazyAdd (2 ^ 63 % q) (old.getD l 0) (f.ws.getD l 0) < 2 ^ 64 by omega)
  rw [hcut]
  exact ⟨hbelow, hcong⟩

/-! ### The clauses of the stations -/

/-- Neither of Vector's two simple operations is a tap. -/
theorem isTap_simple {b : Nat} (hop : vecOp b = 1 ∨ (vecOp b = 2 ∧ vecY b = 1)) : isTap (vecOp b) = false := by
  rcases hop with hop | ⟨hop, -⟩ <;> rw [hop] <;> rfl

theorem vecIsFp_simple {b : Nat} (hop : vecOp b = 1 ∨ (vecOp b = 2 ∧ vecY b = 1)) : vecIsFp b = false := by
  rcases hop with hop | ⟨hop, -⟩ <;> rw [vecIsFp, hop] <;> rfl

/-- The lanes of Vector in its two simple operations: an invalid lane is 0, operation 1 takes the residue, operation 2 adds the word pair. -/
theorem doVector_lanes {e : Exe} {tv : Nat} {f : Flight} (m : Sim) {b : Nat} (hblk : cxBlk e.c f.k slV = some b) (htr : vecTranspose b = false)
    (hx : vecX b = 0) (hop : vecOp b = 1 ∨ (vecOp b = 2 ∧ vecY b = 1)) {l : Nat} (hl : l < 256) :
    (laneValid e.c f.k b l = false → (doVector e tv f m).1.ws.getD l 0 = 0 ∧ (doVector e tv f m).1.valid.getD l true = false) ∧
    (laneValid e.c f.k b l = true → (doVector e tv f m).1.valid.getD l false = true ∧
      (vecOp b = 1 → (doVector e tv f m).1.ws.getD l 0 = f.ws.getD l 0 % (cxEntry e.c f.k).q) ∧
      (vecOp b = 2 → (cxEntry e.c f.k).q < 2 ^ 31 → f.ws.getD l 0 < (cxEntry e.c f.k).q → f.b.getD l 0 < (cxEntry e.c f.k).q →
        (doVector e tv f m).1.ws.getD l 0 = (f.ws.getD l 0 + f.b.getD l 0) % (cxEntry e.c f.k).q)) := by
  obtain ⟨-, hvalid, hlanes⟩ := doVector_simple (cyc := tv) m hblk htr hx (isTap_simple hop)
  have hlane : (doVector e tv f m).1.ws.getD l 0 = (vecLaneOf e b tv f m l).v := by
    rw [hlanes]
    exact getD_lanes_map _ hl
  refine ⟨fun hout => ⟨?_, ?_⟩, fun hin => ⟨?_, fun h1 => ?_, fun h2 hq hwx hwy => ?_⟩⟩
  · refine hlane.trans ?_
    rw [vecLaneOf, hout]
    rfl
  · rw [hvalid, getD_lanes_valid _ hl, hout]
  · rw [hvalid, getD_lanes_valid _ hl, hin]
  · refine hlane.trans ?_
    rw [vecLaneOf, hin, h1]
    rfl
  · have hY : vecY b = 1 := by
      rcases hop with hop | hop
      · exact absurd (hop.symm.trans h2) (by decide)
      · exact hop.2
    have hy : (lowWords (vecSecond e b tv f m).1).getD l 0 = f.b.getD l 0 := by
      rw [lowWords_getD, vecSecond, hY]
      exact Nat.mod_eq_of_lt (show f.b.getD l 0 < 2 ^ 32 by omega)
    refine hlane.trans ?_
    rw [vecLaneOf, hin, h2, hy, if_pos rfl]
    exact vecLane_add _ _ _ _ _ _ _ _ hq hwx hwy

/-- A write-back to a tile register stands in the one that its generator names, and in no other. -/
theorem tileReg_doWriteBack {e : Exe} {w : WBack} {m : Sim} (hg : e.c.g < 32) (hacc : vecRacc w.b = false) (hwb : vecWb w.b = 1)
    (hws : w.ws.length = 256) (hvalid : w.valid.length = 256) :
    (∀ l < 256, (tileReg (galX e (doWriteBack e w m)).work (cxVal e.c w.k slV false (vecWbGen w.b)).toNat).getD l 0 =
        if w.valid.getD l false then w.ws.getD l 0 % 2 ^ 32 else 0) ∧
      (∀ j, j ≠ (cxVal e.c w.k slV false (vecWbGen w.b)).toNat → tileReg (galX e (doWriteBack e w m)).work j = tileReg (galX e m).work j) := by
  obtain ⟨htiles, -, -⟩ := doWriteBack_tile (m := m) hg hacc hwb
  have hcells : (backCells w).length = 256 := by rw [backCells, List.length_zipWith, hws, hvalid]; rfl
  have hreg : ∀ j, tileReg (galX e (doWriteBack e w m)).work j = tileReg { (galX e m).work with
      tiles := smPut 0 (256 * (cxVal e.c w.k slV false (vecWbGen w.b)).toNat) (backCells w) (galX e m).work.tiles } j := fun j =>
    congrArg (fun c => (smRead 0 (256 * j) 256 c).map BitVec.toNat) htiles
  refine ⟨fun l hl => ?_, fun j hj => ?_⟩
  · rw [hreg, tileReg_put_same _ _ _ hcells]
    exact backCells_getD hws hvalid hl
  · rw [hreg]
    exact tileReg_put_other _ _ _ _ hcells hj

/-- What lands in a cabinet that no use is near of: its words stand, and every other word of every cabinet is as it was. -/
theorem cabWord_doLand {e : Exe} {d : Land} {owner : Nat} {engine : Bool} {m : Sim} (hd : d.dest = .cab owner engine) (ho : owner < 32)
    (hlog : m.s.useLog = []) (hnd : (d.words.map (·.1)).Nodup) (hwf : SmWf 0 (galOf m.s owner).cab) :
    (∀ p ∈ d.words, cabWord (doLand e d m).s owner p.1 = BitVec.ofNat 32 p.2) ∧
      (∀ g a, g ≠ owner ∨ a ∉ d.words.map (·.1) → cabWord (doLand e d m).s g a = cabWord m.s g a) := by
  obtain ⟨hin, hout⟩ := smGet_cabAfter d.words (galOf m.s owner).cab hwf hnd
  have hcab := cab_doLand (e := e) hd ho hlog
  refine ⟨fun p hp => ?_, fun g a hga => ?_⟩
  · rw [cabWord, hcab owner, if_pos rfl]
    exact hin p hp
  · rw [cabWord, hcab g]
    split
    · next h =>
      subst h
      exact hout a (hga.resolve_left (fun h => h rfl))
    · rfl

/-- Settles O32: the tick by the module's cycles, a word set by the station that it reaches, and each station by its own law. -/
theorem runningStepsCompute : Obligations.RunningStepsCompute := by
  unfold Obligations.RunningStepsCompute
  refine ⟨?_, ?_, ?_, ?_, ?_⟩
  · intro s hpend hheld hruns hcyc v n hlanes r w
    have hstep : step s = .next (idleTick s) := by rw [step, hpend] <;> rfl
    rw [hstep, idleTick_steps hheld hruns hcyc hlanes]
  · exact fun e cyc f m hfly hdels hback hA hB => stationCycle_alone hfly hdels hback hA hB
  · intro e f m hg hws hb hinj0 hinj1 hinj2 hinj3 x tm tc tv entryOk
    have hsound : entryOk → SoundEntry x := fun ⟨habove, hbelow, hlow, hhigh, hmu⟩ => ⟨habove, hbelow, hlow, hhigh, hmu⟩
    refine ⟨?_, ?_, ?_, ?_, ?_, ?_⟩
    · intro b hblk hent htw hin
      obtain ⟨hbelow, hkept, hsigned⟩ := doTransform_clean (cyc := f.enter) hblk (hsound hent) hinj3 htw hin
      exact ⟨_, _, advance_transform e f m, hbelow, hkept, hsigned.faults, hsigned.gals⟩
    · intro b hblk hmod hwide hent hin hin'
      have hinj : ∀ t < 3, injectHit e m t = .none := fun t ht => by
        have h : t = 0 ∨ t = 1 ∨ t = 2 := by omega
        rcases h with rfl | rfl | rfl
        · exact hinj0
        · exact hinj1
        · exact hinj2
      obtain ⟨hprod, hsigned⟩ := doMultiply_modular (cyc := tm) hblk hmod hwide (hsound hent) hinj hws hb hin hin'
      exact ⟨_, _, advance_multiply e f m, fun l hl => (congrArg (·.getD l 0) hprod).trans (getD_zipWith_full hws hb hl), hsigned.faults,
        hsigned.gals⟩
    · intro b hblk hmod hpair plane
      obtain ⟨hfp, hsum⟩ := doMultiply_narrow (cyc := tm) (m := m) hblk hmod hpair
      exact ⟨_, _, advance_multiply e f m, hfp, fun l hl => (hsum l hl).trans (congrArg (BitVec.ofInt 32) (dotRange_eq_sum ..))⟩
    · intro b hblk hview _ _ row old
      obtain ⟨hrow, fold, hfold, hformed⟩ := doAccumulate_row (cyc := tc) hg hblk hws hview
      have hlen : (accRow (galX e m).work (cxModular e.c) row).length = 256 := accRow_length ..
      refine ⟨_, _, advance_accumulate e f m, fun l _ => congrArg (·.getD l 0) hrow, fun hflag l _ => ?_,
        fun hflag hmod hsome hq0 hq hfoldq l hl hold hset => ?_, fun hflag hmod hfp l hl => ?_⟩
      · refine (congrArg (·.getD l 0) hformed).trans ((rowCut_getD ..).trans ?_)
        rw [accFormed, if_neg (by rw [hflag]; exact Bool.false_ne_true)]
      · have hfold' : fold = 2 ^ 63 % x.q := (hfold hsome).trans hfoldq
        have h := accumulated_modular (e := e) (b := b) hmod hflag hws hlen hq (by omega) hl hold hset
        rw [← hfold', ← hformed] at h
        exact h
      · have h := accumulated_narrow (e := e) (fold := fold) hmod hfp hflag hws hlen hl
        rw [← hformed] at h
        exact h
    · intro b hblk htr hx hop
      obtain ⟨hfp, -, -⟩ := doVector_simple (cyc := tv) m hblk htr hx (isTap_simple hop)
      exact ⟨_, _, advance_vector e f m, hfp.trans (vecIsFp_simple hop), fun l hl => doVector_lanes m hblk htr hx hop hl⟩
    · intro b hblk hst hplain
      exact ⟨_, advance_outlet e f m, fun l pa hl hl' hvalid hpa => doOutlet_word m hblk hst hplain hl hl' hvalid hpa⟩
  · intro e w m hg hacc hwb hws hvalid _ i m'
    obtain ⟨-, haccM, haccN⟩ := doWriteBack_tile (m := m) hg hacc hwb
    obtain ⟨hsame, hother⟩ := tileReg_doWriteBack (m := m) hg hacc hwb hws hvalid
    exact ⟨hsame, hother, haccM, haccN⟩
  · exact fun e d owner engine m hd ho hlog hnd hwf => cabWord_doLand hd ho hlog hnd hwf

end Sys2Proof.Machine
end
